-- ==== Sys2Proof/Word.lean ====
section
/-! DEFINITION. Bits, bytes and fixed-width integers: the helpers of 00_scope.md ("Pseudocode"), and the
little-endian byte order of R4. Values that software sees as words are natural numbers read through these
helpers where the spec's pseudocode uses unbounded integers (R15), and bit vectors where the spec gives a
register or a counter that wraps. -/

namespace Sys2Proof

/-- A byte of device memory. -/
abbrev Byte := BitVec 8
/-- A register (R5), or a counter that wraps at 2^64. -/
abbrev Reg := BitVec 64
/-- A shift number (R106), a tag counter (R112). -/
abbrev W32 := BitVec 32

/-- `u32` of the standard helpers. -/
def u32 (x : Nat) : Nat := x % 2 ^ 32
/-- `u64` of the standard helpers. -/
def u64 (x : Nat) : Nat := x % 2 ^ 64
/-- `s32` of the standard helpers: the two's-complement value of the low 32 bits. -/
def s32 (x : Nat) : Int := if x % 2 ^ 32 < 2 ^ 31 then (x % 2 ^ 32 : Nat) else (x % 2 ^ 32 : Nat) - (2 ^ 32 : Int)
/-- The low 32 bits of an integer, as a pattern. -/
def ofInt32 (x : Int) : Nat := (x % (2 ^ 32 : Int)).toNat
/-- `bits(x, hi, lo)` of the standard helpers: the field [hi:lo] (R3). -/
def bits (x hi lo : Nat) : Nat := x / 2 ^ lo % 2 ^ (hi - lo + 1)
/-- Bit `i` of `x`. -/
def bit (x i : Nat) : Bool := x / 2 ^ i % 2 == 1
/-- `bit_length`: the number of binary digits of `x`, 0 for 0. -/
def bitLength (x : Nat) : Nat := if x = 0 then 0 else Nat.log2 x + 1
/-- Quotient rounded up. -/
def ceilDiv (a b : Nat) : Nat := (a + b - 1) / b
/-- `ceil(log2 n)`, 0 for n ≤ 1. -/
def ceilLog2 (n : Nat) : Nat := if n ≤ 1 then 0 else bitLength (n - 1)
/-- 1 for true, 0 for false. -/
def b2n (b : Bool) : Nat := if b then 1 else 0

/-- The number that a little-endian run of byte values spells (R4). -/
def leNat : List Nat → Nat
  | [] => 0
  | b :: bs => b % 256 + 256 * leNat bs
/-- The `n` little-endian bytes of `x` (R4). -/
def leBytes : Nat → Nat → List Nat
  | 0, _ => []
  | n + 1, x => x % 256 :: leBytes n (x / 256)
/-- `n` bytes of a list of byte values from offset `o`, as a little-endian number; bytes beyond the end read 0. -/
def leAt (l : List Nat) (o n : Nat) : Nat := leNat ((l.drop o).take n)

/-- Set or clear bit `i` of a mask. -/
def setBit (m i : Nat) (v : Bool) : Nat :=
  if v then (if bit m i then m else m + 2 ^ i) else (if bit m i then m - 2 ^ i else m)

/-- Update entry `i` of a list. -/
def updAt {α : Type} : List α → Nat → (α → α) → List α
  | [], _, _ => []
  | x :: xs, 0, f => f x :: xs
  | x :: xs, n + 1, f => x :: updAt xs n f

/-- Entry `i` of a list of numbers, 0 beyond the end. -/
def nth (l : List Nat) (i : Nat) : Nat := l.getD i 0

end Sys2Proof
end

