-- ==== Sys2Proof/Syntax.lean ====
section
/-! DEFINITION. The commands of the block: one constructor of `Instr` for each row of spec/opcode_table.json, with
the row's operands. A row is one whole step of the part (95_what_each_step_holds.md): an operation a face's
sequencer runs, an event of an engine, a link, the bell or a pin, a register write, or a message of the host.

The sixteen-byte commands of a command ring (R95) are data in device memory; the rows NOP to DIGEST name the
sequencer or the engine that runs the one it holds. -/

namespace Sys2Proof

/-- The engine classes that have a dispatch queue in each face (R91, R98). `seq` and `tag` have none. -/
inductive Cls where
  | seq | tag | data | stope | drift | riffle | tram | vector | row | skip | coll | desc | resil
  deriving DecidableEq, Repr

/-- What an error-correcting read reports (R440, R442). -/
inductive EccResult where
  | ok | corrected | uncorrectable
  deriving DecidableEq, Repr

/-- Why a transaction was answered with a negative acknowledgement (R370, R371, R373, R441). -/
inductive NakReason where
  | refused | uncorrectable | unreachable | pathLost
  deriving DecidableEq, Repr

/-- The neighbour packets the host ports answer (R478). -/
inductive NeighborKind where
  | arp | neighborSolicit | icmpEcho | icmpv6Echo
  deriving DecidableEq, Repr

/-- The training record of R359. -/
structure TrainRec where
  partCode : Nat
  stepping : Nat
  protoMin : Nat
  protoMax : Nat
  role : Nat
  position : Nat
  port : Nat
  pair : Nat
  bypass : Nat
  bypassFor : Nat
  epochLow : Nat
  deriving DecidableEq, Repr

/-- A write transaction whose last flit has passed its CRC check (R371). `row` is the layer and shift that a token
row carries (R311). -/
structure WriteTxn where
  src : Nat
  part : Nat
  txn : Nat
  vc : Nat
  addr : Nat
  data : List Nat
  row : Option (Nat × Nat)
  deriving DecidableEq, Repr

/-- A heartbeat's payload (R375) and the sixteenths at which it arrived. `cand` is the best master candidate the
sender knows: lock class, priority, position and the sender's hop count to it. `counts` is false where the sender's bell
does not count and the bell fields are zero (R388). -/
structure Heartbeat where
  position : Nat
  priority : Nat
  cand : Option (Nat × Nat × Nat × Nat)
  bellT : Nat
  sixteenths : Nat
  lastDeparture : Nat
  lastArrival : Nat
  arrival : Nat
  counts : Bool
  deriving DecidableEq, Repr

/-- The link fields of a flit that arrives: link_seq, link_ack and the credits that it returns by channel (R363).
Where a row stands for several flits, link_seq is the first one's. -/
structure LinkIn where
  seq : Nat := 0
  ack : Nat := 0xFFFF
  c0 : Nat := 0
  c1 : Nat := 0
  c2 : Nat := 0
  c3 : Nat := 0
  deriving DecidableEq, Repr

/-- What forwarding reads of a flit (R363, R368, R369). -/
structure TransitFlit where
  src : Nat
  dst : Nat
  vc : Nat
  part : Nat
  ttl : Nat
  txn : Nat
  type : Nat
  deriving DecidableEq, Repr, Inhabited

/-- A collective flit of stage 0, 1, 2 or 4 (R398). -/
structure CollFlit where
  src : Nat
  part : Nat
  seq : Nat
  ring : Nat
  stage : Nat
  off : Nat
  last : Bool
  data : List Nat
  deriving DecidableEq, Repr

/-- A pseudo-channel that failed training, with the lane the fault was placed on (R445). -/
structure TrainFail where
  pc : Nat
  lane : Option Nat
  deriving DecidableEq, Repr

/-- One reading of the module's sensors, in whole °C (R547, R554). -/
structure Temps where
  inlet : Nat
  outlet : Nat
  hbm : Nat
  die0 : Nat
  die1 : Nat
  die2 : Nat
  die3 : Nat
  photonic : Nat
  deriving DecidableEq, Repr

/-- The header of an Adit datagram (R481), and where it came from: the host port, the source address (an IPv4 address as
its IPv4-mapped one) and the source UDP port. `spdm` is the SPDM secured session it travelled in, none for a plain
datagram. -/
structure Hdr where
  port : Nat := 0
  version : Nat := 1
  flags : Nat := 0
  rsv : Nat := 0
  session : Nat := 0
  seq : Nat := 0
  fragIndex : Nat := 0
  fragCount : Nat := 1
  status : Nat := 0
  bodyLen : Nat := 0
  spdm : Option Nat := none
  src : Nat := 0xFE80 * 2 ^ 112 + 1
  udp : Nat := 7680
  deriving DecidableEq, Repr

/-- A frame that a host port receives and that no service of the device takes: its bytes, FCS included, its VLAN id, the
IP address it is for (an IPv4 address as its IPv4-mapped one), its UDP port, and whether it is of a kind that R478 names
as unsupported. -/
structure HostFrame where
  size : Nat
  tag : Option Nat
  addr : Nat
  udp : Option Nat
  other : Bool
  deriving DecidableEq, Repr

/-- The body of WINDOW_OPEN (R503). -/
structure WindowReq where
  window : Nat
  part : Nat
  access : Nat
  rsv : Nat
  destQpn : Nat
  base : Nat
  length : Nat
  gid : Nat
  startPsn : Nat
  deriving DecidableEq, Repr

/-- The requests of R483 other than SPDM and SECURED, with their bodies. -/
inductive Req where
  | sessionOpen (mode leaseLog2 rsv : Nat) (label : List Nat)
  | leaseRenew
  | sessionClose
  | custodyClaim
  | regRead (addrs : List Nat)
  | regWrite (pairs : List (Nat × Nat))
  | memRead (addr len rsv : Nat)
  | memWrite (addr : Nat) (data : List Nat)
  | doorbell (entries : List (Nat × Nat × Nat))
  | reset (scope index rsv : Nat)
  | imageWrite (off rsv : Nat) (data : List Nat)
  | grant (part layer rsv : Nat) (body : List Nat)
  | eventAck (upTo : Nat)
  | telemetrySet (periodLog2 rsv : Nat) (addrs : List Nat)
  | windowOpen (w : WindowReq)
  | windowClose (w rsv : Nat)
  | addrSet (body : List Nat)
  | reservedType (type : Nat)
  deriving DecidableEq, Repr

/-- The SPDM requests the device answers (R497). Numbers stand for what the standard's fields hold: `leaf` for the
SHA-384 digest of the host's leaf certificate, `spki` for those of the public keys of its chain, `chainOk` and
`sigOk` for what verifying the chain and the signatures gives. -/
inductive SpdmMsg where
  | getVersion
  | getCapabilities
  | negotiateAlgorithms (offered : Bool)
  | getDigests
  | getCertificate (slot : Nat)
  | challenge (slot nonce : Nat)
  | getMeasurements (index nonce : Nat)
  | keyExchange (hbPeriod : Nat)
  | finish (id leaf : Nat) (spki : List Nat) (chainOk sigOk : Bool)
  | keyUpdate (id : Nat)
  | heartbeat (id : Nat)
  | endSession (id : Nat)
  deriving DecidableEq, Repr

/-- The commands of the block: the rows of spec/opcode_table.json, in its order. -/
inductive Instr where
  /-- NOP (R99). -/
  | nop (q : Nat)
  /-- FENCE (R100). -/
  | fence (q : Nat)
  /-- BRANCH_IF (R102). -/
  | branchIf (q : Nat)
  /-- CALL (R101). -/
  | call (q : Nat)
  /-- RET (R101). -/
  | ret (q : Nat)
  /-- WAIT_BELL (R99). -/
  | waitBell (q : Nat)
  /-- BOUNDS (R108). -/
  | bounds (q : Nat)
  /-- SHIFT (R106). -/
  | shift (q : Nat)
  /-- TAG_SIGNAL (R114). -/
  | tagSignal (q : Nat)
  /-- TAG_WAIT (R113). -/
  | tagWait (q : Nat)
  /-- TAG_SET (R114). -/
  | tagSet (q : Nat)
  /-- TAG_REMOTE (R115). -/
  | tagRemote (q : Nat)
  /-- LOAD (R155). -/
  | load (q : Nat)
  /-- STORE (R155). -/
  | store (q : Nat)
  /-- PREFETCH (R157). -/
  | prefetch (q : Nat)
  /-- COPY (R155). -/
  | copy (q : Nat)
  /-- TILE_MM (R177). -/
  | tileMm (f u : Nat) (parity : Option Nat)
  /-- TILE_MV (R192). -/
  | tileMv (f u : Nat) (parity : Option Nat)
  /-- TILE_SP (R250). -/
  | tileSp (f u : Nat) (parity : Option Nat)
  /-- MASK_REG (R239). -/
  | maskReg (f u : Nat) (parity : Option Nat)
  /-- GATHER (R264). -/
  | gather (f u : Nat) (parity : Option Nat)
  /-- MERGE (R272). -/
  | merge (f u : Nat) (parity : Option Nat)
  /-- SEGSORT (R274). -/
  | segsort (f u : Nat) (parity : Option Nat)
  /-- VEC_OP (R324). -/
  | vecOp (f u : Nat) (parity : Option Nat)
  /-- ROW_NORM (R337). -/
  | rowNorm (f u : Nat) (parity : Option Nat)
  /-- ROW_SOFTMAX (R337). -/
  | rowSoftmax (f u : Nat) (parity : Option Nat)
  /-- ROW_LOSS (R337). -/
  | rowLoss (f u : Nat) (parity : Option Nat)
  /-- OPT_STEP (R343). -/
  | optStep (f u : Nat) (parity : Option Nat)
  /-- ROUTE (R293). -/
  | route (g : Nat)
  /-- CENSUS (R295). -/
  | census (g : Nat)
  /-- GRANT_WAIT (R305). -/
  | grantWait (q : Nat)
  /-- AMAX_ROUND (R402). -/
  | amaxRound (f u : Nat)
  /-- COLL_BUCKET (R407). -/
  | collBucket (f u : Nat)
  /-- KV_PASS (R420). -/
  | kvPass (f u : Nat)
  /-- DESC_CREATE (R145). -/
  | descCreate (q : Nat)
  /-- DESC_DROP (R147). -/
  | descDrop (q : Nat)
  /-- SECURE (R465). -/
  | secure (f : Nat)
  /-- DIGEST (R471). -/
  | digest (f : Nat)
  /-- COMMAND_FETCH (R89). -/
  | commandFetch (f : Nat)
  /-- COMMAND_ISSUE (R90); `again` says that it falls in the array cycle of the attempt before it. -/
  | commandIssue (f : Nat) (again : Bool)
  /-- ENGINE_DISPATCH (R558). -/
  | engineDispatch (f : Nat) (c : Cls)
  /-- COMMAND_RETIRE (R92). -/
  | commandRetire (q id : Nat)
  /-- DEADLINE_TEST (R110). -/
  | deadlineTest (q id units : Nat)
  /-- OVERRUN_TALLY_RECORD (R85). -/
  | overrunTallyRecord (q : Nat)
  /-- DEV_DOORBELL (R85). -/
  | devDoorbell (q tail : Nat)
  /-- DEV_TALLY_ACK (R123). -/
  | devTallyAck (q consumed : Nat)
  /-- ARM (R84). -/
  | arm (q : Nat)
  /-- STOP (R86). -/
  | stop (q : Nat)
  /-- RESUME_RETRY (R87). -/
  | resumeRetry (q : Nat)
  /-- RESUME_SKIP (R87). -/
  | resumeSkip (q : Nat)
  /-- DISARM (R86). -/
  | disarm (q : Nat)
  /-- STOPPING_DRAINED (R86). -/
  | stoppingDrained (q : Nat)
  /-- DEV_TAG_SIGNAL (R118). -/
  | devTagSignal (tag value : Nat)
  /-- FACE_RESET (R129). -/
  | faceReset (f : Nat)
  /-- GALLERY_RESET (R129). -/
  | galleryReset (g : Nat)
  /-- PARTITION_RESET (R129). -/
  | partitionReset (p : Nat)
  /-- WARM_RESET (R129). -/
  | warmReset
  /-- COLD_RESET (R129). -/
  | coldReset
  /-- RESET_COMPLETE (R129). -/
  | resetComplete
  /-- SHIFT_MARK (R51). -/
  | shiftMark (p : Nat)
  /-- AUDIT_COMPLETE (R127). -/
  | auditComplete (p : Nat)
  /-- COLLECTIVE_PHASE (R399). -/
  | collectivePhase (p ring phase : Nat)
  /-- POINTS_PRE_IDLE (R357). -/
  | pointsPreIdle (p port : Nat)
  /-- POINTS_SWITCH (R357). -/
  | pointsSwitch (p port : Nat)
  /-- HOST_DEADLINE (R297). -/
  | hostDeadline (p layer : Nat)
  /-- GRANT_DEADLINE_TEST (R303). -/
  | grantDeadlineTest (p layer : Nat)
  /-- GRANT_INSTALL (R304). -/
  | grantInstall (p layer shift : Nat)
  /-- RECONFIG_BOUNDARY (R379). -/
  | reconfigBoundary (p : Nat)
  /-- SECURE_WINDOW_OPEN (R465). -/
  | secureWindowOpen (p : Nat)
  /-- SECURE_WINDOW_CLOSE (R465). -/
  | secureWindowClose (p : Nat)
  /-- HEARTBEAT_SEND (R375). -/
  | heartbeatSend
  /-- HEARTBEAT_LOSS (R375). -/
  | heartbeatLoss (n : Nat)
  /-- LOSS_OF_LIGHT (R374). -/
  | lossOfLight (n : Nat)
  /-- SEEK_LIGHT_DETECT (R358). -/
  | seekLightDetect (n : Nat)
  /-- TRAIN_COMPLETE (R358). -/
  | trainComplete (n : Nat)
  /-- TRAINING_RECORD_RECEIVE (R360). -/
  | trainingRecordReceive (n : Nat) (r : TrainRec)
  /-- TRAINING_TIMEOUT (R358). -/
  | trainingTimeout (n : Nat)
  /-- POINTS_RETRAIN_TIMEOUT (R377). -/
  | pointsRetrainTimeout (n : Nat)
  /-- FAULTED_TIMEOUT (R358). -/
  | faultedTimeout (n : Nat)
  /-- RETRAIN (R358). -/
  | retrain (n value : Nat)
  /-- FAB_LOST_CLEAR (R378). -/
  | fabLostClear (word value : Nat)
  /-- WRITE_TRANSACTION_RECEIVE (R371). -/
  | writeTransactionReceive (n : Nat) (l : LinkIn) (t : WriteTxn)
  /-- READ_REQUEST_RECEIVE (R371). -/
  | readRequestReceive (n : Nat) (l : LinkIn) (src part txn vc addr len : Nat)
  /-- READ_RESPONSE_RECEIVE (R372). -/
  | readResponseReceive (n : Nat) (l : LinkIn) (src txn vc : Nat) (data : List Nat)
  /-- ACK_RECEIVE (R372). -/
  | ackReceive (n : Nat) (l : LinkIn) (src txn : Nat)
  /-- NAK_RECEIVE (R372). -/
  | nakReceive (n : Nat) (l : LinkIn) (src txn : Nat) (why : NakReason)
  /-- TAG_SIGNAL_RECEIVE (R116). -/
  | tagSignalReceive (n : Nat) (l : LinkIn) (src part txn tag value : Nat)
  /-- HEARTBEAT_RECEIVE (R384). -/
  | heartbeatReceive (n : Nat) (l : LinkIn) (h : Heartbeat)
  /-- LOSS_NOTICE_RECEIVE (R376). -/
  | lossNoticeReceive (n : Nat) (l : LinkIn) (lost tLoss declarer : Nat)
  /-- BAD_FLIT_RECEIVE (R364). -/
  | badFlitReceive (n uncorr : Nat)
  /-- FLIT_FORWARD (R369). -/
  | flitForward (n : Nat) (l : LinkIn) (fl : TransitFlit)
  /-- TRANSIT_CREDIT_TIMEOUT (R370). -/
  | transitCreditTimeout (n : Nat)
  /-- SETTLEMENT_TIMEOUT (R373). -/
  | settlementTimeout (txn : Nat)
  /-- COLLECTIVE_FLIT_RECEIVE (R398). -/
  | collectiveFlitReceive (n : Nat) (l : LinkIn) (fl : CollFlit)
  /-- CLOSE_FLIT_RECEIVE (R410). -/
  | closeFlitReceive (n : Nat) (l : LinkIn) (part ring seq count : Nat)
  /-- RESOLVE_FLIT_RECEIVE (R415). -/
  | resolveFlitReceive (n : Nat) (l : LinkIn) (part ring pass qmin : Nat)
  /-- KV_READY_RECEIVE (R420). -/
  | kvReadyReceive (n : Nat) (l : LinkIn) (part ring seq step : Nat)
  /-- COLLECTIVE_IDLE_TIMEOUT (R422). -/
  | collectiveIdleTimeout (q id : Nat)
  /-- PTP_MESSAGE (R383). -/
  | ptpMessage (port domain : Nat) (ipv6 locked : Bool) (ptpNs offset : Nat)
  /-- FREERUN_TIMEOUT (R386). -/
  | freerunTimeout
  /-- MASTER_TIMEOUT (R382). -/
  | masterTimeout
  /-- UPSTREAM_RESELECT_TIMEOUT (R386). -/
  | upstreamReselectTimeout
  /-- HOLDOVER_TIMEOUT (R386). -/
  | holdoverTimeout
  /-- CANARY_EVALUATION (R457). -/
  | canaryEvaluation
  /-- STOPE_RAMP_STEP (R182). -/
  | stopeRampStep (f a : Nat)
  /-- STOPE_IDLE_TIMEOUT (R181). -/
  | stopeIdleTimeout (f a : Nat)
  /-- STOPE_WIND_STEP (R182). -/
  | stopeWindStep (f a : Nat)
  /-- FACE_STOPE_CTRL (R181). -/
  | faceStopeCtrl (f value : Nat)
  /-- REGULATOR_REFILL (R434). -/
  | regulatorRefill
  /-- SCRUB_READ (R442). -/
  | scrubRead (pc : Nat) (ecc : EccResult) (raced : Bool)
  /-- SAVE (R446). -/
  | save
  /-- HEALTH_SAVE_COMPLETE (R446). -/
  | healthSaveComplete
  /-- MEM_REPAIR_CTRL (R447). -/
  | memRepairCtrl (value : Nat)
  /-- MEM_REPAIR_CMD (R452). -/
  | memRepairCmd (value : Nat)
  /-- DEV_PART_QUIESCE (R69). -/
  | devPartQuiesce (value : Nat)
  /-- QUIESCE_COMPLETE (R69). -/
  | quiesceComplete (p : Nat)
  /-- COMMIT (R67). -/
  | commit
  /-- DISCARD (R75). -/
  | discard
  /-- VALIDATION_COMPLETE (R62). -/
  | validationComplete
  /-- APPLY_COMPLETE (R73). -/
  | applyComplete
  /-- DEV_GRANT_AREA (R320). -/
  | devGrantArea (p value : Nat)
  /-- DEV_RATIO_AREA (R352). -/
  | devRatioArea (p value : Nat)
  /-- DEV_ROSTER_AREA (R423). -/
  | devRosterArea (p value : Nat)
  /-- REGISTER_WRITE (R6). -/
  | registerWrite (addr value : Nat)
  /-- SPDM (R497). -/
  | spdm (h : Hdr) (m : SpdmMsg)
  /-- SECURED (R498). -/
  | secured (outer : Hdr) (spdm : Nat) (macOk : Bool) (h : Hdr) (r : Req)
  /-- SESSION_OPEN (R494). -/
  | sessionOpen (h : Hdr) (mode leaseLog2 rsv : Nat) (label : List Nat)
  /-- LEASE_RENEW (R492). -/
  | leaseRenew (h : Hdr)
  /-- SESSION_CLOSE (R493). -/
  | sessionClose (h : Hdr)
  /-- CUSTODY_CLAIM (R493). -/
  | custodyClaim (h : Hdr)
  /-- REG_READ (R486). -/
  | regRead (h : Hdr) (addrs : List Nat)
  /-- REG_WRITE (R486). -/
  | regWrite (h : Hdr) (pairs : List (Nat × Nat))
  /-- MEM_READ (R487). -/
  | memRead (h : Hdr) (addr len rsv : Nat)
  /-- MEM_WRITE (R487). -/
  | memWrite (h : Hdr) (addr : Nat) (data : List Nat)
  /-- DOORBELL (R486). -/
  | doorbell (h : Hdr) (entries : List (Nat × Nat × Nat))
  /-- RESET (R489). -/
  | reset (h : Hdr) (scope index rsv : Nat)
  /-- IMAGE_WRITE (R488). -/
  | imageWrite (h : Hdr) (off rsv : Nat) (data : List Nat)
  /-- GRANT (R302). -/
  | grant (h : Hdr) (part layer rsv : Nat) (body : List Nat)
  /-- EVENT_ACK (R501). -/
  | eventAck (h : Hdr) (upTo : Nat)
  /-- TELEMETRY_SET (R502). -/
  | telemetrySet (h : Hdr) (periodLog2 rsv : Nat) (addrs : List Nat)
  /-- WINDOW_OPEN (R503). -/
  | windowOpen (h : Hdr) (w : WindowReq)
  /-- WINDOW_CLOSE (R505). -/
  | windowClose (h : Hdr) (w rsv : Nat)
  /-- ADDR_SET (R490). -/
  | addrSet (h : Hdr) (body : List Nat)
  /-- TELEMETRY (R502). -/
  | telemetry (session : Nat)
  /-- EVENT_RESEND (R501). -/
  | eventResend (session : Nat)
  /-- LEASE_EXPIRY (R492). -/
  | leaseExpiry (session : Nat)
  /-- FRAGMENT_TIMEOUT (R482). -/
  | fragmentTimeout (session seq : Nat)
  /-- RESERVATION_EXPIRY (R495). -/
  | reservationExpiry
  /-- NEIGHBOR_PACKET (R478). -/
  | neighborPacket (port : Nat) (k : NeighborKind)
  /-- RDMA_WRITE (R504); `imm` says that it brings immediate data. -/
  | rdmaWrite (port w rkey psn va : Nat) (data : List Nat) (imm : Bool) (ecn : Nat)
  /-- RDMA_READ (R504). -/
  | rdmaRead (port w rkey psn va len ecn : Nat)
  /-- ROCE_INVALID_REQUEST (R504). -/
  | roceInvalidRequest (port w psn ecn : Nat)
  /-- CNP_RECEIVE (R504). -/
  | cnpReceive (port w : Nat)
  /-- ROCE_RATE_RESTORE (R504). -/
  | roceRateRestore
  /-- FW_STAGE (R523). -/
  | fwStage
  /-- FW_COMMIT (R523). -/
  | fwCommit
  /-- PLAN_SAVE (R523). -/
  | planSave
  /-- PLAN_CLEAR (R523). -/
  | planClear
  /-- ANCHOR_ADD (R523). -/
  | anchorAdd
  /-- ANCHOR_CLEAR (R523). -/
  | anchorClear
  /-- FLASH_OP_COMPLETE (R523). -/
  | flashOpComplete
  /-- ROM_SELF_TEST_COMPLETE (R508). -/
  | romSelfTestComplete (pair0 pair1 : Bool)
  /-- IDENTITY_COMPLETE (R525). -/
  | identityComplete (ok : Bool)
  /-- HF_VERIFY_COMPLETE (R517). -/
  | hfVerifyComplete (badRead : Nat)
  /-- HF_START_COMPLETE (R518). -/
  | hfStartComplete (badRead : Nat) (fails : List TrainFail)
  /-- PLAN_LOAD_COMPLETE (R66). -/
  | planLoadComplete
  /-- VIN_RISE (R540). -/
  | vinRise (straps : Nat)
  /-- VIN_LOW (R540). -/
  | vinLow
  /-- UNDERVOLTAGE_TRIP (R548). -/
  | undervoltageTrip
  /-- OVERCURRENT_TRIP (R548). -/
  | overcurrentTrip
  /-- VIN_REMOVE (R548). -/
  | vinRemove
  /-- RESET_N_ASSERT (R537). -/
  | resetNAssert
  /-- RESET_N_RELEASE (R537). -/
  | resetNRelease
  /-- REFCLK_LOSS (R536). -/
  | refclkLoss
  /-- REFCLK_RECOVER (R536). -/
  | refclkRecover
  /-- BRAKE_N_ASSERT (R543). -/
  | brakeNAssert
  /-- BRAKE_N_RELEASE (R543). -/
  | brakeNRelease
  /-- GOVERNOR_SAMPLE (R543). -/
  | governorSample (pinW vinMv iin10ma : Nat)
  /-- THERMAL_LEVEL_RISE (R547). -/
  | thermalLevelRise (t : Temps)
  /-- THERMAL_LEVEL_FALL (R547). -/
  | thermalLevelFall (t : Temps)
  /-- INLET_HIGH (R547). -/
  | inletHigh
  /-- SMBUS_READ_STATUS (R538). -/
  | smbusReadStatus
  /-- SMBUS_READ_INPUT (R538). -/
  | smbusReadInput
  /-- SMBUS_READ_TEMP (R538). -/
  | smbusReadTemp
  /-- SMBUS_READ_ID (R538). -/
  | smbusReadId
  /-- SMBUS_WRITE (R538). -/
  | smbusWrite (cmd : Nat)
  /-- IDLE_FLIT_RECEIVE (R366). -/
  | idleFlitReceive (n : Nat) (l : LinkIn) (replay : Bool) (corrected : Nat)
  /-- PTP_LOCK_LOSS (R383). -/
  | ptpLockLoss
  /-- SPDM_HEARTBEAT_TIMEOUT (R492). -/
  | spdmHeartbeatTimeout (spdm : Nat)
  /-- HOST_LINK_CHANGE (R507). -/
  | hostLinkChange (port : Nat) (up fec : Bool) (uncorr : Nat)
  /-- PFC_FRAME_RECEIVE (R478). -/
  | pfcFrameReceive (port prio : Nat) (pause : Bool)
  /-- RESERVED_MESSAGE_TYPE (R483). -/
  | reservedMessageType (h : Hdr) (type : Nat)
  /-- HOST_PACKET_DISCARD (R479). -/
  | hostPacketDiscard (port : Nat) (f : HostFrame)
  /-- MEM_REPAIR_DATA (R452). -/
  | memRepairData (write : Bool) (value : Nat)
  deriving DecidableEq, Repr

end Sys2Proof
end

