-- ==== Sys2Proof/Config.lean ====
section
/-! DEFINITION. What the part fixes (00_scope.md, 01_device_overview.md), and the values the spec leaves open:
each an opaque constant, so that nothing can be proved of it (log entries 3, 4, 5 and 6). -/

namespace Sys2Proof.Config

/-- R23: faces. -/
def nFaces : Nat := 192
/-- R23: galleries. -/
def nGals : Nat := 16
/-- R23: queue contexts. -/
def nCtxs : Nat := 65536
/-- R23: tags. -/
def nTags : Nat := 32768
/-- R19: partitions. -/
def nParts : Nat := 16
/-- R22: fabric ports. -/
def nPorts : Nat := 36
/-- R426: pseudo-channels. -/
def nPcs : Nat := 384
/-- R29: first byte beyond the HBM range. -/
def hbmEnd : Nat := 0x00C0_0000_0000
def galBase : Nat := 0x0100_0000_0000
def galSize : Nat := 0x0200_0000
def faceBase : Nat := 0x0110_0000_0000
def faceSize : Nat := 0x0040_0000
def devBase : Nat := 0x0200_0000_0000
def galRegBase : Nat := 0x0200_1000_0000
def faceRegBase : Nat := 0x0200_2000_0000
def fabBase : Nat := 0x0200_4000_0000
def bellBase : Nat := 0x0200_4100_0000
def memBase : Nat := 0x0200_5000_0000
def hfcBase : Nat := 0x0200_6000_0000

/-- R28: DEV_ID. -/
def devId : BitVec 64 := 0x0000_4A7C_5C40_A000#64
/-- R28: DEV_CAPS. -/
def devCaps : BitVec 64 := 0x0011_100C_2410_100C#64
/-- R392: FAB_CAPS. -/
def fabCaps : BitVec 64 := 0x0000_0000_0010_1024#64

/-- FREE VALUE (R124): whether the byte at an address above the watermark of a faulted command holds its new
value; the first argument is the free counter of the state at the fault. -/
opaque torn : Nat → Nat → Bool
/-- FREE VALUE (R447): a byte of HBM after a repair command; the first argument is the free counter. -/
opaque freeByte : Nat → Nat → BitVec 8
/-- FREE VALUE: a number the spec does not state (a queue pair number, an R_Key, a transaction tag); the first
argument says which, the second is the free counter. -/
opaque freeNat : Nat → Nat → Nat
/-- FREE VALUE: the Hjelozan ECDSA key in mask ROM (R515): the coordinates of its point. -/
opaque romEcdsaKey : Nat × Nat
/-- FREE VALUE: the Hjelozan LMS key in mask ROM (R515): its types, identifier and root. -/
opaque romLmsKey : List Nat
/-- FREE VALUE: the secret that the PUF of a photonic die gives from its helper data (R525), of which 384 bits count. -/
opaque pufSecret : Nat → List Nat → Nat
/-- FREE VALUE: the private key of the P-384 key pair that a seed gives (R525, R526). -/
opaque ecPrivate : List Nat → Nat
/-- FREE VALUE: an ECDSA P-384 signature by a private key of bytes; the last argument is the free counter. -/
opaque sign : Nat → List Nat → Nat → List Nat
/-- FREE VALUE: the X.509 bytes of a certificate (R526, R527): 0 Hjelozan root, 1 SK40 A0 intermediate, 2 DevID, 3 alias;
the second argument is what it certifies. -/
opaque certificate : Nat → List Nat → List Nat

end Sys2Proof.Config
end

