-- ==== Sys2Proof/Machine/State.lean ====
section
/-! DEFINITION. The state of the SK40 (INVENTORY.md, "State"): plain data, one record per unit of the part.

Tables over large index ranges (65,536 queue contexts, 32,768 tags, 192 faces …) are sparse: `Tab α` lists the
entries that differ from the default, keys strictly rising, so that equal tables are equal data. Counter registers
that only the device writes are kept in such a table by their register offset. -/

namespace Sys2Proof.Machine

/-- A sparse table in canonical form: keys strictly rising, no entry equal to the default. -/
abbrev Tab (α : Type) := List (Nat × α)

/-- The entry at a key, the default where none is listed. -/
def Tab.get {α : Type} (d : α) : Tab α → Nat → α
  | [], _ => d
  | (k, v) :: t, i => if k = i then v else Tab.get d t i

/-- Insert or replace an entry, keeping the keys rising. -/
def Tab.ins {α : Type} : Tab α → Nat → α → Tab α
  | [], i, x => [(i, x)]
  | (k, v) :: t, i, x =>
    if i < k then (i, x) :: (k, v) :: t else if k = i then (i, x) :: t else (k, v) :: Tab.ins t i x

/-- Remove an entry. -/
def Tab.del {α : Type} (t : Tab α) (i : Nat) : Tab α := t.filter (fun e => e.1 ≠ i)

/-- Set the entry at a key: the default is not listed. -/
def Tab.set {α : Type} [DecidableEq α] (d : α) (t : Tab α) (i : Nat) (x : α) : Tab α :=
  if x = d then Tab.del t i else Tab.ins t i x

/-- The canonical form of a table. -/
def Tab.wf {α : Type} [DecidableEq α] (d : α) : Tab α → Bool
  | [] => true
  | [(_, v)] => decide (v ≠ d)
  | (k, v) :: (k', v') :: t => decide (v ≠ d) && decide (k < k') && Tab.wf d ((k', v') :: t)

/-! ## Clocks and bell -/

/-- The clocks. `lease` counts lease ticks since the last warm or cold reset (R482, R502); `bell` is bell time (R380);
`span` counts the ticks in which the device times spans: lease ticks while bell time does not count, bell ticks from
then on (R388); `cyc10` counts tenths of array cycles (R25); `free` is the model's own counter, which indexes free
values. -/
structure Clock where
  lease : Nat := 0
  bell : Nat := 0
  span : Nat := 0
  cyc10 : Nat := 0
  free : Nat := 0
  deriving DecidableEq, Repr, Inhabited

/-- The bell states of R386. -/
inductive BellState where
  | unsync | acquiring | locked | holdover | freerun | unaligned
  deriving DecidableEq, Repr, Inhabited

/-- A master candidate as last heard on a port (R382): its rank, the sender's hop count to it, the tick of the
span clock. -/
structure Cand where
  lockClass : Nat := 1
  priority : Nat := 0
  hops : Nat := 0
  heard : Nat := 0
  deriving DecidableEq, Repr, Inhabited

/-- Bell time's registers and discipline (R380 to R393). `cands` holds the candidates heard, by 64 × position + port;
`since` is the tick of the span clock of the last state change, `upLost` that at which the upstream was lost; `loaded`
is the bell tick from which bell time first counted (R387). `ppm` is the rate correction in force, in millionths, and
`frac` what it has gathered of the next tick, in millionths (R380, R383). -/
structure Bell where
  st : BellState := .unsync
  epoch : Reg := 0
  epochLock : Bool := false
  ptpDomain : Nat := 0
  ptpIpv6 : Bool := true
  ptpPort : Nat := 0
  ptpOffset : Reg := 0
  upOffset : Reg := 0
  lastCode : Nat := 0
  master : Nat := 0
  masterValid : Bool := false
  hops : Nat := 0
  upstream : Nat := 0x3F
  far : Bool := false
  lapsed : Bool := false
  mismatch : Bool := false
  ptpLocked : Bool := false
  isMaster : Bool := false
  peak : Nat := 0
  cands : Tab Cand := []
  since : Nat := 0
  upLost : Option Nat := none
  loaded : Nat := 0
  ppm : Int := 0
  frac : Int := 0
  deriving DecidableEq, Repr, Inhabited

/-! ## Memory -/

/-- Device memory: HBM, gallery stores and face stores (R29), as the bytes that differ from 0 (log entry 2), addresses
strictly rising. -/
abbrev Mem := List Host.Cell

/-- Error counts of one pseudo-channel (R452) and its corrected count in the present scrub pass (R443). -/
structure PcSt where
  ce : Nat := 0
  ue : Nat := 0
  passCe : Nat := 0
  scrubAt : Nat := 0
  deriving DecidableEq, Repr, Inhabited

/-- A regulator's buckets, in tenths of a byte (R434). `ahead` counts the ticks whose refill a request that waited for
C has already taken (log entry 12). -/
structure Bucket where
  g : Int := 0
  c : Int := 0
  ahead : Nat := 0
  deriving DecidableEq, Repr, Inhabited

/-- The memory system (13_memory_system.md). Masks over pseudo-channels are numbers of 384 bits. `badSectors` and
`badWords` are the HBM sectors (address div 32) and store words (address div 8) that hold an uncorrectable error, and
`softSectors` and `softWords` those that hold one that a read corrects. `saving` is the health record being written,
`refillAt` the tick of the span clock of the last refill. `scrambled` is set by the first repair command, after
which HBM holds free values (R447). -/
structure MemSys where
  scrambled : Option Nat := none
  mapped : Nat := 0
  repaired : Tab Nat := []
  next : Nat := 0
  suspect : Nat := 0
  saving : Option Nat := none
  saveRefused : Bool := false
  floorBreach : Bool := false
  pcSel : Nat := 0
  pcs : Tab PcSt := []
  errLog : Reg := 0
  ceThreshold : Nat := 0x100
  period : Nat := 0x40
  repairEn : Bool := false
  repairStack : Nat := 0
  repairInstr : Nat := 0
  repairData : Reg := 0
  refillAt : Option Nat := none
  badSectors : List Nat := []
  badWords : List Nat := []
  softSectors : List Nat := []
  softWords : List Nat := []
  buckets : Tab Bucket := []
  ctr : Tab Reg := []
  deriving DecidableEq, Repr, Inhabited

/-! ## The structure image -/

structure PartRec where
  part : Nat
  flags : Nat
  galMask : Nat
  memPart : Nat
  deriving DecidableEq, Repr, Inhabited
structure MemRec where
  idx : Nat
  base : Nat
  size : Nat
  guar : Nat
  ceil : Nat
  burst : Nat
  deriving DecidableEq, Repr, Inhabited
structure BudRec where
  part : Nat
  comps : Nat
  descs : Nat
  ctxs : Nat
  tags : Nat
  deriving DecidableEq, Repr, Inhabited
structure DevRec where
  mode : Nat := 3
  pos : Nat := 0
  node : Nat := 0
  prio : Nat := 1
  shaftSize : Nat := 1
  ownFeed : Nat := 0xFF
  deriving DecidableEq, Repr, Inhabited
structure NumRec where
  part : Nat := 0
  nan : Nat := 0
  round : Nat := 0
  sat : Nat := 0
  seed : Nat := 0
  deriving DecidableEq, Repr, Inhabited
structure PortRec where
  port : Nat := 0
  role : Nat := 0
  peerPos : Nat := 0
  peerPort : Nat := 0xFF
  points : Nat := 0
  flags : Nat := 0
  deriving DecidableEq, Repr, Inhabited
structure RingRec where
  ring : Nat
  kind : Nat
  part : Nat
  bypassFor : Nat
  size : Nat
  rank : Nat
  tx : Nat
  rx : Nat
  deriving DecidableEq, Repr, Inhabited
structure BellRec where
  off : Nat
  kind : Nat
  part : Nat
  arg0 : Nat
  arg1 : Nat
  deriving DecidableEq, Repr, Inhabited
structure BuddyRec where
  part : Nat
  mode : Nat
  pos : Nat
  feed : Nat
  share : Nat
  flags : Nat
  deriving DecidableEq, Repr, Inhabited
structure CanaryRec where
  part : Nat := 0
  watch : Nat := 0xFFFF
  secure : Nat := 0xFFFF
  evac : Nat := 0xFFFF
  weights : List Nat := [256, 256, 256, 256, 256, 256, 256, 256]
  deriving DecidableEq, Repr, Inhabited
structure ShareRec where
  res : Nat
  part : Nat
  weight : Nat
  deriving DecidableEq, Repr, Inhabited
structure DefGrant where
  part : Nat
  layer : Nat
  body : List Nat
  deriving DecidableEq, Repr, Inhabited

/-- A structure plan: the sections of R40 as read. An absent optional section is `none`, its default is taken where
it is read. `image` is the plan's bytes, empty for the ROM default plan (R60). -/
structure Plan where
  parts : List PartRec := []
  mems : Option (List MemRec) := none
  buds : Option (List BudRec) := none
  dev : DevRec := {}
  nums : List NumRec := []
  ports : Option (List PortRec) := none
  rings : List RingRec := []
  bell : List BellRec := []
  buddies : List BuddyRec := []
  canaries : List CanaryRec := []
  shares : List ShareRec := []
  grants : List DefGrant := []
  serial : Nat := 0
  minor : Nat := 0
  skipped : Bool := false
  image : List Nat := []
  deriving DecidableEq, Repr, Inhabited

/-- Structure loading (R66 to R75). `loadState` is 0 idle, 1 staged, 2 validating, 3 applying; `next` is the plan
being applied, with its source. -/
structure Struct where
  plan : Plan := {}
  staging : List Nat := []
  loadState : Nat := 0
  source : Nat := 0
  minorNewer : Bool := false
  optSkipped : Bool := false
  feedWarn : Bool := false
  rejected : Bool := false
  defaulted : Bool := false
  faultOff : Nat := 0
  faultSec : Nat := 0xFF
  faultCode : Nat := 0
  next : Option Plan := none
  nextSource : Nat := 0
  deriving DecidableEq, Repr, Inhabited

/-! ## Partitions -/

/-- The plan-change states of R69. -/
inductive PState where
  | undefined | running | quiescing | quiesced | applying
  deriving DecidableEq, Repr, Inhabited

/-- An area in HBM placed by a register: DEV_GRANT_AREA, DEV_RATIO_AREA, DEV_ROSTER_AREA. -/
structure Area where
  enable : Bool := false
  base : Nat := 0
  layersM1 : Nat := 0
  deriving DecidableEq, Repr, Inhabited

/-- The books of a partition as a mark snapshots them (R127): the 64-bit shift it opens, the failing code if the books
fail, whether the audit is still to finish, and whether the mark tick is not over yet, so that the snapshot is still
to be taken. -/
structure Audit where
  pending : Bool := false
  taking : Bool := false
  shift : Nat := 0
  code : Nat := 0
  deriving DecidableEq, Repr, Inhabited

/-- The last evaluation of a canary (R456): its bell tick, what stood before it, and the inputs of the interval that
its tick closes. `more` says that an event of that tick has been posted since, `told` that the tick is over, and a
change of state has been told. -/
structure CanaryEval where
  tick : Nat := 0
  score : Nat := 0
  state : Nat := 0
  armed : Bool := false
  armedAt : Option Nat := none
  armShift : Nat := 0
  acc : List Nat := []
  more : Bool := false
  told : Bool := false
  deriving DecidableEq, Repr, Inhabited

/-- The canary of a partition (R454 to R468). `acc` holds what was posted since the last evaluation: the largest
ratio jump, numeric faults, corrected sectors, newly suspect channels, uncorrectable errors, codewords, replays,
power events and audit failures. `state` is 0 CLEAR, 1 WATCH, 2 SECURE, 3 EVACUATE; `armedAt` is the tick at which
`armed` last changed. -/
structure Canary where
  score : Nat := 0
  raw : Nat := 0
  state : Nat := 0
  armed : Bool := false
  armedAt : Option Nat := none
  armShift : Nat := 0
  levels : List Nat := [0, 0, 0, 0, 0, 0, 0, 0]
  acc : List Nat := [0, 0, 0, 0, 0, 0, 0, 0, 0]
  eval : Option CanaryEval := none
  deriving DecidableEq, Repr, Inhabited

/-- The secure point of a partition (R467). -/
structure Secure where
  point : Nat := 0
  valid : Bool := false
  pend : Option Nat := none
  pendCount : Nat := 0
  pendSet : Nat := 0
  deriving DecidableEq, Repr, Inhabited

/-- What a partition holds beyond its plan. `tagIssued` and `tagAcked` are the books of remote tag signals (R126);
`marks` counts the shift marks that have fired; `markShift` is the 64-bit shift the last of them opened. -/
structure Part where
  st : PState := .undefined
  qctxTable : Nat := 0
  grantArea : Area := {}
  ratioArea : Area := {}
  rosterArea : Area := {}
  resetting : Bool := false
  resetSeen : Bool := false
  audit : Audit := {}
  marked : Bool := false
  markShift : Nat := 0
  tagIssued : Nat := 0
  tagAcked : Nat := 0
  canary : Canary := {}
  secure : Secure := {}
  dropped : Nat := 0
  dropGate : Bool := false
  lastMarked : Nat := 0
  secureOpen : Bool := false
  secureUntil : Nat := 0
  deriving DecidableEq, Repr, Inhabited

/-! ## Queue contexts and commands -/

/-- The context states of R86. -/
inductive CState where
  | idle | active | stopping | stopped | faulted
  deriving DecidableEq, Repr, Inhabited

/-- A BOUNDS waiting for its command (R108): not-before and deadline offsets, on_miss; `missed` once the command has
missed its deadline without having issued (R110). -/
structure Bound where
  notBefore : Option Nat := none
  deadline : Option Nat := none
  abort : Bool := false
  missed : Bool := false
  deriving DecidableEq, Repr, Inhabited

/-- A command read from a ring or a subroutine: its 16 bytes as a number, the place it came from, and the code of an
uncorrectable error in its bytes, 0 for none (R441). `age` orders the fetches of the device (R94). -/
structure Fetched where
  cmd : Nat
  pos : Nat
  bad : Nat := 0
  age : Nat := 0
  deriving DecidableEq, Repr, Inhabited

/-- A tally record (R119) without its phase bit. -/
structure Rec where
  seq : Nat
  stamp : Nat
  opcode : Nat
  status : Nat
  shift : Nat
  wm : Nat
  code : Nat
  sub : Nat
  unit : Nat
  deriving DecidableEq, Repr, Inhabited

/-- A context's running secure set (R466). -/
structure SecSet where
  copies : Nat := 0
  bytes : Nat := 0
  crc : Nat := 0
  complete : Bool := true
  forced : Bool := false
  deriving DecidableEq, Repr, Inhabited

/-- A queue context (R79 to R88, R101, R103, R106). `buf` holds fetched ring commands not yet issued, `head` counts
the fetched ones, `skip` the ring commands still to be consumed without executing. In a subroutine `calls` is not
empty: `pc` is the next address to fetch, `subBuf` what has been fetched, `calls` the return points (none for the
ring, innermost first), `subSeq` the ring position of the outermost call and `subCount` the commands executed since.
`faultSeq` is the ring position of the earliest faulted command, `owed` the fault records that wait for tally
room (R85). -/
structure Ctx where
  st : CState := .idle
  face : Nat := 0
  prio : Nat := 0
  ringBase : Nat := 0
  ringLog2 : Nat := 0
  tallyBase : Nat := 0
  tallyLog2 : Nat := 0
  wb : Nat := 0
  tail : Nat := 0
  head : Nat := 0
  buf : List Fetched := []
  skip : Nat := 0
  calls : List (Option Nat) := []
  pc : Nat := 0
  subBuf : List Fetched := []
  subSeq : Nat := 0
  subCount : Nat := 0
  shift : W32 := 0
  bound : Option Bound := none
  satFlag : Bool := false
  lateFlag : Bool := false
  grantFlag : Bool := false
  satCount : Nat := 0
  lastFault : Nat := 0
  faultSeq : Option Nat := none
  produced : Nat := 0
  consumed : Nat := 0
  owed : List Rec := []
  secSet : SecSet := {}
  deriving DecidableEq, Repr, Inhabited

/-- Where an issued command stands. `wait`: issued, to be run by its sequencer row. `queued`: in its class's
dispatch queue. `running`: on a unit of its class. `sent`: run, its remote part open. `done`: every write made. -/
inductive Phase where
  | wait | queued | running (u : Nat) | sent | done
  deriving DecidableEq, Repr, Inhabited

/-- One half of a split tile when it has ended (R185): its watermark, its fault code or 0, its saturations. -/
structure Half where
  wm : Nat
  code : Nat
  sat : Nat
  deriving DecidableEq, Repr, Inhabited

/-- What an open collective command has sent and received (12_collectives_and_parallelism.md). `n`, `rank` and `lr`
are those of the ring it runs on: its size, this member's rank, and on a bypass ring the primary rank that is left
out. `got` counts the elements received, by 2 × offset + pass, `vec` is AMAX_ROUND's vector or the member's own
values, `fin` the results known (offset and values), `rx` what a recovery root has received by rank, `closes` the
close counts that wait for completion. ROUTE keeps `started`, `vec`, `heldClose` and `sentBlock` for its own use, and
in `undo` each byte that it has written on this device: address, old and new (R124). -/
structure Coll where
  ringSeq : Nat := 0
  started : Bool := false
  bypass : Bool := false
  n : Nat := 0
  rank : Nat := 0
  lr : Option Nat := none
  got : Tab Nat := []
  vec : List Nat := []
  fin : List (Nat × List Nat) := []
  rx : List (Nat × Nat × List Nat) := []
  complete : Bool := false
  heldClose : Option Nat := none
  closes : List Nat := []
  ready : Bool := false
  sentBlock : Bool := false
  gotLast : Bool := false
  lastIo : Nat := 0
  undo : List (Nat × Nat × Nat) := []
  deriving DecidableEq, Repr, Inhabited

/-- An issued command that has not retired (R91, R92). `cap` holds what was read at issue, `contribute` the value in
force under R475, `recs` the tally records it may still write (R90), `fault` the code and watermark of a fault that
waits for the remote writes below it (R372), `rosters` the rosters read at issue by ring (R149, R396), `cycle` the
array cycle of issue that it issued in. -/
structure Flight where
  id : Nat := 0
  q : Nat := 0
  part : Nat := 0
  face : Nat := 0
  cmd : Nat := 0
  seq : Nat := 0
  sub : Nat := 0
  shift : W32 := 0
  cls : Cls := .seq
  phase : Phase := .wait
  deadline : Option Nat := none
  abort : Bool := false
  comp : Bool := false
  late : Bool := false
  status : Nat := 0
  wm : Nat := 0
  sat : Nat := 0
  stamp : Option Nat := none
  cap : List Nat := []
  unit : Nat := 0
  halves : List Half := []
  recs : Nat := 1
  fault : Option (Nat × Nat) := none
  rosters : List (Nat × List Nat) := []
  contribute : Bool := false
  cycle : Nat := 0
  coll : Coll := {}
  deriving DecidableEq, Repr, Inhabited

/-! ## Descriptors -/

/-- A descriptor image (R134). -/
structure DescImg where
  version : Nat := 0
  kind : Nat := 0
  fmt : Nat := 0
  use : Nat := 0
  rank : Nat := 0
  fill_drop : Bool := false
  mx : Bool := false
  seqDim : Nat := 0xFF
  zp : Nat := 0
  viewDim : Nat := 0
  viewArg : Nat := 0
  base : Nat := 0
  allocBase : Nat := 0
  allocLen : Nat := 0
  fill : Nat := 0
  ext : List Nat := []
  str : List Int := []
  deriving DecidableEq, Repr, Inhabited

inductive DescSt where
  | free | held | created | dropping
  deriving DecidableEq, Repr, Inhabited

/-- A descriptor table entry (R144 to R147). -/
structure Desc where
  st : DescSt := .free
  img : DescImg := {}
  deriving DecidableEq, Repr, Inhabited

/-! ## Faces and galleries -/

/-- The power states of a stope array (R181). -/
inductive ArrPw where
  | off | ramping | on | winding
  deriving DecidableEq, Repr, Inhabited

/-- A stope array: its power state, the row groups up, the array cycle (in tenths) at which it last became idle, and
the spans in which its last tile still drains, counted from the start of the stream of the tile behind it (R180,
R558). -/
structure Arr where
  pw : ArrPw := .off
  groups : Nat := 0
  idleAt : Nat := 0
  tail : List (Nat × Nat) := []
  deriving DecidableEq, Repr, Inhabited

inductive SlotSt where
  | free | registering | registered | releasing
  deriving DecidableEq, Repr, Inhabited

/-- A mask slot (R239, R240). -/
structure MaskSlot where
  st : SlotSt := .free
  kW : Nat := 0
  nW : Nat := 0
  pattern : Nat := 0
  rows : DescImg := {}
  cols : DescImg := {}
  deriving DecidableEq, Repr, Inhabited

/-- A statistics entry (R333). -/
structure Stat where
  s0 : Nat := 0
  s1 : Nat := 0
  s2 : Nat := 0
  shift : Nat := 0
  kind : Nat := 0
  deriving DecidableEq, Repr, Inhabited

/-- A face. `slots` are the contexts in fetch slots, `waiting` those that wait for one in doorbell order, `taken` the
context last fetched in each priority (R89). `cycle` is the array cycle of issue in which the face last tried to
issue, and `issued` how many commands it has issued in it (R90). `tail` is for the riffle engine what an array's is.
`ctr` holds the counter registers by FACE_ offset. -/
structure Face where
  slots : List Nat := []
  waiting : List Nat := []
  taken : List Nat := [0, 0, 0, 0]
  arrs : List Arr := [{}, {}, {}, {}]
  keepWarm : Nat := 0
  masks : Tab MaskSlot := []
  stats : Tab Stat := []
  sk20 : Reg := 1
  cycle : Nat := 0
  issued : Nat := 0
  tail : List (Nat × Nat) := []
  ctr : Tab Reg := []
  resetting : Bool := false
  deriving DecidableEq, Repr, Inhabited

/-- A gallery: its counter registers by GAL_ offset. -/
structure Gal where
  ctr : Tab Reg := []
  resetting : Bool := false
  deriving DecidableEq, Repr, Inhabited

/-! ## Fabric -/

/-- The link states of R358. -/
inductive Link where
  | dark | seek | train | negotiate | up | down | faulted
  deriving DecidableEq, Repr, Inhabited

/-- A flit of this device (R363). `own` names the transaction of this device that it belongs to, `row` the layer and
shift that a token row carries (R311), `coll` the ring (8 × partition + ring) and the command of a collective flit, and
`ord` its place in its port's queue. -/
structure Flit where
  type : Nat
  vc : Nat
  dst : Nat
  part : Nat
  txn : Nat
  addr : Nat
  data : List Nat
  own : Option Nat := none
  far : Bool := false
  row : Option (Nat × Nat) := none
  coll : Option (Nat × Nat) := none
  ord : Nat := 0
  deriving DecidableEq, Repr, Inhabited

/-- A flit in a replay buffer (R364): its link sequence number, the flit of this device or the transit flit that it
is, and the credits that it returns. -/
structure Sent where
  seq : Nat
  flit : Option Flit := none
  transit : Option TransitFlit := none
  credits : List Nat := []
  deriving DecidableEq, Repr, Inhabited

/-- The transaction of this device that a sent flit belongs to. -/
def Sent.own (x : Sent) : Option Nat := x.flit.bind (·.own)

/-- A transit flit that waits at its egress port for a credit: since which tick of the span clock, the port that it
came in by, its place in the queue. -/
structure Waiting where
  fl : TransitFlit
  since : Nat
  from_ : Nat
  ord : Nat
  deriving DecidableEq, Repr, Inhabited

/-- A flit as it leaves by a port (R363). -/
structure Wire where
  type : Nat
  vc : Nat
  far : Bool
  hops : Nat
  dst : Nat
  src : Nat
  part : Nat
  txn : Nat
  addr : Nat
  data : List Nat
  row : Option (Nat × Nat)
  seq : Nat
  ack : Nat
  credits : List Nat
  deriving DecidableEq, Repr, Inhabited

/-- A fabric port (R353 to R379, R392). Its times are ticks of the span clock. `since` is that of the last state
change, `leftSeek` of leaving SEEK; `trained` is the mask of pairs that have trained; `avail` and `infl` are the
credit books per channel (R126); `txSeq` numbers sent flits, `replay` is the replay buffer; `hbAt` is the tick of the
last heartbeat; `txHb` is the departure of the last heartbeat sent and `rxHb` the departure and arrival of the last
received, in sixteenths; `peerEpoch` is the epoch_low of the last training record; `moveAt` is the tick of a planned
move under way; `idleOnly` says only idle flits are sent; `held` are this device's flits and `transit` the transit
flits that wait here for a credit, `queued` numbers both in the order they were queued. `rxSeq` is the link sequence
number of the last flit received in order (log entry 112), `told` the one last sent as link_ack, `owed` the credits
that the port has to return, by channel (R366). `slots` counts flit slots not used by channel 0, modulo 64, `share`
the slots that each partition's SECURE copies have taken of the present 64, and `served` the flits sent by 16 ×
channel + partition since its channel was last not contended (R368). -/
structure Port where
  role : Nat := 0
  st : Link := .dark
  pair : Nat := 0
  version : Nat := 0
  peerPort : Nat := 0xFF
  peerPos : Nat := 0
  peerValid : Bool := false
  peerEpoch : Nat := 0
  bypassFor : Nat := 0
  bypass : Bool := false
  lastFault : Nat := 0
  since : Nat := 0
  leftSeek : Nat := 0
  trained : Nat := 0
  avail : List Nat := [0, 0, 0, 0]
  infl : List Nat := [0, 0, 0, 0]
  txSeq : Nat := 0
  replay : List Sent := []
  hbAt : Nat := 0
  txHb : Nat := 0
  rxHb : Nat × Nat := (0, 0)
  delay : Reg := 0
  moveAt : Option Nat := none
  idleOnly : Bool := false
  held : List Flit := []
  transit : List Waiting := []
  queued : Nat := 0
  rxSeq : Nat := 0xFFFF
  told : Nat := 0xFFFF
  owed : List Nat := [0, 0, 0, 0]
  slots : Nat := 0
  share : Tab Nat := []
  served : Tab Nat := []
  ctr : Tab Reg := []
  deriving DecidableEq, Repr, Inhabited

/-- A route entry (R369). -/
structure Route where
  valid : Bool := false
  alternate : Nat := 0x3F
  primary : Nat := 0x3F
  deriving DecidableEq, Repr, Inhabited

/-- The fabric's device-wide state. `lost` is FAB_LOST as a number of 256 bits, `tLoss` the earliest T_loss heard
per lost position, `bounded` the lost positions whose boundary has come (R379). -/
structure Fab where
  routes : Tab Route := []
  lost : Nat := 0
  lossLastPos : Nat := 0
  lossLastAt : Nat := 0
  tLoss : Tab Nat := []
  bounded : Nat := 0
  discards : Reg := 0
  deriving DecidableEq, Repr, Inhabited

inductive TxnKind where
  | write | read | tag | row | pad | secure | coll
  deriving DecidableEq, Repr, Inhabited

/-- How a transaction stands (R372). -/
inductive TxnSt where
  | opened | accepted | refused | uncorrectable | unreachable | lost
  deriving DecidableEq, Repr, Inhabited

/-- A transaction this device originated (R371 to R373): the command that waits on it, the unit that needs it, the
ports its flits left by (a mask), what it carried. `part` is the partition that the flits name, `src` the one whose
command opened it and `shift` that command's shift number; `orphan` says that a reset has abandoned the command while
the signal or row was on its way (R126, R317). `book` is the layer and shift of a token row. -/
structure Txn where
  id : Nat := 0
  kind : TxnKind := .write
  st : TxnSt := .opened
  dst : Nat := 0
  part : Nat := 0
  ports : Nat := 0
  owner : Nat := 0
  unit : Nat := 0
  addr : Nat := 0
  len : Nat := 0
  data : List Nat := []
  sentAt : Nat := 0
  src : Nat := 0
  shift : W32 := 0
  orphan : Bool := false
  book : Option (Nat × Nat) := none
  deriving DecidableEq, Repr, Inhabited

/-- A collective flit to be sent: by one of the ring's ports, or by FAB_ROUTE where `ports` is none (R394, R417).
`back` says that it goes upstream, by a port that the ring's flits come in by. -/
structure CollOut where
  stage : Nat
  last : Bool := false
  ports : Option (List Nat) := none
  dst : Nat
  txn : Nat
  off : Nat := 0
  data : List Nat := []
  owner : Nat
  back : Bool := false
  deriving DecidableEq, Repr, Inhabited

/-- A primary ring of a partition (R397, R414 to R416). `lost` is the roster position that broke it; it is on its
bypass ring from the boundary on; `resolving` while the resolve flit is awaited, `qB` the Q of R415; `dead` the code
that open and later commands fault with; `sent` counts the flits sent downstream and `sentBack` those sent upstream,
for the port order of R394, and `txq` holds the flits that wait for a port that is UP. -/
structure Ring where
  nextSeq : Nat := 0
  lost : Option Nat := none
  onBypass : Bool := false
  resolving : Bool := false
  qB : Nat := 0
  dead : Nat := 0
  sent : Nat := 0
  sentBack : Nat := 0
  txq : List CollOut := []
  deriving DecidableEq, Repr, Inhabited

/-- A collective flit that waits for the command it belongs to (R398), oldest first in `Blk.collIn`: in a channel-1
buffer of port `n`, or, where `n` names no port, in no buffer any more. `src` is the position at the far end of the
port. -/
inductive CollIn where
  | data (n : Nat) (fl : CollFlit)
  | close (n part ring seq count : Nat)
  | ready (n src part ring seq step : Nat)
  | resolve (n part ring pass qmin : Nat)
  deriving DecidableEq, Repr, Inhabited

/-! ## Routing -/

inductive GrantStage where
  | none | accepted | decided | refusedByTest
  deriving DecidableEq, Repr, Inhabited

/-- What has become of a layer's grant for one shift (R302 to R305): how far it has come, whether it is a default,
whether its deadline test has been made, its arrival stamp and its body. -/
structure GrantLog where
  shift : Nat := 0
  stage : GrantStage := .none
  defaulted : Bool := false
  tested : Bool := false
  stamp : Nat := 0
  body : List Nat := []
  deriving DecidableEq, Repr, Inhabited

/-- A layer's grants for one shift parity (R301 to R305): what has become of them, newest first, and the shift whose
grant the area's half holds (`inArea`). -/
structure Grant where
  inArea : Option Nat := none
  log : List GrantLog := []
  deriving DecidableEq, Repr, Inhabited

/-- Whether a book record (R317) is open and for which shift, and whether its closed book is still to be reported
(R318). -/
structure BookMeta where
  isOpen : Bool := false
  shift : Nat := 0
  toReport : Bool := false
  deriving DecidableEq, Repr, Inhabited

/-! ## Host attachment -/

/-- A reply as kept in the reply store (R484): type, status, body. -/
structure Reply where
  type : Nat
  status : Nat
  body : List Nat
  deriving DecidableEq, Repr, Inhabited

/-- A message received in part (R482). -/
structure Frag where
  seq : Nat
  first : Nat
  count : Nat
  have_ : List Nat
  deriving DecidableEq, Repr, Inhabited

/-- An event record (R501): kind, partition, code, shift, stamp and payload bytes. -/
structure Event where
  kind : Nat
  part : Nat
  code : Nat
  shift : Nat
  stamp : Nat
  payload : List Nat
  deriving DecidableEq, Repr, Inhabited

/-- A device-initiated message that is kept until acknowledged (R501). -/
inductive DevMsg where
  | census (bytes : List Nat)
  | event (e : Event)
  deriving DecidableEq, Repr, Inhabited

/-- A kept message (R501): its sequence number, the lease tick at which it last went, the message. -/
structure Unacked where
  seq : Nat
  sentAt : Nat
  msg : DevMsg
  deriving DecidableEq, Repr, Inhabited

/-- An Adit session (R491 to R502). `mode` is 0 observer, 1 control, 2 custody; `nextSeq` is the next expected
sequence number, `held` the requests that wait for it, `ahead` those beyond it that acted on arrival (R485); `teleAt`
is the lease tick of the last telemetry message or setting; `port`, `addr` and `udp` are where its most recent request
came from (R490). -/
structure Session where
  id : Nat
  mode : Nat := 0
  leaseLog2 : Nat := 24
  expiry : Nat := 0
  spdm : Option Nat := none
  nextSeq : Nat := 0
  replies : List (Nat × Reply) := []
  held : List (Hdr × Req) := []
  ahead : List Nat := []
  frags : List Frag := []
  evSeq : Nat := 0
  unacked : List Unacked := []
  overflow : Nat := 0
  telePeriod : Nat := 0
  teleAddrs : List Nat := []
  teleAt : Nat := 0
  port : Nat := 0
  addr : Nat := 0
  udp : Nat := 0
  deriving DecidableEq, Repr, Inhabited

/-- An SPDM session (R497). `leaf` is the digest of the host's leaf certificate. -/
structure SpdmSession where
  id : Nat
  established : Bool := false
  leaf : Nat := 0
  period : Nat := 0
  heard : Nat := 0
  deriving DecidableEq, Repr, Inhabited

/-- The owner states of R493. -/
inductive Owner where
  | unowned | owned | orphaned | custody
  deriving DecidableEq, Repr, Inhabited

/-- A RoCEv2 window (R503 to R505). Its read-response rate is `rate` div 2^`rateLog` of the port
rate; `psn` is the next packet sequence number expected. -/
structure Window where
  isOpen : Bool := false
  part : Nat := 0
  access : Nat := 0
  base : Nat := 0
  length : Nat := 0
  gid : Nat := 0
  destQpn : Nat := 0
  qpn : Nat := 0
  rkey : Nat := 0
  psn : Nat := 0
  error : Bool := false
  rate : Nat := 1
  rateLog : Nat := 0
  deriving DecidableEq, Repr, Inhabited

/-- A RoCEv2 packet that the device sends (R504): its window, kind (0 acknowledgement, 1 read response, 2 NAK of invalid
request, 3 NAK of remote access error, 4 CNP, 5 NAK of a sequence error, 6 NAK of an operational error), sequence number
and data. -/
structure RocePkt where
  window : Nat
  kind : Nat
  psn : Nat
  data : List Nat
  deriving DecidableEq, Repr, Inhabited

/-- A host port (R478, R479, R490, R507). `settings` is the 80-byte body of ADDR_SET in force; `roceq` are the
RoCEv2 packets that wait while priority flow control pauses them; `mac` is its MAC address. -/
structure HostPort where
  mac : Nat := 0
  vlan : Nat := 0
  pfcPriority : Nat := 0xFF
  settings : List Nat := []
  linkUp : Bool := false
  fecLocked : Bool := false
  paused : Bool := false
  roceq : List RocePkt := []
  ctr : Tab Reg := []
  deriving DecidableEq, Repr, Inhabited

/-- The host attachment. `lastId` and `lastSpdm` are the last session ids given (R492, R497); `frags` are the messages
received in part outside a session; `reservedUntil` ends the claimant's reservation of R495, counted from READY;
`restoredAt` is the bell tick of the last rate restoration (R504); `closing` are the WINDOW_CLOSE requests that await
the end of their window's operations (R505). -/
structure HostSt where
  closing : List (Nat × Hdr) := []
  owner : Owner := .unowned
  sessions : List Session := []
  spdm : List SpdmSession := []
  lastId : Nat := 0
  ports : Tab HostPort := []
  windows : Tab Window := []
  lastSpdm : Nat := 0
  frags : List Frag := []
  reservedUntil : Option Nat := none
  restoredAt : Option Nat := none
  ctr : Tab Reg := []
  deriving DecidableEq, Repr, Inhabited

/-! ## Boot, flash, power -/

/-- The boot states of R508. -/
inductive BootState where
  | off | rom | identity | hfVerify | recovery | hfStart | limited | plan | ready | halted
  deriving DecidableEq, Repr, Inhabited

/-- A flash operation that runs (R523): its number, the code it will end with, what it writes. -/
structure FlashJob where
  op : Nat
  code : Nat
  data : List Nat
  deriving DecidableEq, Repr, Inhabited

/-- The alias certificate (R526): headframe version, security_version, running core pair, the alias public key, and the
DevID public key whose private key signed it. -/
structure AliasCert where
  version : Nat := 0
  sec : Nat := 0
  corePair : Nat := 0
  key : List Nat := []
  signer : List Nat := []
  deriving DecidableEq, Repr, Inhabited

/-- HFC boot registers (R530) and identity (R525, R526). `cold` says that the reset under way was a cold one;
`hfImage` and `fabImage` are the firmware images that run, empty for none. `devidSeed` and `devidKey` are held from
IDENTITY until they are erased; `cdi`, the alias key pair and `flashKey` are what the headframe firmware has. -/
structure Boot where
  st : BootState := .off
  cold : Bool := true
  corePair : Nat := 0
  hfSlot : Nat := 0
  fabSlot : Nat := 0
  code : Nat := 0
  faultHfIf : Nat := 0
  faultFabIf : Nat := 0
  hfImage : List Nat := []
  fabImage : List Nat := []
  flashAddr : Reg := 0
  flashLen : Reg := 0
  flashJob : Option FlashJob := none
  flashCode : Nat := 0
  devidSeed : List Nat := []
  devidKey : Option Nat := none
  devidPub : List Nat := []
  flashKey : List Nat := []
  cdi : List Nat := []
  aliasKey : Option Nat := none
  aliasCert : AliasCert := {}
  pufLocked : Bool := false
  deriving DecidableEq, Repr, Inhabited

/-- The firmware slot states of R519. -/
inductive FwSt where
  | inactive | trialPending | trialRunning | active | rejected
  deriving DecidableEq, Repr, Inhabited

/-- One copy of a flash record (R521): its sequence number, what it records, and whether its CRC-32C fits. The layout of
a copy is not given, so the check is held as its outcome (log entry 148). -/
structure Copy (α : Type) where
  seq : Nat
  body : α
  valid : Bool
  deriving DecidableEq, Repr, Inhabited

/-- A flash record: two copies (R521). -/
structure Twin (α : Type) where
  a : Copy α
  b : Copy α
  deriving DecidableEq, Repr, Inhabited
/-- A record as manufacture leaves it. -/
def Twin.of {α : Type} (v : α) : Twin α := ⟨⟨0, v, true⟩, ⟨0, v, false⟩⟩

/-- A firmware slot: the record of its state and the image in it. -/
structure FwSlot where
  state : Twin FwSt := .of .inactive
  image : List Nat := []
  deriving DecidableEq, Repr, Inhabited

/-- The memory health record (R444, R446): the pseudo-channels to remove, and the repaired lane of each. -/
structure Health where
  remove : Nat := 0
  lanes : Tab Nat := []
  deriving DecidableEq, Repr, Inhabited

/-- The on-package flash (R522). Firmware slots: 0 headframe A, 1 headframe B, 2 fabric A, 3 fabric B. Plan slots 0 A
and 1 B. Slot states, plan selection, port settings, trust anchors, rollback counters, health record and reservation
are records of R521. `tripCode` is the code a trip left (R548). Of the identity region `macs` are the MAC addresses of
the host ports, `serial` the serial number, `helper` the PUF helper data of each photonic die, and `devid` the public
keys in the DevID certificates of the photonic dies, none for the key that was certified at manufacture; `rpKey` is
the key that authenticates the replay-protected region, none for the module's own (log entry 114). `log` is the event
and boot log, of which the spec says no more than its place (log entry 149). -/
structure Flash where
  fw : Tab FwSlot := []
  planA : List Nat := []
  planB : List Nat := []
  selected : Twin (Option Nat) := .of none
  trusted : Twin (List Nat) := .of []
  portSettings : Tab (Twin (List Nat)) := []
  hfCounter : Twin Nat := .of 0
  fabCounter : Twin Nat := .of 0
  reserved : Twin (Option Nat) := .of none
  healthRec : Twin Health := .of {}
  tripCode : Nat := 0
  macs : List Nat := [0, 0]
  serial : Nat := 0
  helper : List (List Nat) := [[], []]
  devid : List (Option (List Nat)) := [none, none]
  rpKey : Option (List Nat) := none
  log : List Nat := []
  deriving DecidableEq, Repr, Inhabited

/-- The thermal levels of R547. -/
inductive Therm where
  | normal | warn | critical
  deriving DecidableEq, Repr, Inhabited

/-- Pins and power (17_module_and_power.md). `tripped` is the code that turned the module off, 0 for none; `postTrip`
says that `lastTrip` is still to be posted at READY (R548). `gated` counts 160ths of an array cycle, `energy` units of
0.01 mJ; `sampledAt` is the lease tick of the governor's last comparison. `away` counts the ticks of 4 ns without VIN
and `low` those with RESET_N low: they count without the reference clock too, and through a reset (R548). -/
structure Pwr where
  vin : Bool := true
  pwrGood : Bool := true
  resetN : Bool := false
  brakeN : Bool := true
  refclk : Bool := true
  smbAlert : Bool := false
  straps : Nat := 0
  latched : Bool := true
  lastTrip : Nat := 0
  tripped : Nat := 0
  duty : Nat := 16
  therm : Therm := .normal
  postTrip : Bool := false
  inletHigh : Bool := false
  undervolt : Bool := false
  mode : Nat := 3
  vinMv : Nat := 0
  iin10ma : Nat := 0
  pinW : Nat := 0
  temps : Temps := ⟨0, 0, 0, 0, 0, 0, 0, 0⟩
  gated : Nat := 0
  energy : Nat := 0
  sampledAt : Option Nat := none
  away : Nat := 0
  low : Nat := 0
  deriving DecidableEq, Repr

/-! ## What leaves the device -/

/-- Where a host-port packet goes: the port, the IP address (an IPv4 address as its IPv4-mapped one) and the UDP port.
-/
structure HostTo where
  port : Nat
  addr : Nat
  udp : Nat
  deriving DecidableEq, Repr, Inhabited

/-- A message that has left the device, oldest first in `State.out`: the model's own record of what the spec says is
sent. A reply or a message goes in one datagram for each fragment (its index and the number of them) with that
fragment's bytes; an SPDM response, whose bytes the spec does not give, names all it holds in each. `ptp` is a delay
request, the one message that a slave-only clock sends (R383). -/
inductive Out where
  | flit (port : Nat) (f : Wire)
  | forward (port : Nat) (fl : TransitFlit) (seq ack : Nat) (credits : List Nat)
  | replayAsk (port seq : Nat)
  | reply (dest : HostTo) (spdm : Option Nat) (type session seq status : Nat) (frag : Nat × Nat) (body : List Nat)
  | message (dest : HostTo) (session seq : Nat) (again : Bool) (frag : Nat × Nat) (m : DevMsg)
  | telemetry (dest : HostTo) (session stamp : Nat) (values : List Nat)
  | spdm (dest : HostTo) (secured : Option Nat) (code : Nat) (frag : Nat × Nat) (body sig : List Nat)
  | ptp (port : Nat)
  | smbus (value : Reg)
  | smbusNack
  | roce (port : Nat) (p : RocePkt)
  | pfc (port prio : Nat) (pause : Bool)
  | neighbor (port : Nat) (k : NeighborKind)
  deriving DecidableEq, Repr, Inhabited

/-- A reset under way (R130): scope 1 face, 2 gallery, 3 partition, and its index. -/
structure ResetSt where
  scope : Nat
  index : Nat
  deriving DecidableEq, Repr, Inhabited

/-- Device global registers that belong to no other record. `ctr` holds the DEV_ counters by offset. `w1c` holds, by
the address of a W1C register, the bits that the device has set at lease tick `w1cAt` (R7); `nextFetch` numbers the
commands fetched; `fired` are the template events that have acted at bell tick `firedAt` (R53), by their place in the
plan. `cycle` numbers the array cycles in which commands were tried for issue, and `cycleAt` is the array clock at
which the last of them began (R90, R147, R241). `resetNaks` counts the flits refused because a unit was under reset
(R131, log entry 111). -/
structure Dev where
  quiesce : Nat := 0
  qctxSel : Nat := 0
  tagSel : Nat := 0
  canarySel : Nat := 0
  reset : Option ResetSt := none
  auditFailed : Nat := 0
  auditCode : Nat := 0
  auditPart : Nat := 0
  auditReset : Bool := false
  auditShift : Nat := 0
  resolveLost : Nat := 0
  resolvePart : Nat := 0
  resolveRing : Nat := 0
  resolveQ : Nat := 0
  nextFlight : Nat := 0
  nextTxn : Nat := 0
  nextFetch : Nat := 0
  w1cAt : Nat := 0
  w1c : Tab Nat := []
  firedAt : Nat := 0
  fired : List Nat := []
  cycle : Nat := 0
  cycleAt : Nat := 0
  resetNaks : Nat := 0
  ctr : Tab Reg := []
  deriving DecidableEq, Repr, Inhabited

/-- All of the part but the memory and the queue of commands. Tables by key: `parts` by partition, `ctxs` by context,
`tags` by tag, `descs` by 4096 × partition + index, `faces`, `gals`, `ports` by number, `rings` by 8 × partition +
ring, `grants` by 2 × (256 × partition + layer) + shift parity, `books` by 4 × (256 × partition + layer) + shift
mod 4. -/
structure Blk where
  clk : Clock := {}
  bell : Bell := {}
  ms : MemSys := {}
  struct : Struct := {}
  dev : Dev := {}
  parts : Tab Part := []
  ctxs : Tab Ctx := []
  tags : Tab W32 := []
  descs : Tab Desc := []
  flights : List Flight := []
  faces : Tab Face := []
  gals : Tab Gal := []
  ports : Tab Port := []
  fab : Fab := {}
  txns : List Txn := []
  rings : Tab Ring := []
  collIn : List CollIn := []
  grants : Tab Grant := []
  books : Tab BookMeta := []
  host : HostSt := {}
  boot : Boot := {}
  flash : Flash := {}
  pwr : Pwr := {}
  out : List Out := []
  deriving DecidableEq, Repr

/-- The state of the part. `pending` is the queue of commands that wait, first in, first out. -/
structure State extends Blk where
  pending : List Instr := []
  mem : Mem := []
  deriving DecidableEq, Repr

/-- One act on memory: a byte written, or a range of addresses (upper end excluded) that loses its contents. -/
inductive MemAct where
  | byte (a : Nat) (b : Byte)
  | clear (lo hi : Nat)
  deriving DecidableEq, Repr

/-- The working state of a command: the part, the memory as the command found it, and the command's own acts on
memory so far, newest first. `State.settle` makes the next state of it. -/
structure Work extends Blk where
  mem : Mem := []
  wr : List MemAct := []
  deriving DecidableEq, Repr

/-- Why a command stops. -/
inductive Fault where
  /-- Raised by a meaning whose operand names a unit that the spec says the part does not have (a face above 191, a
  gallery above 15, a port above 35, a partition above 15, a queue context above 65,535: R19, R22, R23). Safe: no
  sender of the part can send such a command, and the state is left as it is. -/
  | noSuchUnit
  deriving DecidableEq, Repr

/-- Why a command is rejected. -/
inductive Refusal where
  /-- Raised by an arm of the dispatch whose command has no meaning yet. Safe: nothing is claimed of it. -/
  | notModelled (mnemonic : String)
  deriving DecidableEq, Repr

/-- The part right after reset, held in reset with its supply good: every register at the value its table gives, no
plan applied, no session, memory and flash with nothing listed, the boot state OFF (R508), the queue empty. Values
the spec does not give are named in log entries 1, 2 and 7. -/
def State.reset : State := {}

end Sys2Proof.Machine
end

