-- ==== Sys2Proof/Machine/Ops.lean ====
section
/-! DEFINITION. The named operations over memory, tables and registers that every meaning is built from. -/

namespace Sys2Proof.Machine

/-! ## Memory -/

/-- What a byte of device memory that is not listed reads as: 0 (face and gallery stores by R129, HBM by log entry
2), and in HBM a free value once a repair command has been given (R447). -/
def Mem.dflt (k : Option Nat) (a : Nat) : Byte :=
  match k with
  | none => 0
  | some n => if a < Config.hbmEnd then Config.freeByte n a else 0

/-- The byte at an address. -/
def Mem.read (d : Nat → Byte) : Mem → Nat → Byte
  | [], a => d a
  | (k, v) :: m, a => if k = a then v else Mem.read d m a

/-- Insert or replace a listed byte, keeping the addresses rising. -/
def Mem.ins : Mem → Nat → Byte → Mem
  | [], a, b => [(a, b)]
  | (k, v) :: m, a, b =>
    if a < k then (a, b) :: (k, v) :: m else if k = a then (a, b) :: m else (k, v) :: Mem.ins m a b

/-- Write a byte; a byte that reads as an unlisted one is not listed. -/
def Mem.write (d : Nat → Byte) (m : Mem) (a : Nat) (b : Byte) : Mem :=
  if b = d a then m.filter (fun c => c.1 ≠ a) else m.ins a b

/-- Forget the bytes of a range of addresses. -/
def Mem.clear (m : Mem) (lo hi : Nat) : Mem := m.filter (fun c => !(decide (lo ≤ c.1) && decide (c.1 < hi)))

/-- The canonical form: addresses strictly rising, no listed byte equal to what an unlisted one reads as. -/
def Mem.wf (d : Nat → Byte) : Mem → Bool
  | [] => true
  | [(a, b)] => decide (b ≠ d a)
  | (a, b) :: (a', b') :: m => decide (b ≠ d a) && decide (a < a') && Mem.wf d ((a', b') :: m)

/-- One act on memory. -/
def MemAct.apply (d : Nat → Byte) (m : Mem) : MemAct → Mem
  | .byte a b => m.write d a b
  | .clear lo hi => m.clear lo hi

/-- Acts on memory, newest first. -/
def Mem.act (d : Nat → Byte) (m : Mem) : List MemAct → Mem
  | [] => m
  | x :: xs => x.apply d (Mem.act d m xs)

/-- What unlisted bytes read as in a state. -/
def Blk.dflt (b : Blk) : Nat → Byte := Mem.dflt b.ms.scrambled

/-- The byte at an address of a state. -/
def State.byte (s : State) (a : Nat) : Byte := Mem.read s.dflt s.mem a

/-- The memory of a state is in canonical form. -/
def State.memWf (s : State) : Bool := Mem.wf s.dflt s.mem

/-- Begin a command. -/
def State.begin_ (s : State) : Work := { s with mem := s.mem, wr := [] }

/-- End a command: the part as it stands in the working state, its acts on memory carried out, the queue as it was.
A repair command given within it leaves nothing listed in HBM (R447). -/
def State.settle (s : State) (w : Work) : State :=
  let m := if w.ms.scrambled = s.ms.scrambled then s.mem else s.mem.clear 0 Config.hbmEnd
  { w with pending := s.pending, mem := Mem.act w.dflt m w.wr }

/-- Run a meaning on a state. -/
def run (f : Work → Work) (s : State) : Host.Outcome State Fault Refusal := .next (s.settle (f s.begin_))

/-- Run a meaning that names a unit, which must exist. -/
def runIf (c : Bool) (f : Work → Work) (s : State) : Host.Outcome State Fault Refusal :=
  if c then run f s else .fault .noSuchUnit

/-- A byte as the command sees it: its own acts first. -/
def seen (d : Nat → Byte) (m : Mem) : List MemAct → Nat → Byte
  | [], a => Mem.read d m a
  | .byte k b :: t, a => if k = a then b else seen d m t a
  | .clear lo hi :: t, a => if lo ≤ a ∧ a < hi then d a else seen d m t a

/-- The byte at an address, as a number. -/
def Work.byte (w : Work) (a : Nat) : Nat := (seen w.dflt w.mem w.wr a).toNat
/-- `n` bytes from an address. -/
def Work.bytes (w : Work) (a n : Nat) : List Nat := (List.range n).map (fun i => w.byte (a + i))
/-- `n` bytes as a little-endian number (R4). -/
def Work.num (w : Work) (a n : Nat) : Nat := leNat (w.bytes a n)
/-- Write a byte. -/
def Work.putByte (w : Work) (a b : Nat) : Work := { w with wr := .byte a (BitVec.ofNat 8 b) :: w.wr }
/-- Write bytes from an address up. -/
def Work.put (w : Work) (a : Nat) : List Nat → Work
  | [] => w
  | b :: bs => Work.put (w.putByte a b) (a + 1) bs
/-- Write a number in `n` little-endian bytes (R4). -/
def Work.putNum (w : Work) (a n x : Nat) : Work := w.put a (leBytes n x)
/-- Forget a range. -/
def Work.clear (w : Work) (lo hi : Nat) : Work := { w with wr := .clear lo hi :: w.wr }

/-! ## Tables -/

/-- Change the entry at a key. -/
def Tab.upd {α : Type} [DecidableEq α] (d : α) (t : Tab α) (i : Nat) (f : α → α) : Tab α := t.set d i (f (t.get d i))

/-- A counter of a counter table. -/
def Tab.ctr (t : Tab Reg) (off : Nat) : Reg := Tab.get 0 t off
/-- Add to a counter, wrapping at 2^64 (R5). -/
def Tab.bump (t : Tab Reg) (off n : Nat) : Tab Reg := Tab.upd 0 t off (· + BitVec.ofNat 64 n)

/-- The copy by which a record reads: the valid one with the higher sequence number (R521). -/
def Twin.useB {α : Type} (t : Twin α) : Bool := t.b.valid && (!t.a.valid || decide (t.a.seq < t.b.seq))
def Twin.read {α : Type} (t : Twin α) : α := if t.useB then t.b.body else t.a.body
/-- A record is written: the copy by which it does not read takes the next sequence number. A write that a reset cuts short
leaves that copy without a CRC that fits. -/
def Twin.put {α : Type} (t : Twin α) (whole : Bool) (v : α) : Twin α :=
  if t.useB then { t with a := ⟨t.b.seq + 1, v, whole⟩ } else { t with b := ⟨t.a.seq + 1, v, whole⟩ }
def FwSlot.st (x : FwSlot) : FwSt := x.state.read
def FwSlot.goes (x : FwSlot) (st : FwSt) : FwSlot := { x with state := x.state.put true st }
def Flash.planSel (f : Flash) : Option Nat := f.selected.read
def Flash.anchors (f : Flash) : List Nat := f.trusted.read
def Flash.settings (f : Flash) (port : Nat) : List Nat := (Tab.get (.of []) f.portSettings port).read
def Flash.hfRollback (f : Flash) : Nat := f.hfCounter.read
def Flash.fabRollback (f : Flash) : Nat := f.fabCounter.read
def Flash.claimant (f : Flash) : Option Nat := f.reserved.read
def Flash.health (f : Flash) : Health := f.healthRec.read
def Flash.setClaimant (f : Flash) (c : Option Nat) : Flash := { f with reserved := f.reserved.put true c }
def Flash.setHealth (f : Flash) (whole : Bool) (h : Health) : Flash := { f with healthRec := f.healthRec.put whole h }

def Blk.part (b : Blk) (p : Nat) : Part := Tab.get {} b.parts p
def Blk.ctx (b : Blk) (q : Nat) : Ctx := Tab.get {} b.ctxs q
def Blk.tag (b : Blk) (t : Nat) : W32 := Tab.get 0 b.tags t
def Blk.desc (b : Blk) (p i : Nat) : Desc := Tab.get {} b.descs (4096 * p + i)
def Blk.face (b : Blk) (f : Nat) : Face := Tab.get {} b.faces f
def Blk.gal (b : Blk) (g : Nat) : Gal := Tab.get {} b.gals g
def Blk.port (b : Blk) (n : Nat) : Port := Tab.get {} b.ports n
def Blk.ring (b : Blk) (p r : Nat) : Ring := Tab.get {} b.rings (8 * p + r)
def Blk.grant (b : Blk) (p layer shift : Nat) : Grant := Tab.get {} b.grants (2 * (256 * p + layer) + shift % 2)
def Blk.book (b : Blk) (p layer shift : Nat) : BookMeta := Tab.get {} b.books (4 * (256 * p + layer) + shift % 4)
def Blk.hostPort (b : Blk) (n : Nat) : HostPort := Tab.get {} b.host.ports n
def Blk.window (b : Blk) (i : Nat) : Window := Tab.get {} b.host.windows i
def Blk.fw (b : Blk) (i : Nat) : FwSlot := Tab.get {} b.flash.fw i

def Work.modPart (w : Work) (p : Nat) (f : Part → Part) : Work := { w with parts := w.parts.upd {} p f }
def Work.modCtx (w : Work) (q : Nat) (f : Ctx → Ctx) : Work := { w with ctxs := w.ctxs.upd {} q f }
def Work.setTag (w : Work) (t : Nat) (v : W32) : Work := { w with tags := w.tags.set 0 t v }
def Work.setDesc (w : Work) (p i : Nat) (x : Desc) : Work := { w with descs := w.descs.set {} (4096 * p + i) x }
def Work.modFace (w : Work) (n : Nat) (f : Face → Face) : Work := { w with faces := w.faces.upd {} n f }
def Work.modGal (w : Work) (n : Nat) (f : Gal → Gal) : Work := { w with gals := w.gals.upd {} n f }
def Work.modPort (w : Work) (n : Nat) (f : Port → Port) : Work := { w with ports := w.ports.upd {} n f }
def Work.modRing (w : Work) (p r : Nat) (f : Ring → Ring) : Work := { w with rings := w.rings.upd {} (8 * p + r) f }
def Work.modGrant (w : Work) (p layer shift : Nat) (f : Grant → Grant) : Work :=
  { w with grants := w.grants.upd {} (2 * (256 * p + layer) + shift % 2) f }
def Work.modBook (w : Work) (p layer shift : Nat) (f : BookMeta → BookMeta) : Work :=
  { w with books := w.books.upd {} (4 * (256 * p + layer) + shift % 4) f }
def Work.modHostPort (w : Work) (n : Nat) (f : HostPort → HostPort) : Work :=
  { w with host := { w.host with ports := w.host.ports.upd {} n f } }
def Work.modWindow (w : Work) (i : Nat) (f : Window → Window) : Work :=
  { w with host := { w.host with windows := w.host.windows.upd {} i f } }
def Work.modFw (w : Work) (i : Nat) (f : FwSlot → FwSlot) : Work :=
  { w with flash := { w.flash with fw := w.flash.fw.upd {} i f } }
def Work.modFlash (w : Work) (f : Flash → Flash) : Work := { w with flash := f w.flash }
def Work.modHost (w : Work) (f : HostSt → HostSt) : Work := { w with host := f w.host }
def Work.modBoot (w : Work) (f : Boot → Boot) : Work := { w with boot := f w.boot }
def Work.modPwr (w : Work) (f : Pwr → Pwr) : Work := { w with pwr := f w.pwr }
def Work.modBell (w : Work) (f : Bell → Bell) : Work := { w with bell := f w.bell }
def Work.modMs (w : Work) (f : MemSys → MemSys) : Work := { w with ms := f w.ms }
def Work.modFab (w : Work) (f : Fab → Fab) : Work := { w with fab := f w.fab }
def Work.modDev (w : Work) (f : Dev → Dev) : Work := { w with dev := f w.dev }
def Work.modStruct (w : Work) (f : Struct → Struct) : Work := { w with struct := f w.struct }

/-- A message leaves the device. -/
def Work.emit (w : Work) (o : Out) : Work := { w with out := w.out ++ [o] }

/-! ## Counters -/

/-- A FACE_ counter register of face `f`, by offset. -/
def Work.faceCtr (w : Work) (f off n : Nat) : Work := w.modFace f (fun x => { x with ctr := x.ctr.bump off n })
/-- A GAL_ counter. -/
def Work.galCtr (w : Work) (g off n : Nat) : Work := w.modGal g (fun x => { x with ctr := x.ctr.bump off n })
/-- A counter of a fabric port. -/
def Work.portCtr (w : Work) (k off n : Nat) : Work := w.modPort k (fun x => { x with ctr := x.ctr.bump off n })
/-- A DEV_ counter. -/
def Work.devCtr (w : Work) (off n : Nat) : Work := w.modDev (fun x => { x with ctr := x.ctr.bump off n })
/-- A MEM_ counter. -/
def Work.memCtr (w : Work) (off n : Nat) : Work := w.modMs (fun x => { x with ctr := x.ctr.bump off n })
/-- An HFC_ counter. -/
def Work.hfcCtr (w : Work) (off n : Nat) : Work := w.modHost (fun x => { x with ctr := x.ctr.bump off n })
/-- A counter of a host port. -/
def Work.hostCtr (w : Work) (k off n : Nat) : Work := w.modHostPort k (fun x => { x with ctr := x.ctr.bump off n })

/-- The next number for a free value (log entry 3), and the state with the counter advanced. -/
def Work.fresh (w : Work) : Nat × Work := (w.clk.free, { w with clk := { w.clk with free := w.clk.free + 1 } })

/-! ## Bits that a write of 1 clears (R6, R7) -/

/-- The device sets bits of the W1C register at an address. -/
def Work.w1cMark (w : Work) (a m : Nat) : Work :=
  let old := if w.dev.w1cAt = w.clk.lease then w.dev.w1c else []
  w.modDev fun d => { d with w1cAt := w.clk.lease, w1c := old.upd 0 a (fun x => Nat.lor x m) }
/-- The bits that a write of `v` to the W1C register at an address clears: not those that the device sets in the same
cycle (R7). -/
def Blk.w1cClears (b : Blk) (a v : Nat) : Nat :=
  if b.dev.w1cAt = b.clk.lease then Nat.xor v (Nat.land v (Tab.get 0 b.dev.w1c a)) else v

/-! ## Flights and transactions -/

def Work.modFlight (w : Work) (id : Nat) (f : Flight → Flight) : Work :=
  { w with flights := w.flights.map (fun x => if x.id = id then f x else x) }
def Work.delFlight (w : Work) (id : Nat) : Work := { w with flights := w.flights.filter (fun x => x.id ≠ id) }
def Blk.flight? (b : Blk) (id : Nat) : Option Flight := b.flights.find? (fun x => x.id = id)
def Work.modTxn (w : Work) (id : Nat) (f : Txn → Txn) : Work :=
  { w with txns := w.txns.map (fun x => if x.id = id then f x else x) }
def Blk.txn? (b : Blk) (id : Nat) : Option Txn := b.txns.find? (fun x => x.id = id)
/-- Open a transaction: it takes the next transaction number. -/
def Work.addTxn (w : Work) (t : Txn) : Work :=
  { w with txns := w.txns ++ [{ t with id := w.dev.nextTxn }], dev := { w.dev with nextTxn := w.dev.nextTxn + 1 } }

/-- Fold a work step over a list. -/
def Work.each {α : Type} (w : Work) (l : List α) (f : Work → α → Work) : Work := l.foldl f w

/-! ## Time -/

/-- The bell tick (R380). -/
def Blk.now (b : Blk) : Nat := b.clk.bell

/-- Tenths of array cycles in one bell tick of 4 ns, by power mode (R25). -/
def cyc10PerTick (mode : Nat) : Nat :=
  if mode = 0 then 144 else if mode = 1 then 120 else if mode = 2 then 88 else 48

/-- Bell time counts from the first time it is set (R387): in every state but UNSYNC and ACQUIRING. -/
def BellState.counts : BellState → Bool
  | .unsync | .acquiring => false
  | _ => true

end Sys2Proof.Machine
end

