-- ==== Sys2Proof/Machine/Plan.lean ====
section
/-! DEFINITION. The Zhoham image (02_structure_image.md): reading it, validating it, and what a plan gives each
partition. An image is its list of byte values. -/

namespace Sys2Proof.Machine

/-! ## The check word -/

/-- One bit of `crc32c` (R38). -/
def crcBit (c : Nat) : Nat := if c % 2 = 1 then Nat.xor (c / 2) 0x82F63B78 else c / 2
/-- One byte of `crc32c`. -/
def crcByte (c b : Nat) : Nat := (List.range 8).foldl (fun c _ => crcBit c) (Nat.xor c (b % 256))
/-- `crc32c` (R38). -/
def crc32c (l : List Nat) : Nat := Nat.xor (l.foldl crcByte 0xFFFFFFFF) 0xFFFFFFFF

/-! ## The directory -/

/-- A directory entry (R35). -/
structure Dirent where
  idx : Nat
  type : Nat
  ver : Nat
  flags : Nat
  off : Nat
  len : Nat
  rsv : Nat
  deriving DecidableEq, Repr

def imgTotal (img : List Nat) : Nat := leAt img 8 4
def imgCount (img : List Nat) : Nat := leAt img 12 2

/-- The section directory (R35). -/
def imgDir (img : List Nat) : List Dirent :=
  (List.range (imgCount img)).map fun i =>
    let o := 64 + 16 * i
    ⟨i, leAt img o 2, leAt img (o + 2) 1, leAt img (o + 3) 1, leAt img (o + 4) 4, leAt img (o + 8) 4, leAt img (o + 12) 4⟩

/-- The record size of a section type: none for a reserved type, 0 for variable (R40). -/
def secSize (t : Nat) : Option Nat :=
  match t with
  | 1 => some 8 | 2 => some 16 | 3 => some 16 | 4 => some 16 | 5 => some 16 | 6 => some 8 | 7 => some 24
  | 8 => some 16 | 9 => some 8 | 10 => some 32 | 11 => some 8 | 12 => some 0
  | _ => none

/-- A section that is read: known type and version 1 (R77). -/
def Dirent.read (d : Dirent) : Bool := (secSize d.type).isSome && d.ver == 1
/-- A section that is skipped (R77). -/
def Dirent.skipped (d : Dirent) : Bool := bit d.flags 0 && !d.read

/-- The entry of a section that is read. -/
def imgSec (img : List Nat) (t : Nat) : Option Dirent := (imgDir img).find? (fun d => d.type == t && d.read)

/-- Where the records of a section start; none for an absent section. -/
def imgRecs (img : List Nat) (t : Nat) : List Nat :=
  match imgSec img t, secSize t with
  | some d, some (n + 1) => (List.range (d.len / (n + 1))).map (fun i => d.off + (n + 1) * i)
  | _, _ => []

/-- Walk the DEFAULT_GRANTS entries that fit in a section (R59): the starts, and the start of one that does not fit.
The first argument bounds the walk. -/
def grantWalk (img : List Nat) : Nat → Nat → Nat → List Nat × Option Nat
  | 0, _, _ => ([], none)
  | n + 1, o, lim =>
    if o ≥ lim then ([], none)
    else if o + 8 > lim then ([], some o)
    else
      let len := leAt img (o + 4) 4
      if len % 8 ≠ 0 ∨ o + 8 + len > lim then ([o], some o)
      else
        let r := grantWalk img n (o + 8 + len) lim
        (o :: r.1, r.2)

/-- The DEFAULT_GRANTS entries. -/
def imgGrants (img : List Nat) : List Nat × Option Nat :=
  match imgSec img 12 with
  | some d => grantWalk img (d.len / 8 + 1) d.off (d.off + d.len)
  | none => ([], none)

/-! ## Grant bodies -/

/-- The grant body's experts as (slot base, capacity) (R299). -/
def grantEntries (body : List Nat) : List (Nat × Nat) :=
  (List.range (leAt body 2 2)).map (fun e => (leAt body (32 + 8 * e) 4, leAt body (36 + 8 * e) 2))

/-- Two slot ranges are disjoint. -/
def slotsApart (a b : Nat × Nat) : Bool := a.2 == 0 || b.2 == 0 || decide (a.1 + a.2 ≤ b.1) || decide (b.1 + b.2 ≤ a.1)

/-- Every two elements of a list are related. -/
def allPairs {α : Type} (r : α → α → Bool) : List α → Bool
  | [] => true
  | x :: xs => xs.all (r x) && allPairs r xs

/-- R300: a grant body is valid for the partition and layer of the head that carries it. -/
def grantBodyOk (part layer : Nat) (body : List Nat) : Bool :=
  let n := leAt body 2 2
  decide (1 ≤ n) && decide (n ≤ 4096) && body.length == 32 + 8 * n
    && leAt body 0 1 == layer && leAt body 1 1 == part && decide (part ≤ 15)
    && leAt body 8 1 == 0 && ((body.drop 9).take 23).all (· == 0)
    && (List.range n).all (fun e => leAt body (38 + 8 * e) 2 == 0)
    && (grantEntries body).all (fun e => decide (e.1 + e.2 ≤ 2 ^ 31))
    && allPairs slotsApart (grantEntries body)

/-! ## Validation (R62, R556) -/

/-- Where and why an image fails: code, section index, byte offset. -/
structure ImgFail where
  code : Nat
  sec : Nat
  off : Nat
  deriving DecidableEq, Repr

/-- The first of a list of checks that fails. -/
def firstFail : List (Option ImgFail) → Option ImgFail
  | [] => none
  | some f :: _ => some f
  | none :: t => firstFail t

/-- A check: nothing when it holds. -/
def need (ok : Bool) (code sec off : Nat) : Option ImgFail := if ok then none else some ⟨code, sec, off⟩

/-- The directory index of a section that is read. -/
def secIdx (img : List Nat) (t : Nat) : Nat := ((imgSec img t).map (·.idx)).getD 0xFF

/-- A check of the record at offset `o` of section `t`. -/
def needRec (img : List Nat) (t o code : Nat) (ok : Bool) : Option ImgFail := need ok code (secIdx img t) o

/-- Check each record of a section in image order against those before it. -/
def eachRec (img : List Nat) (t code : Nat) (ok : List Nat → Nat → Bool) : List Nat → List Nat → Option ImgFail
  | _, [] => none
  | before, o :: os =>
    match needRec img t o code (ok before o) with
    | some f => some f
    | none => eachRec img t code ok (before ++ [o]) os

/-- Check the records of section `t`. -/
def checkRecs (img : List Nat) (t code : Nat) (ok : List Nat → Nat → Bool) : Option ImgFail :=
  eachRec img t code ok [] (imgRecs img t)

/-- The later of two records in image order fails (R556). -/
def laterRec (img : List Nat) (code t o t' o' : Nat) : ImgFail :=
  if o ≥ o' then ⟨code, secIdx img t, o⟩ else ⟨code, secIdx img t', o'⟩

/-- Step 1. -/
def vCheckWord (img : List Nat) : Option ImgFail :=
  let n := imgTotal img
  if n % 8 ≠ 0 ∨ n < 128 ∨ n > 0x100000 then some ⟨0x0801, 0xFF, 8⟩
  else need (crc32c (img.take (n - 4)) == leAt img (n - 4) 4) 0x0801 0xFF (n - 4)

/-- Steps 2 to 4. -/
def vHeader (img : List Nat) : Option ImgFail :=
  firstFail [
    need (leAt img 0 4 == 0x4D4F485A) 0x0802 0xFF 0, need (leAt img 6 2 == 64) 0x0802 0xFF 6,
    need (leAt img 0x18 2 == 0x5C40) 0x0802 0xFF 0x18, need (leAt img 4 1 == 1) 0x0803 0xFF 4,
    need (decide (leAt img 0x1A 1 ≤ 0xA0)) 0x0804 0xFF 0x1A, need (decide (leAt img 0x1B 1 ≥ 0xA0)) 0x0804 0xFF 0x1B]

/-- Check each directory entry against those before it. -/
def eachDir (ok : List Dirent → Dirent → Bool) : List Dirent → List Dirent → Option ImgFail
  | _, [] => none
  | before, d :: ds =>
    match need (ok before d) 0x0805 d.idx (64 + 16 * d.idx) with
    | some f => some f
    | none => eachDir ok (before ++ [d]) ds

/-- The record-size condition of R36; a skipped section of a known type meets it too (R77). -/
def dirLenOk (d : Dirent) : Bool :=
  if d.type == 4 then d.len == 16
  else match secSize d.type with
    | some (n + 1) => decide (d.len ≠ 0) && d.len % (n + 1) == 0
    | _ => true

/-- The first non-zero byte outside the header, the directory, the bodies and the trailer. -/
def gapByte (img : List Nat) (dir : List Dirent) (n : Nat) : Option Nat :=
  (List.range (n - 8)).find? fun i =>
    decide (i ≥ 64 + 16 * dir.length) && nth img i != 0
      && dir.all (fun d => !(decide (d.off ≤ i) && decide (i < d.off + d.len)))

/-- One directory entry after those before it: alignment, bounds, overlap, duplicate type (R35, R36). A body of length 0 that
lies strictly inside another body counts as overlapping it (log entry 141). -/
def dirOk (c n : Nat) (before : List Dirent) (d : Dirent) : Bool :=
  d.off % 8 == 0 && decide (d.off ≥ 64 + 16 * c) && decide (d.off + d.len ≤ n - 8) && dirLenOk d
    && before.all (fun e => (decide (e.off + e.len ≤ d.off) || decide (d.off + d.len ≤ e.off)) && e.type != d.type)

/-- Step 5: the entries in image order (log entry 18), then the gaps. -/
def vDirectory (img : List Nat) : Option ImgFail :=
  let n := imgTotal img
  let c := imgCount img
  let dir := imgDir img
  if c < 1 ∨ c > 32 then some ⟨0x0805, 0xFF, 0x0C⟩
  else firstFail [eachDir (dirOk c n) [] dir, (gapByte img dir n).map (fun i => ⟨0x0805, 0xFF, i⟩)]

/-- Step 6. -/
def vTypes (img : List Nat) : Option ImgFail :=
  firstFail ((imgDir img).map fun d =>
    if bit d.flags 0 then none
    else if (secSize d.type).isNone then some ⟨0x0806, d.idx, 64 + 16 * d.idx⟩
    else need (d.ver == 1) 0x0807 d.idx (64 + 16 * d.idx))

/-- Step 7. -/
def vPresent (img : List Nat) : Option ImgFail :=
  need ((imgSec img 1).isSome && (imgSec img 4).isSome
    && ((imgSec img 3).isSome || decide ((imgRecs img 1).length ≤ 1))) 0x0808 0xFF 0

/-- The fields of a section's record that must be zero or hold no reserved value: offset, size, and the largest
multiple of a power of two allowed below it (a value must be below `lim`). -/
def rsvFields (t : Nat) : List (Nat × Nat × Nat) :=
  match t with
  | 1 => [(1, 1, 4), (5, 3, 1)]
  | 2 => [(1, 3, 1), (14, 2, 1)]
  | 3 => [(10, 6, 1)]
  | 4 => [(0, 1, 4), (7, 9, 1)]
  | 5 => [(1, 1, 2), (2, 1, 2), (3, 1, 1), (6, 2, 1)]
  | 6 => [(1, 1, 4), (4, 1, 2), (5, 1, 4), (6, 2, 1)]
  | 7 => [(1, 1, 3), (8, 8, 2 ^ 36), (16, 8, 2 ^ 36)]
  | 8 => [(4, 1, 8), (12, 4, 1)]
  | 9 => [(1, 1, 2), (5, 1, 2), (6, 2, 1)]
  | 10 => [(1, 1, 1), (24, 8, 1)]
  | 11 => [(0, 1, 3), (4, 4, 1)]
  | _ => []

/-- The reserved fields of one record. -/
def vRsvRec (img : List Nat) (t o : Nat) : Option ImgFail :=
  firstFail ((rsvFields t).map fun (fo, n, lim) =>
    need (decide (leAt img (o + fo) n < lim) && !(t == 8 && fo == 4 && leAt img (o + fo) n == 0))
      0x0809 (secIdx img t) (o + fo))

/-- Step 8. -/
def vReserved (img : List Nat) : Option ImgFail :=
  let n := imgTotal img
  firstFail ([
    need (leAt img 0x0E 2 == 0) 0x0809 0xFF 0x0E, need (leAt img 0x1C 36 == 0) 0x0809 0xFF 0x1C]
    ++ (imgDir img).map (fun d => need (decide (d.flags < 2) && d.rsv == 0) 0x0809 d.idx (64 + 16 * d.idx))
    ++ [need (leAt img (n - 8) 4 == 0) 0x0809 0xFF (n - 8)]
    ++ (imgDir img).flatMap (fun d =>
      if !d.read then []
      else if d.type == 12 then
        (imgGrants img).1.map (fun o => need (leAt img (o + 1) 1 == 0) 0x0809 d.idx (o + 1))
      else (imgRecs img d.type).map (vRsvRec img d.type)))

/-- The offset of the partition number in a record of a section that names one. -/
def partField (t : Nat) : Option Nat :=
  match t with
  | 3 => some 0 | 5 => some 0 | 7 => some 2 | 8 => some 5 | 9 => some 0 | 10 => some 0 | 11 => some 1
  | _ => none

def definedIn (img : List Nat) (p : Nat) : Bool := (imgRecs img 1).any (fun o => leAt img o 1 == p)

/-- Step 9. -/
def vPartitions (img : List Nat) : Option ImgFail :=
  let mask := fun o => leAt img (o + 2) 2
  let memOk := fun m => if (imgSec img 2).isSome then (imgRecs img 2).any (fun o => leAt img o 1 == m) else m == 0
  firstFail ([
    checkRecs img 1 0x080A (fun b o => decide (leAt img o 1 ≤ 15) && b.all (fun e => leAt img e 1 != leAt img o 1)),
    checkRecs img 1 0x080A (fun _ o => mask o != 0),
    checkRecs img 1 0x080A (fun b o => b.all (fun e => Nat.land (mask e) (mask o) == 0)),
    checkRecs img 1 0x080A (fun _ o => memOk (leAt img (o + 4) 1))]
    ++ (imgDir img).flatMap (fun d =>
      if !d.read then []
      else if d.type == 12 then
        (imgGrants img).1.map (fun o => need (definedIn img (leAt img o 1)) 0x080A d.idx o)
      else match partField d.type with
        | none => []
        | some f => [checkRecs img d.type 0x080A (fun _ o =>
            let p := leAt img (o + f) 1
            if d.type == 8 && leAt img (o + 4) 1 == 7 then p == 0xFF else definedIn img p)])
    ++ [3, 5, 9, 10].map (fun t => checkRecs img t 0x080A (fun b o => b.all (fun e => leAt img e 1 != leAt img o 1))))

/-- The record at which a running sum first passes a limit. -/
def sumPast (lim : Nat) (f : Nat → Nat) : Nat → List Nat → Option Nat
  | _, [] => none
  | acc, o :: os => if acc + f o > lim then some o else sumPast lim f (acc + f o) os

/-- Step 10. `usable` is the usable HBM in bytes (R65). -/
def vMemory (img : List Nat) (usable : Nat) : Option ImgFail :=
  let base := fun o => leAt img (o + 4) 2 * 2 ^ 30
  let top := fun o => base o + leAt img (o + 6) 2 * 2 ^ 30
  let guar := fun o => leAt img (o + 8) 2
  let ceil := fun o => leAt img (o + 10) 2
  firstFail [
    checkRecs img 2 0x080B (fun b o => decide (leAt img o 1 ≤ 15) && b.all (fun e => leAt img e 1 != leAt img o 1)),
    checkRecs img 2 0x080B (fun _ o => decide (leAt img (o + 6) 2 ≥ 1) && decide (guar o ≤ 1024) && decide (ceil o ≥ 1)
      && decide (ceil o ≤ 1024) && decide (leAt img (o + 12) 2 ≥ 1) && decide (leAt img (o + 12) 2 ≤ 4096)),
    checkRecs img 2 0x080B (fun b o => decide (top o ≤ usable)
      && b.all (fun e => decide (top e ≤ base o) || decide (top o ≤ base e))),
    (sumPast 1024 guar 0 (imgRecs img 2)).map (fun o => ⟨0x080B, secIdx img 2, o⟩),
    checkRecs img 2 0x080B (fun _ o => decide (guar o ≤ ceil o))]

/-- Step 11. -/
def vBudgets (img : List Nat) : Option ImgFail :=
  let lim := fun o f n lo hi => decide (leAt img (o + f) n ≥ lo) && decide (leAt img (o + f) n ≤ hi)
  firstFail [
    checkRecs img 3 0x080C (fun _ o => lim o 1 1 0 64 && lim o 2 2 1 4096 && lim o 4 4 1 65536 && lim o 8 2 1 32768),
    (imgSec img 3).bind (fun d => need ((imgRecs img 1).all (fun o =>
      (imgRecs img 3).any (fun b => leAt img b 1 == leAt img o 1))) 0x080C d.idx d.off),
    (sumPast 65536 (fun o => leAt img (o + 4) 4) 0 (imgRecs img 3)).map (fun o => ⟨0x080C, secIdx img 3, o⟩),
    (sumPast 32768 (fun o => leAt img (o + 8) 2) 0 (imgRecs img 3)).map (fun o => ⟨0x080C, secIdx img 3, o⟩)]

/-- Step 12. -/
def vDevice (img : List Nat) (feed : Nat) : Option ImgFail :=
  checkRecs img 4 0x080D (fun _ o =>
    let size := leAt img (o + 4) 2
    let own := leAt img (o + 6) 1
    decide (1 ≤ size) && decide (size ≤ 256) && decide (leAt img (o + 1) 1 < size) && (own == 0xFF || own == feed))

/-- The FABRIC_PORTS record of a port. -/
def portRecAt (img : List Nat) (n : Nat) : Option Nat := (imgRecs img 6).find? (fun o => leAt img o 1 == n)

/-- A ring record whose masks name a port outside the data role fails; where the port has a record, the later of the
two in image order. -/
def vRingPort (img : List Nat) (o : Nat) : Option ImgFail :=
  firstFail ((List.range 36).map fun n =>
    if bit (leAt img (o + 8) 8) n || bit (leAt img (o + 16) 8) n then
      match portRecAt img n with
      | some r => if leAt img (r + 1) 1 == 2 then none else some (laterRec img 0x080E 7 o 6 r)
      | none => some ⟨0x080E, secIdx img 7, o⟩
    else none)

/-- Step 13. -/
def vPorts (img : List Nat) : Option ImgFail :=
  let check := fun o => bit (leAt img (o + 5) 1) 1
  firstFail ([
    checkRecs img 6 0x080E (fun b o => decide (leAt img o 1 ≤ 35) && b.all (fun e => leAt img e 1 != leAt img o 1)),
    checkRecs img 6 0x080E (fun _ o => decide (leAt img (o + 3) 1 ≤ 35) || leAt img (o + 3) 1 == 0xFF),
    checkRecs img 6 0x080E (fun _ o => check o || leAt img (o + 2) 1 == 0)]
    ++ (imgRecs img 7).map (vRingPort img)
    ++ [checkRecs img 6 0x080E (fun _ o => !(leAt img (o + 1) 1 == 3 && check o))])

/-- The bypass_for field of a ring record: 0xFF on a primary ring; on a bypass ring a primary ring of the same
partition, whose size is compared with its own, so that the later of the two records fails (R556). -/
def vRingBypass (img : List Nat) (o : Nat) : Option ImgFail :=
  let by' := leAt img (o + 3) 1
  if leAt img (o + 1) 1 == 0 then needRec img 7 o 0x080F (by' == 0xFF)
  else match (imgRecs img 7).find? (fun e => leAt img (e + 2) 1 == leAt img (o + 2) 1 && leAt img (e + 1) 1 == 0
      && leAt img e 1 == by') with
    | none => some ⟨0x080F, secIdx img 7, o⟩
    | some e => if leAt img (e + 4) 2 == leAt img (o + 4) 2 + 1 then none else some (laterRec img 0x080F 7 o 7 e)

/-- Step 14. -/
def vRings (img : List Nat) : Option ImgFail :=
  let part := fun o => leAt img (o + 2) 1
  let size := fun o => leAt img (o + 4) 2
  let kind := fun o => leAt img (o + 1) 1
  firstFail [
    checkRecs img 7 0x080F (fun b o => decide (leAt img o 1 ≤ 7)
      && b.all (fun e => !(part e == part o && leAt img e 1 == leAt img o 1))),
    checkRecs img 7 0x080F (fun _ o => (kind o != 0 || decide (2 ≤ size o)) && decide (size o ≤ 256)
      && decide (leAt img (o + 6) 2 < size o)),
    firstFail ((imgRecs img 7).map (vRingBypass img))]

/-- The SHIFT_MARK record of a partition. -/
def markAt (img : List Nat) (p : Nat) : Option Nat :=
  (imgRecs img 8).find? (fun o => leAt img (o + 4) 1 == 1 && leAt img (o + 5) 1 == p)

/-- The limits of one BELL_TEMPLATE record on its own (R50). -/
def bellArgsOk (img : List Nat) (o : Nat) : Bool :=
  let a0 := leAt img (o + 6) 2
  let a1 := leAt img (o + 8) 4
  let off := leAt img o 4
  match leAt img (o + 4) 1 with
  | 1 => a0 == 0 && decide (a1 ≥ 4096) && decide (off < a1)
  | 2 => decide (a0 ≤ 7)
  | 3 => decide (a0 ≤ 35) && decide (a1 ≤ 1)
  | 4 => decide (a0 ≤ 1) && decide (a1 ≤ 255)
  | 5 => a0 == 0 && a1 == 0
  | 6 => a0 == 0
  | 7 => decide (off ≤ 255) && a0 == 0 && a1 == 0
  | _ => false

/-- Step 15 for one record, given those before it. -/
def vBellRec (img : List Nat) (before : List Nat) (o : Nat) : Option ImgFail :=
  let kind := fun o => leAt img (o + 4) 1
  let part := fun o => leAt img (o + 5) 1
  let same := before.any (fun e => kind e == kind o && ((kind o == 1 && part e == part o) || kind o == 7
    || (kind o == 4 && part e == part o && leAt img (e + 6) 2 == leAt img (o + 6) 2
      && leAt img (e + 8) 4 == leAt img (o + 8) 4)))
  if same || !bellArgsOk img o then some ⟨0x0810, secIdx img 8, o⟩
  else if kind o == 1 || kind o == 7 then none
  else match markAt img (part o) with
    | none => some ⟨0x0810, secIdx img 8, o⟩
    | some m => if leAt img o 4 < leAt img (m + 8) 4 then none else some (laterRec img 0x0810 8 o 8 m)

/-- Step 15 over the records. -/
def vBell (img : List Nat) : List Nat → List Nat → Option ImgFail
  | _, [] => none
  | before, o :: os =>
    match vBellRec img before o with
    | some f => some f
    | none => vBell img (before ++ [o]) os

/-- Step 16. -/
def vComparators (img : List Nat) : Option ImgFail :=
  let events := (imgRecs img 8).filter (fun o => leAt img (o + 4) 1 != 7)
  match sumPast 64 (fun _ => 1) 0 events with
  | some o => some ⟨0x0811, secIdx img 8, o⟩
  | none => (sumPast 64 (fun o => leAt img (o + 1) 1) events.length (imgRecs img 3)).map (fun o => ⟨0x0811, secIdx img 3, o⟩)

/-- Step 17. -/
def vPoints (img : List Nat) : Option ImgFail :=
  let fitted := fun o => bit (leAt img (o + 5) 1) 0
  firstFail ((imgRecs img 8).map (fun o =>
      if leAt img (o + 4) 1 == 3 then
        match portRecAt img (leAt img (o + 6) 2) with
        | some r => if fitted r then none else some (laterRec img 0x0812 8 o 6 r)
        | none => some ⟨0x0812, secIdx img 8, o⟩
      else none)
    ++ [checkRecs img 6 0x0812 (fun _ o => leAt img (o + 4) 1 == 0 || fitted o)])

/-- Step 18 for one record: its position is compared with the DEVICE record, so that the later of the two fails
(R556); its other limits are its own. -/
def vBuddyRec (img : List Nat) (o : Nat) : Option ImgFail :=
  let dev := (imgRecs img 4).headD 0
  let pos := leAt img (o + 2) 1
  if pos == leAt img (dev + 1) 1 || !decide (pos < leAt img (dev + 4) 2) then some (laterRec img 0x0813 9 o 4 dev)
  else needRec img 9 o 0x0813 (decide (leAt img (o + 3) 1 ≤ 15) && decide (1 ≤ leAt img (o + 4) 1)
    && decide (leAt img (o + 4) 1 ≤ 32))

/-- Steps 18 and 19. -/
def vBuddies (img : List Nat) (feed : Nat) : Option ImgFail :=
  firstFail [
    firstFail ((imgRecs img 9).map (vBuddyRec img)),
    checkRecs img 9 0x0814 (fun _ o => !(leAt img (o + 3) 1 == feed && !bit (leAt img (o + 5) 1) 0))]

/-- A list of numbers is strictly rising. -/
def rising : List Nat → Bool
  | a :: b :: t => decide (a < b) && rising (b :: t)
  | _ => true

/-- Step 20. -/
def vCanary (img : List Nat) : Option ImgFail :=
  checkRecs img 10 0x0815 (fun _ o =>
    rising ([leAt img (o + 2) 2, leAt img (o + 4) 2, leAt img (o + 6) 2].filter (· != 0xFFFF)))

/-- Step 21. -/
def vSharing (img : List Nat) : Option ImgFail :=
  checkRecs img 11 0x0816 (fun b o => decide (leAt img (o + 2) 2 ≥ 1)
    && b.all (fun e => !(leAt img e 1 == leAt img o 1 && leAt img (e + 1) 1 == leAt img (o + 1) 1)))

/-- Step 22 for one entry, given those before it. -/
def vGrantEntry (img : List Nat) (bad : Option Nat) (before : List Nat) (o : Nat) : Bool :=
  let body := (img.drop (o + 8)).take (leAt img (o + 4) 4)
  bad != some o
    && before.all (fun e => !(leAt img e 1 == leAt img o 1 && leAt img (e + 2) 2 == leAt img (o + 2) 2))
    && grantBodyOk (leAt img o 1) (leAt img (o + 2) 2) body && leAt body 4 4 == 0

/-- Step 22. -/
def vGrants (img : List Nat) : Option ImgFail :=
  let g := imgGrants img
  match eachRec img 12 0x0817 (vGrantEntry img g.2) [] g.1 with
  | some f => some f
  | none => g.2.map (fun o => ⟨0x0817, secIdx img 12, o⟩)

/-- R62: every step after the first, in order. -/
def vRest (img : List Nat) (usable feed : Nat) : Option ImgFail :=
  match firstFail [vHeader img, vDirectory img, vTypes img, vPresent img] with
  | some f => some f
  | none => firstFail [vReserved img, vPartitions img, vMemory img usable, vBudgets img, vDevice img feed, vPorts img,
      vRings img, vBell img [] (imgRecs img 8), vComparators img, vPoints img, vBuddies img feed, vCanary img,
      vSharing img, vGrants img]

/-- R62: the first check that fails. -/
def validateImage (img : List Nat) (usable feed : Nat) : Option ImgFail :=
  match vCheckWord img with
  | some f => some f
  | none => vRest img usable feed

/-! ## Reading a valid image -/

/-- The plan an image spells (R42 to R59). -/
def readPlan (img : List Nat) : Plan :=
  let r := fun t => imgRecs img t
  let opt := fun {α : Type} (t : Nat) (l : List α) => if (imgSec img t).isSome then some l else none
  { parts := (r 1).map (fun o => ⟨leAt img o 1, leAt img (o + 1) 1, leAt img (o + 2) 2, leAt img (o + 4) 1⟩)
    mems := opt 2 ((r 2).map (fun o => ⟨leAt img o 1, leAt img (o + 4) 2 * 2 ^ 30, leAt img (o + 6) 2 * 2 ^ 30,
      leAt img (o + 8) 2, leAt img (o + 10) 2, leAt img (o + 12) 2⟩))
    buds := opt 3 ((r 3).map (fun o => ⟨leAt img o 1, leAt img (o + 1) 1, leAt img (o + 2) 2, leAt img (o + 4) 4,
      leAt img (o + 8) 2⟩))
    dev := ((r 4).map (fun o => ⟨leAt img o 1, leAt img (o + 1) 1, leAt img (o + 2) 1, leAt img (o + 3) 1,
      leAt img (o + 4) 2, leAt img (o + 6) 1⟩)).headD {}
    nums := (r 5).map (fun o => ⟨leAt img o 1, leAt img (o + 1) 1, leAt img (o + 2) 1, leAt img (o + 4) 2,
      leAt img (o + 8) 8⟩)
    ports := opt 6 ((r 6).map (fun o => ⟨leAt img o 1, leAt img (o + 1) 1, leAt img (o + 2) 1, leAt img (o + 3) 1,
      leAt img (o + 4) 1, leAt img (o + 5) 1⟩))
    rings := (r 7).map (fun o => ⟨leAt img o 1, leAt img (o + 1) 1, leAt img (o + 2) 1, leAt img (o + 3) 1,
      leAt img (o + 4) 2, leAt img (o + 6) 2, leAt img (o + 8) 8, leAt img (o + 16) 8⟩)
    bell := (r 8).map (fun o => ⟨leAt img o 4, leAt img (o + 4) 1, leAt img (o + 5) 1, leAt img (o + 6) 2,
      leAt img (o + 8) 4⟩)
    buddies := (r 9).map (fun o => ⟨leAt img o 1, leAt img (o + 1) 1, leAt img (o + 2) 1, leAt img (o + 3) 1,
      leAt img (o + 4) 1, leAt img (o + 5) 1⟩)
    canaries := (r 10).map (fun o => ⟨leAt img o 1, leAt img (o + 2) 2, leAt img (o + 4) 2, leAt img (o + 6) 2,
      (List.range 8).map (fun i => leAt img (o + 8 + 2 * i) 2)⟩)
    shares := (r 11).map (fun o => ⟨leAt img o 1, leAt img (o + 1) 1, leAt img (o + 2) 2⟩)
    grants := (imgGrants img).1.map (fun o => ⟨leAt img o 1, leAt img (o + 2) 2,
      (img.drop (o + 8)).take (leAt img (o + 4) 4)⟩)
    serial := leAt img 16 8
    minor := leAt img 5 1
    skipped := (imgDir img).any (·.skipped)
    image := img }

/-- The factory default plan (R60). -/
def romPlan : Plan := { parts := [⟨0, 0, 0xFFFF, 0⟩] }

/-! ## What a plan gives -/

def Plan.defines (p : Plan) (i : Nat) : Bool := p.parts.any (fun r => r.part == i)
def Plan.partRec (p : Plan) (i : Nat) : Option PartRec := p.parts.find? (fun r => r.part == i)
/-- The partition of a gallery. -/
def Plan.partOfGal (p : Plan) (g : Nat) : Option Nat := (p.parts.find? (fun r => bit r.galMask g)).map (·.part)
/-- The partition of a face (R17). -/
def Plan.partOfFace (p : Plan) (f : Nat) : Option Nat := p.partOfGal (f / 12)

/-- The template events that hold a comparator (R52). -/
def Plan.events (p : Plan) : Nat := (p.bell.filter (fun e => e.kind != 7)).length

/-- A partition's budgets, with the default of R40. -/
def Plan.bud (p : Plan) (i : Nat) : BudRec :=
  match p.buds with
  | none => ⟨i, 64 - p.events, 4096, 65536, 32768⟩
  | some l => (l.find? (fun r => r.part == i)).getD ⟨i, 0, 0, 0, 0⟩

/-- The first of a partition's range of a device-wide resource (R45). The state of a context or tag is kept by its
device-wide number: where a new plan moves the range of a partition that it does not affect (R73), the numbers are
those of whichever partition's range now holds them (log entry 97). -/
def Plan.baseOf (p : Plan) (size : BudRec → Nat) (i : Nat) : Nat :=
  ((List.range i).map (fun j => if p.defines j then size (p.bud j) else 0)).sum
def Plan.ctxBase (p : Plan) (i : Nat) : Nat := p.baseOf (·.ctxs) i
def Plan.tagBase (p : Plan) (i : Nat) : Nat := p.baseOf (·.tags) i

/-- The partition whose range holds queue context `q`. -/
def Plan.partOfCtx (p : Plan) (q : Nat) : Option Nat :=
  (List.range 16).find? (fun i => p.defines i && decide (p.ctxBase i ≤ q) && decide (q < p.ctxBase i + (p.bud i).ctxs))
/-- The partition whose range holds tag `t`. -/
def Plan.partOfTag (p : Plan) (t : Nat) : Option Nat :=
  (List.range 16).find? (fun i => p.defines i && decide (p.tagBase i ≤ t) && decide (t < p.tagBase i + (p.bud i).tags))

/-- The numeric defaults of a partition (R47, R40). -/
def Plan.num (p : Plan) (i : Nat) : NumRec := (p.nums.find? (fun r => r.part == i)).getD { part := i }
/-- The record of a port (R48, R40): without a record dark, without a section management. -/
def Plan.portRec (p : Plan) (n : Nat) : PortRec :=
  match p.ports with
  | none => { port := n, role := 1 }
  | some l => (l.find? (fun r => r.port == n)).getD { port := n }
def Plan.buddy (p : Plan) (i : Nat) : Option BuddyRec := p.buddies.find? (fun r => r.part == i)
def Plan.canary (p : Plan) (i : Nat) : CanaryRec := (p.canaries.find? (fun r => r.part == i)).getD { part := i }
def Plan.ringsOf (p : Plan) (i : Nat) : List RingRec := p.rings.filter (fun r => r.part == i)
def Plan.ringRec (p : Plan) (i id : Nat) : Option RingRec := p.rings.find? (fun r => r.part == i && r.ring == id)
/-- The bypass ring of a primary ring. -/
def Plan.bypassOf (p : Plan) (i id : Nat) : List RingRec := p.rings.filter (fun r => r.part == i && r.kind != 0 && r.bypassFor == id)
/-- Phase and period of a partition's shift mark (R51). -/
def Plan.mark (p : Plan) (i : Nat) : Option (Nat × Nat) :=
  (p.bell.find? (fun e => e.kind == 1 && e.part == i)).map (fun e => (e.off, e.arg1))
/-- The heartbeat phase (R51). -/
def Plan.heartbeat (p : Plan) : Nat := ((p.bell.find? (fun e => e.kind == 7)).map (·.off)).getD 0
def Plan.defGrant (p : Plan) (i layer : Nat) : Option (List Nat) :=
  (p.grants.find? (fun g => g.part == i && g.layer == layer)).map (·.body)
/-- A partition's weight for a shared resource (R57, R58). -/
def Plan.weight (p : Plan) (res i : Nat) : Nat := ((p.shares.find? (fun r => r.res == res && r.part == i)).map (·.weight)).getD 1

/-- Usable HBM in bytes (R428): 2 GiB for each pseudo-channel that is not mapped out. -/
def popCount (m n : Nat) : Nat := ((List.range n).filter (fun i => bit m i)).length
def Blk.usable (b : Blk) : Nat := 2 ^ 31 * (Config.nPcs - popCount b.ms.mapped Config.nPcs)

/-- A memory partition (R43), with the default of R40. -/
def Plan.memRec (p : Plan) (usable idx : Nat) : MemRec :=
  match p.mems with
  | none => ⟨idx, 0, usable, 1024, 1024, 64⟩
  | some l => (l.find? (fun r => r.idx == idx)).getD ⟨idx, 0, 0, 0, 0, 1⟩
/-- The memory record that a partition names. -/
def Blk.partMem (b : Blk) (p : Nat) : MemRec :=
  b.struct.plan.memRec b.usable (((b.struct.plan.partRec p).map (·.memPart)).getD 0)

/-! ## What a commit affects (R71) -/

/-- The numbers below `n` at which two functions differ exist. -/
def differBelow {α : Type} [DecidableEq α] (n : Nat) (f g : Nat → α) : Bool := (List.range n).any (fun i => decide (f i ≠ g i))

/-- The record of a key in a section; of an absent section, the default that R40 puts in its place. A section that is
present holds at least one record (R36). -/
def recOf {α : Type} (l : List α) (key : α → Bool) (dflt : α) : Option α := if l.isEmpty then some dflt else l.find? key

/-- Two sections hold the same records, in whatever order. -/
def sameRecs {α : Type} [BEq α] (a b : List α) : Bool := a.isPerm b

/-- SHARING differs: an absent section gives every pair the weight 1 (R40, R58). -/
def sharesDiffer (old new : Plan) : Bool :=
  if old.shares.isEmpty || new.shares.isEmpty then
    differBelow (3 * Config.nParts) (fun k => old.weight (k / 16) (k % 16)) (fun k => new.weight (k / 16) (k % 16))
  else !sameRecs old.shares new.shares

/-- The device-wide records differ, or one is added or removed; an absent section counts as its default (R71, log
entry 17), which for BELL_TEMPLATE holds no event (R40). -/
def deviceDiffers (old new : Plan) : Bool :=
  let port : Plan → Nat → Option PortRec := fun p n => match p.ports with
    | none => some (p.portRec n)
    | some l => l.find? (fun r => r.port == n)
  let hb := fun (p : Plan) => p.bell.find? (fun e => e.kind == 7)
  decide (old.dev ≠ new.dev) || differBelow Config.nPorts (port old) (port new) || sharesDiffer old new
    || decide (hb old ≠ hb new)

/-- A partition's own records differ, or one is added or removed; an absent section counts as its default (R71, log
entry 17). -/
def partDiffers (old new : Plan) (usable i : Nat) : Bool :=
  let mem := fun (p : Plan) => (p.partRec i).map (fun r => p.memRec usable r.memPart)
  let bud : Plan → Option BudRec := fun p => match p.buds with
    | none => some (p.bud i)
    | some l => l.find? (fun r => r.part == i)
  let num := fun (p : Plan) => recOf p.nums (fun r => r.part == i) { part := i }
  let canary := fun (p : Plan) => recOf p.canaries (fun r => r.part == i) { part := i }
  let bell := fun (p : Plan) => p.bell.filter (fun e => e.kind != 7 && e.part == i)
  let grants := fun (p : Plan) => p.grants.filter (fun g => g.part == i)
  decide (old.partRec i ≠ new.partRec i) || decide (bud old ≠ bud new) || decide (num old ≠ num new)
    || !sameRecs (old.ringsOf i) (new.ringsOf i) || !sameRecs (bell old) (bell new)
    || decide (old.buddy i ≠ new.buddy i) || decide (canary old ≠ canary new)
    || !sameRecs (grants old) (grants new) || decide (mem old ≠ mem new)

/-- R71: a commit of plan `new` affects partition `i`. -/
def affects (old new : Plan) (usable i : Nat) : Bool :=
  (old.defines i || new.defines i) && (deviceDiffers old new || partDiffers old new usable i)

end Sys2Proof.Machine
end

