-- ==== Sys2Proof/Machine/Events.lean ====
section
/-! DEFINITION. What the device tells its host on its own: event records (R501), and the canary's inputs (R454). -/

namespace Sys2Proof.Machine

/-! ## Sessions -/

def Work.modSession (w : Work) (id : Nat) (f : Session → Session) : Work :=
  w.modHost fun h => { h with sessions := h.sessions.map (fun x => if x.id = id then f x else x) }
def Blk.session? (b : Blk) (id : Nat) : Option Session := b.host.sessions.find? (fun x => x.id = id)
def Blk.control? (b : Blk) : Option Session := b.host.sessions.find? (fun x => x.mode = 1)

/-! ## Packets of the host ports (R478, R490, R507) -/

/-- Bytes in network order, as a number. -/
def beNat (l : List Nat) : Nat := l.foldl (fun x b => 256 * x + b % 256) 0
/-- Two addresses of `n` bits agree in their first `k`. -/
def samePlace (n k a b : Nat) : Bool := a / 2 ^ (n - k) == b / 2 ^ (n - k)
/-- An IPv4-mapped address. -/
def isV4 (a : Nat) : Bool := a / 2 ^ 32 == 0xFFFF

/-- The IPv4 address of a port, 0 for none, and its `i`th further IPv6 address (R490). -/
def HostPort.v4 (p : HostPort) : Nat := beNat ((p.settings.drop 8).take 4)
def HostPort.v6 (p : HostPort) (i : Nat) : Nat := beNat ((p.settings.drop (32 + 24 * i)).take 16)
/-- The prefix length of the `i`th further IPv6 address. -/
def HostPort.v6len (p : HostPort) (i : Nat) : Nat := nth p.settings (48 + 24 * i)
/-- The link-local address of a port, from the modified EUI-64 of its MAC address (R478). -/
def HostPort.linkLocal (p : HostPort) : Nat :=
  let hi := p.mac / 2 ^ 24
  0xFE80 * 2 ^ 112 + Nat.xor hi 0x020000 * 2 ^ 40 + 0xFFFE * 2 ^ 24 + p.mac % 2 ^ 24
/-- A port holds an address (R478, R479). -/
def HostPort.holds (p : HostPort) (a : Nat) : Bool :=
  if isV4 a then p.v4 != 0 && p.v4 == a % 2 ^ 32
  else a == p.linkLocal || (decide (nth p.settings 6 ≥ 1) && a == p.v6 0) || (decide (nth p.settings 6 ≥ 2) && a == p.v6 1)

/-- An address is on the link of a port, or there is a gateway to it (R490). -/
def HostPort.canReach (p : HostPort) (a : Nat) : Bool :=
  if isV4 a then
    p.v4 != 0 && (samePlace 32 (nth p.settings 5) p.v4 (a % 2 ^ 32) || beNat ((p.settings.drop 12).take 4) != 0)
  else a / 2 ^ 118 == 0x3FA || (decide (nth p.settings 6 ≥ 1) && samePlace 128 (p.v6len 0) (p.v6 0) a)
    || (decide (nth p.settings 6 ≥ 2) && samePlace 128 (p.v6len 1) (p.v6 1) a) || beNat ((p.settings.drop 16).take 16) != 0

/-- The bytes of the frame that carries `n` bytes of UDP payload to or from an address: headers, the tag where the port has
one, and FCS, at least 64 (log entry 117). -/
def Blk.frame (b : Blk) (port addr n : Nat) : Nat :=
  max 64 (14 + (if (b.hostPort port).vlan = 0 then 0 else 4) + (if isV4 addr then 20 else 40) + 8 + n + 4)

/-- The host ports are lit (R511). -/
def BootState.lit : BootState → Bool
  | .plan | .ready | .limited | .recovery => true
  | _ => false

/-- The bytes of a frame whose size no row states. -/
def Work.anyFrame (w : Work) : Nat × Work :=
  let k := w.fresh
  (64 + Config.freeNat 7 k.1 % 9153, k.2)

/-- The bytes of the frames of a message whose size no row states. -/
def Work.anyFrames (w : Work) : Nat × Work :=
  let k := w.fresh
  (64 + Config.freeNat 7 k.1, k.2)

/-- The frames of a packet of a host port are received: their bytes are counted. -/
def Work.hostIn (w : Work) (port bytes : Nat) : Work := w.hostCtr port 0x10 bytes

/-- Send `bytes` bytes of frames by a host port; a packet that its gateway cannot take is discarded and counted. -/
def Work.hostOut (w : Work) (dest : HostTo) (bytes : Nat) (o : Out) : Work :=
  if (w.hostPort dest.port).canReach dest.addr then (w.hostCtr dest.port 0x18 bytes).emit o else w.hostCtr dest.port 0x08 1
/-- Send a datagram of `n` bytes by a host port. -/
def Work.hostSend (w : Work) (dest : HostTo) (n : Nat) (o : Out) : Work := w.hostOut dest (w.frame dest.port dest.addr n) o

/-- What a SECURED datagram has beyond the Adit datagram inside it: its own header, the SPDM session id, the length and the
MAC (R498). -/
def securedMore (s : Option Nat) : Nat := if s.isSome then 24 + 4 + 2 + 16 else 0

/-- Where the device-initiated messages of a session go (R490). -/
def Session.to_ (x : Session) : HostTo := ⟨x.port, x.addr, x.udp⟩
/-- Send a device-initiated message of a session, whose body of `n` bytes is one fragment. -/
def Work.sessionSend (w : Work) (x : Session) (n : Nat) (o : Out) : Work :=
  w.hostSend x.to_ (24 + n + securedMore x.spdm) o

/-- The datagrams that a body of `n` bytes takes (R482). -/
def fragsOf (n : Nat) : Nat := max 1 (ceilDiv n 8192)
/-- The fragments of a message whose `pre` bytes before and `post` bytes after its body are not part of it: the bytes of
each, and the piece of the body that it holds (R482). -/
def fragments (pre post : Nat) (l : List Nat) : List (Nat × List Nat) :=
  let n := pre + l.length + post
  (List.range (fragsOf n)).map fun i =>
    (min 8192 (n - 8192 * i), (l.drop (8192 * i - pre)).take (8192 * (i + 1) - pre - (8192 * i - pre)))
/-- The fragments of a device-initiated message. -/
def DevMsg.pieces (m : DevMsg) (pre post : Nat) : List (Nat × DevMsg) :=
  match m with
  | .census l => (fragments pre post l).map fun x => (x.1, .census x.2)
  | .event e => [(pre + 48 + post, .event e)]
/-- Send a message of a session, a datagram for each fragment; in an SPDM session the body is that of the SECURED message
round it (R498). -/
def Work.sessionMsg (w : Work) (x : Session) (seq : Nat) (again : Bool) (m : DevMsg) : Work :=
  let l := if x.spdm.isSome then m.pieces 30 16 else m.pieces 0 0
  w.each l.zipIdx fun w y => w.hostSend x.to_ (24 + y.1.1) (.message x.to_ x.id seq again (y.2, l.length) y.1.2)

/-- A session keeps a device-initiated message (R501): the store holds 256, and the oldest is discarded for a new one
and counted. -/
def Session.keep (x : Session) (now : Nat) (m : DevMsg) : Session :=
  let full := decide (x.unacked.length ≥ 256)
  { x with
    evSeq := (x.evSeq + 1) % 2 ^ 32
    unacked := (if full then x.unacked.drop 1 else x.unacked) ++ [⟨x.evSeq, now, m⟩]
    overflow := if full then x.overflow + 1 else x.overflow }

/-- Keep and send a device-initiated message of a session. -/
def Work.sendMsg (w : Work) (id : Nat) (m : DevMsg) : Work :=
  match w.session? id with
  | none => w
  | some s => (w.modSession id fun x => x.keep w.clk.lease m).sessionMsg s s.evSeq false m

/-- Observers receive every kind but GRANT_DEFAULTED and PLAN; the control session receives every kind (R501); a
custody session receives none (R483). -/
def eventGoes (kind mode : Nat) : Bool := mode == 1 || (mode == 0 && kind != 5 && kind != 6)

/-- Raise an Adit event (R501). -/
def Work.raise (w : Work) (kind part code shift : Nat) (payload : List Nat) : Work :=
  let e : Event := ⟨kind, part, code, shift, w.now, payload ++ List.replicate (32 - payload.length) 0⟩
  w.each (w.host.sessions.filter (fun s => eventGoes kind s.mode)) fun w s => w.sendMsg s.id (.event e)

/-! ## Canary inputs -/

/-- An input is posted at bell tick `now`: in the present interval, or, on the tick of an evaluation, in the one that it
closes (R456). -/
def Canary.post (c : Canary) (now i : Nat) (f : Nat → Nat) : Canary :=
  match c.eval with
  | some e =>
    if e.tick = now && !e.told then { c with eval := some { e with acc := updAt e.acc i f, more := true } }
    else { c with acc := updAt c.acc i f }
  | none => { c with acc := updAt c.acc i f }

/-- Change an input of a partition's canary. -/
def Work.canaryPost (w : Work) (p i : Nat) (f : Nat → Nat) : Work :=
  w.modPart p fun x => { x with canary := x.canary.post w.now i f }
/-- Add to an input of a partition's canary. -/
def Work.canaryAdd (w : Work) (p i n : Nat) : Work := w.canaryPost p i (· + n)

/-- Add to an input of every defined partition's canary. -/
def Work.canaryAll (w : Work) (i n : Nat) : Work :=
  w.each w.struct.plan.parts fun w r => w.canaryAdd r.part i n

/-! ## Memory errors -/

/-- The usable list of R427. -/
def usableList (mapped : Nat) : List Nat := (List.range Config.nPcs).filter (fun p => !bit mapped p)

/-- `hbm_locate` (R427): pseudo-channel and offset in it. -/
def hbmLocate (mapped a : Nat) : Nat × Nat :=
  let u := usableList mapped
  (u.getD (a / 256 % u.length) 0, a / 256 / u.length * 256 + a % 256)

/-- MEM_ERR_LOG of an uncorrectable error (R452). -/
def errLogOf (pc source off : Nat) : Nat := pc * 2 ^ 55 + source * 2 ^ 53 + off / 32 % 2 ^ 31

/-- An uncorrectable HBM error is recorded, counted, raised and fed to the canary (R443). -/
def Work.memUe (w : Work) (pc off source : Nat) : Work :=
  let log := errLogOf pc source off
  let fresh := !bit w.ms.suspect pc
  let w := w.modMs fun m => { m with
    errLog := BitVec.ofNat 64 log
    suspect := setBit m.suspect pc true
    pcs := m.pcs.upd {} pc (fun x => { x with ue := min (x.ue + 1) 0xFFFF }) }
  let w := (w.w1cMark (Config.memBase + 0xC0 + 8 * (pc / 64)) (2 ^ (pc % 64))).canaryAll 4 1
  let w := if fresh then w.canaryAll 3 1 else w
  w.raise 3 0xFF 0x0704 0 (leBytes 8 log)

/-- The same for an address. -/
def Work.memUeAt (w : Work) (a source : Nat) : Work :=
  let l := hbmLocate w.ms.mapped a
  w.memUe l.1 l.2 source

/-- A corrected sector is counted, and may make its pseudo-channel suspect (R441, R443). -/
def Work.memCe (w : Work) (pc : Nat) : Work :=
  let w := w.modMs fun m => { m with
    pcs := m.pcs.upd {} pc (fun x => { x with ce := min (x.ce + 1) 0xFFFFFFFF, passCe := x.passCe + 1 }) }
  let w := w.canaryAll 2 1
  if (Tab.get {} w.ms.pcs pc).passCe > w.ms.ceThreshold then
    let v := (w.modMs fun m => { m with suspect := setBit m.suspect pc true }).w1cMark (Config.memBase + 0xC0 + 8 * (pc / 64))
      (2 ^ (pc % 64))
    if bit w.ms.suspect pc then v else v.canaryAll 3 1
  else w

end Sys2Proof.Machine
end

