-- ==== Sys2Proof/Machine/Crypto.lean ====
section
/-! DEFINITION. The cryptographic functions that R515, R525 and R526 name: SHA-256 and SHA-384 (FIPS 180-4), HMAC and HKDF
(FIPS 198-1, RFC 5869), the verification of ECDSA with curve P-384 (FIPS 186-5) and that of LMS (NIST SP 800-208). The
spec names these standards and gives none of their constants (log entry 6). -/

namespace Sys2Proof.Machine

/-- The `n` bytes of a number, the most significant first. -/
def beBytes (n x : Nat) : List Nat := (leBytes n x).reverse

/-! ## SHA-256 and SHA-384 -/

/-- One of the SHA-2 functions: bytes of a word, round constants, initial words, and the rotations of its four functions;
the last number of `s0` and `s1` is a shift. -/
structure Sha where
  wordBytes : Nat
  k : List Nat
  init : List Nat
  e0 : Nat × Nat × Nat
  e1 : Nat × Nat × Nat
  s0 : Nat × Nat × Nat
  s1 : Nat × Nat × Nat
  deriving DecidableEq, Repr

/-- The first `n` primes from `a` on, by trial of `fuel` numbers. -/
def primesFrom (a : Nat) : Nat → Nat → List Nat
  | 0, _ => []
  | _, 0 => []
  | fuel + 1, n + 1 =>
    if (List.range 22).all (fun d => decide (d < 2) || decide (a ≤ d) || a % d != 0) then a :: primesFrom (a + 1) fuel n
    else primesFrom (a + 1) fuel (n + 1)
/-- The largest `y` of at most `b` bits above `r` with `y ^ k ≤ x`. -/
def rootBits (k x : Nat) : Nat → Nat → Nat
  | 0, r => r
  | b + 1, r => rootBits k x b (if (r + 2 ^ b) ^ k ≤ x then r + 2 ^ b else r)
/-- The first 64 bits of the fraction of the `k`-th root of a number below 512 (FIPS 180-4, 4.2 and 5.3). -/
def rootFrac (k x : Nat) : Nat := rootBits k (x * 2 ^ (64 * k)) 69 0 % 2 ^ 64
/-- The round constants: from the cube roots of the first 80 primes. -/
def sha512K : List Nat := (primesFrom 2 408 80).map (rootFrac 3)
/-- The initial words: from the square roots of the first eight primes for SHA-256, of the next eight for SHA-384. -/
def shaInit : List Nat := (primesFrom 2 60 16).map (rootFrac 2)
/-- The first half of a word of 64 bits. -/
def highWord (x : Nat) : Nat := x / 2 ^ 32

def Sha.s256 : Sha :=
  { wordBytes := 4, k := (sha512K.take 64).map highWord, init := (shaInit.take 8).map highWord
    e0 := (2, 13, 22), e1 := (6, 11, 25), s0 := (7, 18, 3), s1 := (17, 19, 10) }
def Sha.s384 : Sha :=
  { wordBytes := 8, k := sha512K, init := shaInit.drop 8
    e0 := (28, 34, 39), e1 := (14, 18, 41), s0 := (1, 8, 7), s1 := (19, 61, 6) }

/-- Bits of a word. -/
def Sha.bits (h : Sha) : Nat := 8 * h.wordBytes
/-- The sum of words. -/
def Sha.add (h : Sha) (x y : Nat) : Nat := (x + y) % 2 ^ h.bits
/-- A word rotated right. -/
def Sha.rotr (h : Sha) (x n : Nat) : Nat := Nat.lor (Nat.shiftRight x n) (Nat.shiftLeft x (h.bits - n) % 2 ^ h.bits)
/-- Three rotations, and two rotations and a shift. -/
def Sha.rot3 (h : Sha) (r : Nat × Nat × Nat) (x : Nat) : Nat := Nat.xor (Nat.xor (h.rotr x r.1) (h.rotr x r.2.1)) (h.rotr x r.2.2)
def Sha.rot2 (h : Sha) (r : Nat × Nat × Nat) (x : Nat) : Nat :=
  Nat.xor (Nat.xor (h.rotr x r.1) (h.rotr x r.2.1)) (Nat.shiftRight x r.2.2)

/-- One round: the eight working words, and the next 16 words of the message schedule. -/
def Sha.round (h : Sha) (x : List Nat × List Nat) (k : Nat) : List Nat × List Nat :=
  match x.1 with
  | [a, b, c, d, e, f, g, i] =>
    let w := nth x.2
    let ch := Nat.xor (Nat.land e f) (Nat.land (Nat.xor e (2 ^ h.bits - 1)) g)
    let maj := Nat.xor (Nat.xor (Nat.land a b) (Nat.land a c)) (Nat.land b c)
    let t1 := i + h.rot3 h.e1 e + ch + k + w 0
    let t2 := h.rot3 h.e0 a + maj
    ([h.add t1 t2, a, b, c, h.add d t1, e, f, g],
      x.2.drop 1 ++ [h.add (h.rot2 h.s1 (w 14) + w 9) (h.rot2 h.s0 (w 1) + w 0)])
  | _ => x

/-- The words of a block. -/
def Sha.words (h : Sha) (l : List Nat) : List Nat := (List.range 16).map fun i => beNat ((l.drop (h.wordBytes * i)).take h.wordBytes)
/-- One block joins the hash value. -/
def Sha.block (h : Sha) (v l : List Nat) : List Nat := List.zipWith h.add v ((h.k.foldl h.round (v, h.words l)).1)
/-- The padded message. -/
def Sha.pad (h : Sha) (l : List Nat) : List Nat :=
  let n := l.length + 1 + 2 * h.wordBytes
  l ++ [0x80] ++ List.replicate (ceilDiv n (16 * h.wordBytes) * (16 * h.wordBytes) - n) 0 ++ beBytes (2 * h.wordBytes) (8 * l.length)
/-- The hash value after `n` blocks. -/
def Sha.blocks (h : Sha) : Nat → List Nat → List Nat → List Nat
  | 0, v, _ => v
  | n + 1, v, l => Sha.blocks h n (h.block v l) (l.drop (16 * h.wordBytes))
/-- The bytes of the final hash value. -/
def Sha.hash (h : Sha) (l : List Nat) : List Nat :=
  let p := h.pad l
  (h.blocks (p.length / (16 * h.wordBytes)) h.init p).flatMap (beBytes h.wordBytes)

/-- SHA-256 and SHA-384 of bytes, as bytes. -/
def sha256 (l : List Nat) : List Nat := Sha.s256.hash l
def sha384 (l : List Nat) : List Nat := (Sha.s384.hash l).take 48

/-- HMAC-SHA-384. -/
def hmac384 (key msg : List Nat) : List Nat :=
  let k := if key.length > 128 then sha384 key else key
  let k := k ++ List.replicate (128 - k.length) 0
  sha384 (k.map (Nat.xor 0x5C) ++ sha384 (k.map (Nat.xor 0x36) ++ msg))
/-- HKDF-SHA-384 with 48 bytes of output. -/
def hkdf384 (secret salt info : List Nat) : List Nat := hmac384 (hmac384 salt secret) (info ++ [1])

/-! ## ECDSA with curve P-384 -/

def ecP : Nat := 2 ^ 384 - 2 ^ 128 - 2 ^ 96 + 2 ^ 32 - 1
def ecN : Nat := 0xffffffffffffffffffffffffffffffffffffffffffffffffc7634d81f4372ddf581a0db248b0a77aecec196accc52973
def ecG : Nat × Nat :=
  (0xaa87ca22be8b05378eb1c71ef320ad746e1d3b628ba79b9859f741e082542a385502f25dbf55296c3a545e3872760ab7,
   0x3617de4a96262c6f5d9e98bf9292dc29f8f41dbd289a147ce9da3113b5f0b8c00a60b1ce1d7e819d7a431d7c90ea0e5f)

/-- `b` to the power `e`, which has at most `k` bits, modulo `m`. -/
def powMod (m b : Nat) : Nat → Nat → Nat
  | 0, _ => 1 % m
  | k + 1, e =>
    let h := powMod m b k (e / 2)
    let s := h * h % m
    if e % 2 = 1 then s * b % m else s
/-- The inverse modulo a prime of 384 bits. -/
def invMod (m x : Nat) : Nat := powMod m x 384 (m - 2)

/-- Points of the curve: none is the point at infinity. The curve has a = -3. -/
def ecAdd (x y : Option (Nat × Nat)) : Option (Nat × Nat) :=
  match x, y with
  | none, _ => y
  | _, none => x
  | some (x1, y1), some (x2, y2) =>
    if x1 = x2 ∧ (y1 + y2) % ecP = 0 then none
    else
      let l := if x1 = x2 then (3 * x1 * x1 + ecP - 3) * invMod ecP (2 * y1 % ecP) % ecP
        else (y2 + ecP - y1) * invMod ecP ((x2 + ecP - x1) % ecP) % ecP
      let x3 := (l * l + 2 * ecP - x1 - x2) % ecP
      some (x3, (l * (x1 + ecP - x3) + ecP - y1) % ecP)
/-- A multiple, by a number of at most `k` bits, of a point. -/
def ecMul (q : Option (Nat × Nat)) : Nat → Nat → Option (Nat × Nat)
  | 0, _ => none
  | k + 1, e =>
    let h := ecMul q k (e / 2)
    let d := ecAdd h h
    if e % 2 = 1 then ecAdd d q else d
/-- The public key of a private key, as its two coordinates of 48 bytes. -/
def ecPublic (d : Nat) : List Nat :=
  match ecMul (some ecG) 384 d with
  | some q => beBytes 48 q.1 ++ beBytes 48 q.2
  | none => []

/-- R515: r and s, each 48 bytes, are a signature of a message by the key `q`. -/
def ecdsaOk (q : Nat × Nat) (msg sig : List Nat) : Bool :=
  let r := beNat (sig.take 48)
  let s := beNat ((sig.drop 48).take 48)
  let v := invMod ecN s
  decide (sig.length = 96) && decide (1 ≤ r) && decide (r < ecN) && decide (1 ≤ s) && decide (s < ecN)
    && match ecAdd (ecMul (some ecG) 384 (beNat (sha384 msg) * v % ecN)) (ecMul (some q) 384 (r * v % ecN)) with
      | some x => x.1 % ecN == r
      | none => false

/-! ## LMS_SHA256_M32_H15 with LMOTS_SHA256_N32_W4 -/

/-- Digit `i` of 4 bits. -/
def lmsDigit (l : List Nat) (i : Nat) : Nat := if i % 2 = 0 then nth l (i / 2) / 16 % 16 else nth l (i / 2) % 16
/-- Chain `i` from digit `a` on, `n` steps. -/
def lmsChain (pre : List Nat) (i : Nat) : Nat → Nat → List Nat → List Nat
  | 0, _, y => y
  | n + 1, a, y => lmsChain pre i n (a + 1) (sha256 (pre ++ beBytes 2 i ++ [a] ++ y))
/-- The way from a leaf's node up to the root, by a path of 32-byte nodes. -/
def lmsUp (id : List Nat) : Nat → Nat → List Nat → List Nat → List Nat
  | 0, _, _, y => y
  | n + 1, node, path, y =>
    let p := path.take 32
    let pre := id ++ beBytes 4 (node / 2) ++ [0x83, 0x83]
    lmsUp id n (node / 2) (path.drop 32) (sha256 (if node % 2 = 1 then pre ++ p ++ y else pre ++ y ++ p))

/-- R515: `sig` is a signature of a message by the public key `key` (its two types, its identifier, its root). -/
def lmsOk (key msg sig : List Nat) : Bool :=
  let id := (key.drop 8).take 16
  let q := beNat (sig.take 4)
  let pre := id ++ beBytes 4 q
  let d := sha256 (pre ++ [0x81, 0x81] ++ (sig.drop 8).take 32 ++ msg)
  let sum := ((List.range 64).map (fun i => 15 - lmsDigit d i)).sum
  let dc := d ++ beBytes 2 (16 * sum)
  let z := (List.range 67).flatMap fun i =>
    let a := lmsDigit dc i
    lmsChain pre i (15 - a) a ((sig.drop (40 + 32 * i)).take 32)
  let leaf := sha256 (id ++ beBytes 4 (2 ^ 15 + q) ++ [0x82, 0x82] ++ sha256 (pre ++ [0x80, 0x80] ++ z))
  decide (key.length = 56) && decide (sig.length = 2668) && beNat (key.take 4) == 7 && beNat ((key.drop 4).take 4) == 3
    && beNat ((sig.drop 4).take 4) == 3 && beNat ((sig.drop 2184).take 4) == 7 && decide (q < 2 ^ 15)
    && lmsUp id 15 (2 ^ 15 + q) (sig.drop 2188) leaf == (key.drop 24).take 32

end Sys2Proof.Machine
end

