-- ==== Sys2Proof/Machine/Memory.lean ====
section
/-! DEFINITION. Device memory as commands and transactions reach it (13_memory_system.md, R29, R30): what an address
is, whose it is, its errors, and the regulators. -/

namespace Sys2Proof.Machine

/-- What lies at an address (R29, R428). -/
inductive Place where
  | hbm | beyond | gal (g : Nat) | face (f : Nat) | regs | reserved
  deriving DecidableEq, Repr

/-- Register blocks (R29). -/
def isRegs (a : Nat) : Bool :=
  (decide (Config.devBase ≤ a) && decide (a < Config.devBase + 0x10000000))
  || (decide (Config.galRegBase ≤ a) && decide (a < Config.galRegBase + 16 * 0x100000))
  || (decide (Config.faceRegBase ≤ a) && decide (a < Config.faceRegBase + 192 * 0x10000))
  || (decide (Config.fabBase ≤ a) && decide (a < Config.fabBase + 0x1000000))
  || (decide (Config.bellBase ≤ a) && decide (a < Config.bellBase + 0x1000000))
  || (decide (Config.memBase ≤ a) && decide (a < Config.memBase + 0x1000000))
  || (decide (Config.hfcBase ≤ a) && decide (a < Config.hfcBase + 0x1000000))

/-- R29, R428. `usable` is the usable HBM in bytes. -/
def place (usable a : Nat) : Place :=
  if a < usable then .hbm
  else if a < Config.hbmEnd then .beyond
  else if Config.galBase ≤ a ∧ a < Config.galBase + 16 * Config.galSize then .gal ((a - Config.galBase) / Config.galSize)
  else if Config.faceBase ≤ a ∧ a < Config.faceBase + 192 * Config.faceSize then .face ((a - Config.faceBase) / Config.faceSize)
  else if isRegs a then .regs
  else .reserved

/-- How many bytes of a range lie in a region, its end excluded. -/
def overlap (a len : Nat) (r : Nat × Nat) : Nat := min (a + len) r.2 - max a r.1

/-- The store of a gallery, and of a face (R29). -/
def galStore (g : Nat) : Nat × Nat := (Config.galBase + Config.galSize * g, Config.galBase + Config.galSize * (g + 1))
def faceStore (f : Nat) : Nat × Nat := (Config.faceBase + Config.faceSize * f, Config.faceBase + Config.faceSize * (f + 1))

/-- The store regions of partition `p`: its galleries' stores, and the face stores of each of them (R432). -/
def Blk.storesOf (b : Blk) (p : Nat) : List (Nat × Nat) :=
  ((List.range Config.nGals).filter (fun g => b.struct.plan.partOfGal g == some p)).flatMap fun g =>
    galStore g :: (List.range 12).map (fun i => faceStore (12 * g + i))

/-- The bytes from `a` lie in partition `p`'s memory (R432): its HBM range, or the stores of its galleries. -/
def Blk.inPart (b : Blk) (p a len : Nat) : Bool :=
  let m := b.partMem p
  len == 0
    || (if a < Config.hbmEnd then decide (m.base ≤ a) && decide (a + len ≤ min (m.base + m.size) b.usable)
        else decide (((b.storesOf p).map (overlap a len)).sum = len))

/-- A range lies wholly in one place of partition `p` (R142): its HBM range, one face's store or one gallery's. -/
def Blk.onePlace (b : Blk) (p a len : Nat) : Bool :=
  b.inPart p a len && (decide (a < Config.hbmEnd) || (b.storesOf p).any (fun r => decide (r.1 ≤ a) && decide (a + len ≤ r.2)))

/-- The populated regions of R29. -/
def populated : List (Nat × Nat) :=
  [(0, Config.hbmEnd), (Config.galBase, Config.galBase + 16 * Config.galSize),
   (Config.faceBase, Config.faceBase + 192 * Config.faceSize), (Config.devBase, Config.devBase + 0x10000000),
   (Config.galRegBase, Config.galRegBase + 16 * 0x100000), (Config.faceRegBase, Config.faceRegBase + 192 * 0x10000),
   (Config.fabBase, Config.fabBase + 0x1000000), (Config.bellBase, Config.bellBase + 0x1000000),
   (Config.memBase, Config.memBase + 0x1000000), (Config.hfcBase, Config.hfcBase + 0x1000000)]

/-- What an access to a range meets that no partition's memory holds (R30, R428): 0x0701 where it touches a reserved
address, else 0x0702 where it touches HBM at or beyond the usable capacity, else 0. -/
def Blk.rangeCode (b : Blk) (a len : Nat) : Nat :=
  if len = 0 then 0
  else if (populated.map (overlap a len)).sum < len then 0x0701
  else if 0 < overlap a len (b.usable, Config.hbmEnd) then 0x0702
  else 0

/-- An address range in HBM inside a partition's memory partition (R81). -/
def Blk.inHbmPart (b : Blk) (p a len : Nat) : Bool :=
  let m := b.partMem p
  decide (m.base ≤ a) && decide (a + len ≤ m.base + m.size) && decide (a + len ≤ b.usable)

/-- The code that an access of a command of partition `p` faults with, 0 for none: a reserved address 0x0701, HBM beyond
the usable capacity 0x0702 (R428), anything else outside the partition's memory 0x0703 (R432, log entry 19). -/
def Blk.accessCode (b : Blk) (p a len : Nat) : Nat :=
  if len = 0 ∨ b.inPart p a len then 0
  else match b.rangeCode a len with
    | 0 => 0x0703
    | c => c

/-- The first sector or word of a range that holds an uncorrectable error: its address and code (R441, R450). -/
def Blk.eccAt (b : Blk) (a len : Nat) : Option (Nat × Nat) :=
  if len = 0 then none
  else if a < Config.hbmEnd then
    (b.ms.badSectors.find? (fun s => decide (a / 32 ≤ s) && decide (s ≤ (a + len - 1) / 32))).map (fun s => (32 * s, 0x0704))
  else (b.ms.badWords.find? (fun s => decide (a / 8 ≤ s) && decide (s ≤ (a + len - 1) / 8))).map (fun s => (8 * s, 0x0705))

/-- The code that a read of a command faults with. -/
def Blk.readCode (b : Blk) (p a len : Nat) : Nat :=
  match b.accessCode p a len with
  | 0 => ((b.eccAt a len).map (·.2)).getD 0
  | c => c

/-- Sector or word `s`, of `unit` bytes, is in some range. -/
def inRanges (unit : Nat) (l : List (Nat × Nat)) (s : Nat) : Bool :=
  l.any (fun r => decide (0 < r.2) && decide (r.1 / unit ≤ s) && decide (s ≤ (r.1 + r.2 - 1) / unit))

/-- An uncorrectable store word is counted in its face or gallery (R450). -/
def Work.hardWord (w : Work) (s : Nat) : Work :=
  match place w.usable (8 * s) with
  | .face f => w.faceCtr f 0x0808 1
  | .gal g => w.galCtr g 0x0208 1
  | _ => w
/-- The uncorrectable errors met by a read: each is counted and reported (R443, R450). `source` as in MEM_ERR_LOG. -/
def Work.eccMet (w : Work) (a len source : Nat) : Work :=
  if a < Config.hbmEnd then
    w.each (w.ms.badSectors.filter (inRanges 32 [(a, len)])) fun w s => w.memUeAt (32 * s) source
  else w.each (w.ms.badWords.filter (inRanges 8 [(a, len)])) Work.hardWord
/-- The range of a read that fails with a code, where it met an uncorrectable error. -/
def eccRange (code : Nat) (r : Nat × Nat) : Option (Nat × Nat) := if code = 0x0704 ∨ code = 0x0705 then some r else none

/-! ## Regulators (R433, R434) -/

/-- `k` ticks' refill of both buckets, capped at their depth. -/
def gain (m : MemRec) (k : Nat) (b : Bucket) : Bucket :=
  let depth : Int := m.burst * 10240
  { b with g := min depth (b.g + m.guar * 576 * k), c := min depth (b.c + m.ceil * 576 * k) }

/-- One tick's refill, unless a request that waited has taken it already. -/
def refill (m : MemRec) (b : Bucket) : Bucket :=
  if b.ahead > 0 then { b with ahead := b.ahead - 1 } else gain m 1 b

/-- The ticks that a request waits until C is above 0. -/
def ceilWait (m : MemRec) (b : Bucket) : Nat :=
  if b.c > 0 ∨ m.ceil = 0 then 0 else (-b.c).toNat / (m.ceil * 576) + 1

/-- Admit one line request of `n` bytes (R434): it waits until C is above 0, then both buckets lose ten times its bytes. -/
def admitLine (m : MemRec) (n : Nat) (b : Bucket) : Bucket :=
  let k := ceilWait m b
  let b := gain m k b
  { g := b.g - 10 * n, c := b.c - 10 * n, ahead := b.ahead + k }

/-- The sizes of the line requests that a range is issued as: each covers at most one 256-byte line (R434). The first
argument bounds their number. -/
def lineSizes : Nat → Nat → Nat → List Nat
  | 0, _, _ => []
  | k + 1, a, len =>
    if len = 0 then []
    else
      let n := min len (256 - a % 256)
      n :: lineSizes k (a + n) (len - n)

/-- Join a range to ranges that stand apart, in ascending order: what it overlaps or touches becomes one with it. -/
def joinRange : Nat × Nat → List (Nat × Nat) → List (Nat × Nat)
  | r, [] => [r]
  | r, s :: t =>
    if r.1 + r.2 < s.1 then r :: s :: t
    else if s.1 + s.2 < r.1 then s :: joinRange r t
    else joinRange (min r.1 s.1, max (r.1 + r.2) (s.1 + s.2) - min r.1 s.1) t
/-- The bytes of ranges, each once: ranges that stand apart, in ascending order. -/
def joinRanges (l : List (Nat × Nat)) : List (Nat × Nat) := (l.filter (fun r => decide (0 < r.2))).foldl (fun acc r => joinRange r acc) []

/-- The line requests of the HBM ranges (address, length) among ranges. -/
def hbmLines (l : List (Nat × Nat)) : List Nat :=
  (l.filter (fun r => decide (r.1 < Config.hbmEnd))).flatMap (fun r => lineSizes (r.2 / 256 + 2) r.1 r.2)

/-- Charge line requests to the regulator of a partition's memory partition; the ticks in which they wait on C are
counted (R433, R434, R452). -/
def Work.charge (w : Work) (p : Nat) (lines : List Nat) : Work :=
  let m := w.partMem p
  if lines.isEmpty then w
  else
    let was := Tab.get ({} : Bucket) w.ms.buckets m.idx
    let b := lines.foldl (fun b n => admitLine m n b) was
    ((w.modMs fun x => { x with buckets := x.buckets.set {} m.idx b }).memCtr (0x100 + 8 * m.idx) lines.sum).memCtr
      (0x180 + 8 * m.idx) (b.ahead - was.ahead)

/-- The corrected HBM sectors met by reads are counted, each against its pseudo-channel, and stay (R441). -/
def Work.softHbm (w : Work) (l : List (Nat × Nat)) : Work :=
  w.each (w.ms.softSectors.filter (inRanges 32 l)) fun w s => w.memCe (hbmLocate w.ms.mapped (32 * s)).1
/-- A corrected store word is counted in its face or gallery (R450). -/
def Work.softWord (w : Work) (s : Nat) : Work :=
  match place w.usable (8 * s) with
  | .face f => w.faceCtr f 0x0800 1
  | .gal g => w.galCtr g 0x0200 1
  | _ => w
/-- The corrected store words met by reads are counted and written back (R450). -/
def Work.softStore (w : Work) (l : List (Nat × Nat)) : Work :=
  (w.each (w.ms.softWords.filter (inRanges 8 l)) Work.softWord).modMs fun m => { m with
    softWords := m.softWords.filter (fun s => !inRanges 8 l s) }
/-- Corrected errors met by reads. -/
def Work.softMet (w : Work) (l : List (Nat × Nat)) : Work := (w.softHbm l).softStore l

/-- Reads on behalf of a partition: their corrected errors counted, their HBM bytes charged, each once. -/
def Work.reading (w : Work) (p : Nat) (l : List (Nat × Nat)) : Work := (w.softMet l).charge p (hbmLines (joinRanges l))
/-- Reads of which the last may have met an uncorrectable error: they are charged (R433) and the errors reported. -/
def Work.readingTo (w : Work) (p : Nat) (l : List (Nat × Nat)) (bad : Option (Nat × Nat)) : Work :=
  match bad with
  | none => w.reading p l
  | some r => (w.reading p (l ++ [r])).eccMet r.1 r.2 0

/-- The errors met by a read of the headframe controller: the source that MEM_ERR_LOG shows for it is not stated (R452). -/
def Work.hfcEcc (w : Work) (a n : Nat) : Work :=
  let k := w.fresh
  k.2.eccMet a n (Config.freeNat 6 k.1 % 4)

/-! ## Writes -/

/-- Every byte of HBM sector `s` or store word `s` is among written addresses. -/
def covers (unit : Nat) (addrs : List Nat) (s : Nat) : Bool := (List.range unit).all (fun i => decide (unit * s + i ∈ addrs))

/-- A write that covers a whole sector or word clears its error (R441). -/
def Work.cleared (w : Work) (addrs : List Nat) : Work :=
  w.modMs fun m => { m with
    badSectors := m.badSectors.filter (fun s => !covers 32 addrs s)
    badWords := m.badWords.filter (fun s => !covers 8 addrs s)
    softSectors := m.softSectors.filter (fun s => !covers 32 addrs s)
    softWords := m.softWords.filter (fun s => !covers 8 addrs s) }

/-- HBM is closed to normal traffic: repair access is on (R447). -/
def Blk.hbmShut (b : Blk) (a : Nat) : Bool := b.ms.repairEn && decide (a < Config.hbmEnd)

/-- Write bytes on behalf of no partition (the headframe controller), clearing the errors that the write covers; under
repair access nothing is written to HBM (R447). -/
def Work.storeHfc (w : Work) (a : Nat) (l : List Nat) : Work :=
  if w.hbmShut a then w else (w.put a l).cleared ((List.range l.length).map (a + ·))

/-- Write bytes on behalf of a partition: the same, and charged. -/
def Work.store (w : Work) (p a : Nat) (l : List Nat) : Work :=
  if w.hbmShut a then w else (w.storeHfc a l).charge p (hbmLines [(a, l.length)])

end Sys2Proof.Machine
end

