-- ==== Sys2Proof/Machine/Records.lean ====
section
/-! DEFINITION. Shift numbers, tags, tally records, writebacks and faults (03_command_streams.md). -/

namespace Sys2Proof.Machine

/-! ## The command's bytes (R95, R96) -/

/-- `n` bytes of a command from byte `lo`. -/
def cb (cmd lo n : Nat) : Nat := cmd / 2 ^ (8 * lo) % 2 ^ (8 * n)
def opOf (cmd : Nat) : Nat := cb cmd 0 1
def flagOf (cmd i : Nat) : Bool := bit (cb cmd 1 1) i
def fOrd (cmd : Nat) : Bool := flagOf cmd 0
def fSig (cmd : Nat) : Bool := flagOf cmd 1
def fRec (cmd : Nat) : Bool := flagOf cmd 2
def fSatWatch (cmd : Nat) : Bool := flagOf cmd 3
def fNan (cmd : Nat) : Nat := bits (cb cmd 1 1) 5 4
def tagOf (cmd : Nat) : Nat := cb cmd 2 2

/-! ## Shifts (R105 to R107) -/

/-- The 64-bit shift count of a partition now (R105). -/
def Blk.shift64 (b : Blk) (p : Nat) : Nat :=
  match b.struct.plan.mark p with
  | none => 0
  | some (phase, period) => if b.now < phase then 0 else (b.now - phase) / period
/-- The current shift (R105). -/
def Blk.curShift (b : Blk) (p : Nat) : W32 := BitVec.ofNat 32 (b.shift64 p)
/-- R106: shift `s` is ahead of shift `c`. -/
def shiftAhead (s c : W32) : Bool := decide (1 ≤ (s - c).toNat) && decide ((s - c).toNat < 2 ^ 31)
/-- The 64-bit count that `s` names: the nearest to the current one (R107). Of two counts that lie exactly 2^31 away on
either side it is the lower one (log entry 105). -/
def nearest64 (cur : Nat) (s : W32) : Nat :=
  let c : Int := cur + s32 (s - BitVec.ofNat 32 cur).toNat
  if c < 0 then (c + 2 ^ 32).toNat else c.toNat
/-- The shift mark of shift `s` (R107). -/
def Blk.markTick (b : Blk) (p : Nat) (s : W32) : Nat :=
  match b.struct.plan.mark p with
  | none => 0
  | some (phase, period) => phase + period * nearest64 (b.shift64 p) s

/-! ## Tags (R112 to R118) -/

/-- R113: a wait for `v` is satisfied by counter `c`. -/
def waitMet (c v : W32) : Bool := decide ((c - v).toNat < 2 ^ 31)

/-- Give a tag a value and evaluate every wait on it (R113): a satisfied TAG_WAIT takes its stamp. -/
def Work.tagTo (w : Work) (t : Nat) (v : W32) : Work :=
  let w := w.setTag t v
  { w with flights := w.flights.map fun x =>
      if opOf x.cmd = 0x11 ∧ x.phase = .wait ∧ tagOf x.cmd = t ∧ waitMet v (BitVec.ofNat 32 (cb x.cmd 4 4)) then
        { x with phase := .done, wm := 1, stamp := some (x.stamp.getD w.now) }
      else x }
/-- Add to a tag (R114, R118). -/
def Work.tagAdd (w : Work) (t v : Nat) : Work := w.tagTo t (w.tag t + BitVec.ofNat 32 v)

/-! ## The tally (R119 to R123) -/

/-- Free records of a tally ring (R123). -/
def Ctx.tallyFree (c : Ctx) : Nat := 2 ^ c.tallyLog2 - (c.produced - c.consumed)
/-- Records that the issued commands of a context may still write (R90). -/
def Blk.reserved (b : Blk) (q : Nat) : Nat := ((b.flights.filter (fun x => x.q = q)).map (·.recs)).sum

/-- The phase bit of the nth record (R122). -/
def phaseBit (log2 n : Nat) : Nat := (n / 2 ^ log2 + 1) % 2
/-- The bytes of a record (R119). -/
def recBytes (log2 n : Nat) (r : Rec) : List Nat :=
  leBytes 8 r.seq ++ leBytes 6 r.stamp ++ leBytes 1 r.opcode ++ leBytes 1 r.status ++ leBytes 4 r.shift
    ++ leBytes 4 r.wm ++ leBytes 2 r.code ++ leBytes 2 r.sub ++ leBytes 1 r.unit ++ leBytes 1 (phaseBit log2 n) ++ [0, 0]

/-- The least of a list and a start. -/
def minOf (d : Nat) (l : List Nat) : Nat := l.foldl min d

/-- The lowest sequence number whose command has not retired (R88). -/
def Blk.retiredBelow (b : Blk) (q : Nat) : Nat :=
  let c := b.ctx q
  let unissued := c.head - c.buf.length
  minOf unissued (((b.flights.filter (fun x => x.q = q)).map (·.seq)) ++ (if c.calls.isEmpty then [] else [c.subSeq])
    ++ c.faultSeq.toList)

def CState.code : CState → Nat
  | .idle => 0 | .active => 1 | .stopping => 2 | .stopped => 3 | .faulted => 4

/-- The partition of a context. -/
def Blk.partOf (b : Blk) (q : Nat) : Nat := (b.struct.plan.partOfCtx q).getD 0

/-- The 16-byte writeback (R88). -/
def Work.writeback (w : Work) (q : Nat) : Work :=
  let c := w.ctx q
  if c.wb = 0 then w
  else w.store (w.partOf q) c.wb
    (leBytes 8 (w.retiredBelow q) ++ leBytes 4 c.produced ++ [c.st.code, 0, 0, 0])

/-- Write a record and the writeback (R121, R88). An unacknowledged record is never overwritten (R123): where the ring has no
room (log entry 106) the record waits for it. -/
def Work.writeRec (w : Work) (q : Nat) (r : Rec) : Work :=
  let c := w.ctx q
  if c.tallyFree = 0 then w.modCtx q fun c => { c with owed := c.owed ++ [r] }
  else
  let w := w.store (w.partOf q) (c.tallyBase + 32 * (c.produced % 2 ^ c.tallyLog2)) (recBytes c.tallyLog2 c.produced r)
  (w.modCtx q fun c => { c with produced := c.produced + 1 }).writeback q

/-- Write a fault record that no issued command has room for, or owe it until the ring has room (R85) and HBM is open
(R447). -/
def Work.oweRec (w : Work) (q : Nat) (r : Rec) : Work :=
  let c := w.ctx q
  if c.owed.isEmpty ∧ c.tallyFree > w.reserved q ∧ !w.hbmShut c.tallyBase then w.writeRec q r
  else w.modCtx q fun c => { c with owed := c.owed ++ [r] }

/-- Change the state of a context, with its writeback (R86, R88). -/
def Work.ctxState (w : Work) (q : Nat) (st : CState) : Work :=
  if (w.ctx q).st = st then w else (w.modCtx q fun c => { c with st := st }).writeback q

/-! ## Faults -/

/-- R474: a fault sets the drop mark of its shift, unless the command is a collective or a resilience command. -/
def Work.dropMark (w : Work) (p op : Nat) (s : W32) : Work :=
  if op = 0x80 ∨ op = 0x81 ∨ op = 0x82 ∨ op = 0xA0 ∨ op = 0xA1 then w
  else (w.modPart p fun x => { x with
    dropped := setBit x.dropped (s.toNat % 4) true, lastMarked := s.toNat }).devCtr 0x0B18 1

/-- What a command's fault leaves in its context before its record and writeback are written: its last fault and the
place to resume from (R87, R88). -/
def Work.faultCtx (w : Work) (q op seq code : Nat) : Work :=
  w.modCtx q fun c => { c with
    lastFault := code
    faultSeq := some (minOf seq c.faultSeq.toList)
    secSet := if op = 0xA0 then { c.secSet with complete := false } else c.secSet }

/-- What a fault code feeds to the canary of its partition (R454). -/
def Work.faultCanary (w : Work) (p code : Nat) : Work :=
  let w := if code = 0x0401 ∨ code = 0x02E9 then w.canaryAdd p 1 1 else w
  if code = 0x0705 then w.canaryAdd p 4 1 else w

/-- What a command's fault does after its record: the context state, the drop mark and the canary (R86, R454, R474).
`codes` are those of its records. -/
def Work.faultMarks (w : Work) (q p op : Nat) (codes : List Nat) (s : W32) : Work :=
  let w := if (w.ctx q).st = .active then w.ctxState q .faulted else w
  (w.dropMark p op s).each codes fun w c => w.faultCanary p c

/-- The unit byte of a record (R119). -/
def unitByte (idx : Nat) (half : Option Nat) : Nat :=
  match half with
  | none => idx % 16
  | some h => idx % 16 + 16 * h + 32

/-- The record of an issued command. -/
def flightRec (b : Blk) (x : Flight) (status code wm : Nat) : Rec :=
  ⟨x.seq, b.now, opOf x.cmd, status, x.shift.toNat, wm % 2 ^ 32, code, x.sub, unitByte x.unit none⟩

/-- The halves that a split TILE_MM has (R185, R186), none for any other command. -/
def Blk.splitHalves (b : Blk) (p cmd : Nat) : List Nat :=
  if opOf cmd = 0x30 ∧ bit (cb cmd 6 2) 12 then
    (if (b.desc p (bits (cb cmd 4 2) 11 0)).img.ext.getD 1 0 > 32 then [0, 1] else [0])
  else []

/-- The records of a fault that takes a whole command: one, or one for each half of a split tile (R121, R187). -/
def faultRecs (b : Blk) (x : Flight) (code wm : Nat) : List Rec :=
  match b.splitHalves x.part x.cmd with
  | [] => [flightRec b x 3 code wm]
  | hs => hs.map fun h => { flightRec b x 3 code wm with unit := unitByte x.unit (some h) }

/-- Fault an issued command: its records, its marks, and it is no longer issued (R121, R124). -/
def Work.faultFlight (w : Work) (x : Flight) (code wm : Nat) : Work :=
  let w := (w.delFlight x.id).faultCtx x.q (opOf x.cmd) x.seq code
  let w := w.each (faultRecs w.toBlk x code wm) fun w r => w.writeRec x.q r
  let w := if code = 0x0401 then w.faceCtr x.face 0x0408 1 else w
  w.faultMarks x.q x.part (opOf x.cmd) [code] x.shift

/-- Mark an issued command run: `wm` is its watermark (R124). -/
def Work.doneFlight (w : Work) (x : Flight) (wm : Nat) : Work :=
  w.modFlight x.id fun y => { y with phase := .done, wm := wm }

/-! ## Looking up what a row runs -/

/-- The issued command of context `q` with opcode `op` that waits for its row (log entry 9). -/
def Blk.waiting (b : Blk) (q op : Nat) : Option Flight :=
  b.flights.find? (fun x => x.q = q ∧ opOf x.cmd = op ∧ x.phase = .wait)
/-- The command with opcode `op` that runs on unit `u` of face `f`: of two that a stope array or a riffle engine has
taken (R558) the one that streams, which is the older. -/
def Blk.runningOn (b : Blk) (f u op : Nat) : Option Flight :=
  b.flights.find? (fun x => x.face = f ∧ opOf x.cmd = op ∧ x.phase = .running u
    ∧ b.flights.all (fun y => !(y.face == f && y.cls == x.cls && y.phase == .running u && decide (y.id < x.id))))

end Sys2Proof.Machine
end

