-- ==== Sys2Proof/Machine/Links.lean ====
section
/-! DEFINITION. Fabric transactions as a command sees them (R363 to R373): routes, the flits of a transaction, the egress
queue, the receiver's checks, and settlement. -/

namespace Sys2Proof.Machine

/-- The device's own shaft position (R46). -/
def Blk.ownPos (b : Blk) : Nat := b.struct.plan.dev.pos
/-- A port is UP in the data role. -/
def Port.upData (p : Port) : Bool := p.st == .up && p.role == 2
/-- The egress port for a position (R369). -/
def Blk.egress (b : Blk) (t : Nat) : Option Nat :=
  let r := Tab.get {} b.fab.routes t
  if !r.valid then none
  else if r.primary < 36 && (b.port r.primary).upData then some r.primary
  else if r.alternate < 36 && (b.port r.alternate).upData then some r.alternate
  else none
/-- R369. -/
def Blk.reachable (b : Blk) (t : Nat) : Bool := t == b.ownPos || (b.egress t).isSome
def Blk.isLost (b : Blk) (t : Nat) : Bool := bit b.fab.lost t

/-- The code of an outcome (R372); an uncorrectable read's is of R441. -/
def TxnSt.code : TxnSt → Nat
  | .refused => 0x0612 | .uncorrectable => 0x0704 | .unreachable => 0x0610 | .lost => 0x0611
  | .opened | .accepted => 0

/-! ## Flits (R363) -/

/-- A flit as it leaves a port with link sequence number `seq`: a new flit has 15 hops remaining (R369), and it carries
the port's link_ack and the credits that it owes. The partition has 4 bits in a flit (R363): of a TAG_REMOTE's partition byte
above 15 another device sees the low 4, while the own position refuses it (R114, log entry 143). -/
def Blk.wire (b : Blk) (p : Port) (f : Flit) (seq : Nat) : Wire :=
  { type := f.type, vc := f.vc, far := f.far, hops := 15, dst := if f.far then 0 else f.dst, src := b.ownPos
    part := f.part % 16, txn := f.txn % 2 ^ 24, addr := f.addr, data := f.data, row := f.row, seq := seq, ack := p.rxSeq
    credits := p.owed.map (min 255) }

/-- The 256 bytes of a flit. The table gives the layer and shift of a token row no place (log entry 113). -/
def Wire.bytes (f : Wire) : List Nat :=
  let l := [f.type, f.vc * 64 + b2n f.far * 16 + f.hops % 16, f.dst, f.src, f.part] ++ leBytes 3 f.txn ++ leBytes 6 f.addr
    ++ leBytes 2 f.data.length ++ f.data ++ List.replicate (224 - f.data.length) 0 ++ leBytes 2 f.seq ++ leBytes 2 f.ack
    ++ f.credits ++ [0, 0, 0, 0]
  l ++ leBytes 4 (crc32c l)

/-! ## Credits (R365, R366) -/

/-- Credits granted at link training (R365). -/
def creditGrant (vc : Nat) : Nat := if vc = 0 then 64 else if vc = 3 then 512 else 1024

/-- A port sends a flit of channel `vc` now (R357, R358, R366). -/
def Port.maySend (p : Port) (vc : Nat) : Bool := p.st == .up && !p.idleOnly && decide (nth p.avail vc > 0)

/-- Spend a credit of a channel (R366). -/
def Port.spend (p : Port) (vc : Nat) : Port :=
  { p with avail := updAt p.avail vc (· - 1), infl := updAt p.infl vc (· + 1) }

/-- Returned credits become available, as far as they are owed (R366). -/
def Port.credit (p : Port) (vc n : Nat) : Port :=
  let k := min n (nth p.infl vc)
  { p with avail := updAt p.avail vc (· + k), infl := updAt p.infl vc (· - k) }

/-- What a flit that leaves has taken with it: link_ack, and credits of at most 255 a channel. -/
def Port.giveBack (p : Port) : Port := { p with told := p.rxSeq, owed := p.owed.map (· - 255) }

/-- A flit leaves by a port: numbered, kept for replay until confirmed (R364). -/
def Port.sent (p : Port) (vc : Nat) (flit : Option Flit) (transit : Option TransitFlit) : Port :=
  let credits := p.owed.map (min 255)
  let p := (p.spend vc).giveBack
  { p with txSeq := (p.txSeq + 1) % 2 ^ 16, replay := p.replay ++ [⟨p.txSeq, flit, transit, credits⟩] }

/-- Buffers of channel `vc` that a port has freed: their credits are owed to the far end (R366). -/
def Work.owe (w : Work) (n vc k : Nat) : Work :=
  if n < Config.nPorts then w.modPort n fun p => { p with owed := updAt p.owed vc (· + k) } else w

/-- Cut a payload into flits of at most 224 bytes, with their offsets (R363). The first argument bounds the number. -/
def flitsOf : Nat → Nat → List Nat → List (Nat × List Nat)
  | 0, o, l => [(o, l)]
  | n + 1, o, l => if l.length ≤ 224 then [(o, l)] else (o, l.take 224) :: flitsOf n (o + 224) (l.drop 224)

/-! ## The egress queue (R368) -/

/-- Copy flits may leave now (R459, R465). -/
def Blk.copyMay (b : Blk) (p : Nat) : Bool :=
  !(b.struct.plan.bell.any (fun e => e.kind == 6 && e.part == p)) || (b.part p).canary.state == 3
    || ((b.part p).secureOpen && decide (b.now < (b.part p).secureUntil))

/-- A flit of an egress queue as R368 sees it: its place, its channel, its partition, whether it belongs to SECURE, and
the secure_share of a copy of this device. -/
structure Queued where
  ord : Nat
  vc : Nat
  part : Nat
  sec : Bool
  share : Nat
  deriving DecidableEq, Repr

/-- The partition of this device that a flit is sent for. -/
def Blk.flitPart (b : Blk) (f : Flit) : Nat :=
  match f.own.bind b.txn?, f.coll with
  | some t, _ => t.src
  | none, some (k, _) => k / 8
  | none, none => f.part

/-- A flit of a SECURE copy that waits for its window (R465). -/
def Blk.windowShut (b : Blk) (f : Flit) : Bool :=
  match f.own.bind b.txn? with
  | some t => t.kind == .secure && !b.copyMay t.src
  | none => false

/-- The flit slots of every 64 that a partition's secure copying takes (R54, R459). -/
def Blk.secShare (b : Blk) (p : Nat) : Nat :=
  let share := ((b.struct.plan.buddy p).map (·.share)).getD 0
  if (b.part p).canary.state = 3 then min 64 (2 * share) else share

/-- The flits of a port's queue that no window holds back. On channel 3 a write is SECURE's, a read is PREFETCH's. -/
def Blk.queue (b : Blk) (p : Port) : List Queued :=
  (p.held.filter (fun f => !b.windowShut f)).map (fun f =>
    let q := b.flitPart f
    let sec := f.vc == 3 && f.type == 1
    ⟨f.ord, f.vc, q, sec, if sec && f.own.isSome then b.secShare q else 0⟩)
  ++ p.transit.map (fun t => ⟨t.ord, t.fl.vc, t.fl.part, t.fl.vc == 3 && t.fl.type == 1, 0⟩)

/-- The oldest of a list. -/
def oldest : List Queued → Option Queued
  | [] => none
  | a :: l => match oldest l with
    | none => some a
    | some c => some (if c.ord < a.ord then c else a)

/-- Of the flits of one channel: SECURE before PREFETCH, then the partition that has had least for its weight, then the
oldest (R57, R58, R368, log entry 115). -/
def Blk.fairest (b : Blk) (p : Port) (l : List Queued) : Option Queued :=
  let l := if l.any (·.sec) then l.filter (·.sec) else l
  let had := fun (x : Queued) => Tab.get 0 p.served (16 * x.vc + x.part % 16) + 1
  let wt := fun (x : Queued) => b.struct.plan.weight 0 x.part
  oldest (l.filter (fun x => l.all (fun y => decide (had x * wt y ≤ had y * wt x))))

/-- The next flit of a port (R368): channel 0; then a SECURE copy whose partition has slots left of its share of 64; then
channels 1, 2 and 3. -/
def Blk.nextFlit (b : Blk) (n : Nat) : Option Queued :=
  let p := b.port n
  let l := (b.queue p).filter (fun x => p.maySend x.vc)
  let on := fun (vc : Nat) => l.filter (fun x => x.vc == vc)
  (oldest (on 0)).orElse fun _ =>
  (b.fairest p ((on 3).filter (fun x => x.sec && decide (Tab.get 0 p.share x.part < x.share)))).orElse fun _ =>
  (b.fairest p (on 1)).orElse fun _ =>
  (b.fairest p (on 2)).orElse fun _ => b.fairest p (on 3)

/-- What a flit's leaving changes in the accounts of R368. -/
def Port.account (p : Port) (x : Queued) (alone : Bool) : Port :=
  if x.vc = 0 then p
  else
    let share := if p.slots = 63 then [] else p.share.upd 0 x.part (· + b2n (x.share != 0))
    { p with
      slots := (p.slots + 1) % 64
      share := share
      served := if alone then p.served.filter (fun e => e.1 / 16 != x.vc)
        else p.served.upd 0 (16 * x.vc + x.part % 16) (· + 1) }

/-- A collective flit has left: it is counted, and its command has sent (R422, R424). -/
def Work.collLeft (w : Work) (f : Flit) : Work :=
  match f.coll with
  | some (_, id) => (w.devCtr 0x0818 1).modFlight id fun y => { y with coll := { y.coll with lastIo := w.clk.span } }
  | none => w

/-- A heartbeat is stamped with the bell tick of its departure (R375), where it carries bell fields (R388). -/
def Work.stampFlit (w : Work) (port : Nat) (f : Flit) : Flit × Work :=
  if f.type = 7 ∧ (f.data.drop 6).any (· ≠ 0) then
    ({ f with data := f.data.take 6 ++ leBytes 8 w.now ++ f.data.drop 14 }, w.modPort port fun p => { p with txHb := 16 * w.now })
  else (f, w)
/-- One flit of this device leaves by a port. -/
def Work.putFlit (w : Work) (port : Nat) (f : Flit) : Work :=
  let st := w.stampFlit port f
  let f := st.1
  let w := st.2
  let p := w.port port
  let w := ((w.modPort port fun p => p.sent f.vc (some f) none).emit (.flit port (w.wire p f p.txSeq))).collLeft f
  match f.own with
  | some id => w.modTxn id fun t => { t with sentAt := w.clk.span, ports := setBit t.ports port true }
  | none => w

/-- One transit flit leaves by a port, and its buffer is free (R366, R369). -/
def Work.putTransit (w : Work) (port : Nat) (t : Waiting) : Work :=
  let p := w.port port
  ((w.modPort port fun p => p.sent t.fl.vc none (some t.fl)).emit
    (.forward port t.fl p.txSeq p.rxSeq (p.owed.map (min 255)))).owe t.from_ t.fl.vc 1

/-- Send what a port holds and may send now, at most `k` flits. -/
def Work.flushGo (w : Work) (n : Nat) : Nat → Work
  | 0 => w
  | k + 1 =>
    match w.nextFlit n with
    | none => w
    | some x =>
      let p := w.port n
      let alone := (w.queue p).all (fun y => y.vc != x.vc || y.part == x.part)
      let w1 := w.modPort n fun p => { p.account x alone with
        held := p.held.filter (fun f => f.ord != x.ord), transit := p.transit.filter (fun t => t.ord != x.ord) }
      let w2 := match p.held.find? (fun f => f.ord == x.ord), p.transit.find? (fun t => t.ord == x.ord) with
        | some f, _ => w1.putFlit n f
        | none, some t => w1.putTransit n t
        | none, none => w1
      Work.flushGo w2 n k
/-- Send what a port holds and may send now (R366, R368). -/
def Work.flushPort (w : Work) (n : Nat) : Work := w.flushGo n ((w.port n).held.length + (w.port n).transit.length)

/-- Queue a flit at a port. -/
def Port.hold (p : Port) (f : Flit) : Port := { p with held := p.held ++ [{ f with ord := p.queued }], queued := p.queued + 1 }
/-- Send a flit, or hold it in the egress queue (R366, R368). -/
def Work.sendFlit (w : Work) (port : Nat) (f : Flit) : Work := (w.modPort port fun p => p.hold f).flushPort port

/-- A control flit (an acknowledgement or a negative one, R370, R371) goes to its destination by FAB_ROUTE; without a
route it is not sent. -/
def Work.sendCtl (w : Work) (type dst part txn : Nat) (data : List Nat) : Work :=
  match w.egress dst with
  | some port => w.sendFlit port { type := type, vc := 0, dst := dst, part := part, txn := txn, addr := 0, data := data }
  | none => w

/-- The answer to a flit that came in by port `n`: by FAB_ROUTE to its source, or, where the port is an inter-shaft one,
by that port to its far end (R20, R363). -/
def Work.answerBy (w : Work) (n : Nat) (f : Flit) : Work :=
  if (w.port n).role = 3 then w.sendFlit n { f with far := true, dst := 0 }
  else match w.egress f.dst with
    | some port => w.sendFlit port f
    | none => w
/-- A control flit as an answer. -/
def Work.ctlBy (w : Work) (n type dst part txn : Nat) (data : List Nat) : Work :=
  w.answerBy n { type := type, vc := 0, dst := dst, part := part, txn := txn, addr := 0, data := data }

/-- Take flits of this device out of the egress queues. -/
def Work.dropHeld (w : Work) (c : Flit → Bool) : Work :=
  w.each (w.ports.map (·.1)) fun w n => w.modPort n fun p => { p with held := p.held.filter (fun f => !c f) }

/-- What a negative acknowledgement carries: its reason, 0 refused, 1 unreachable, 2 path lost, and a byte that tells a read
refused for an uncorrectable error (R370, R371, R373, R441, log entry 58). -/
def NakReason.bytes : NakReason → List Nat
  | .refused => [0, 0] | .uncorrectable => [0, 1] | .unreachable => [1, 0] | .pathLost => [2, 0]
/-- A negative acknowledgement to the source of what came in by port `n`. -/
def Work.nak (w : Work) (n src part txn : Nat) (why : NakReason) : Work := w.ctlBy n 5 src part txn (NakReason.bytes why)
/-- A transaction is refused; one for a unit under reset is counted (R131, log entry 111). -/
def Work.refuse (w : Work) (n src part txn : Nat) (reset : Bool) : Work :=
  (if reset then w.modDev fun d => { d with resetNaks := d.resetNaks + 1 } else w).nak n src part txn .refused

/-! ## Flits that arrive (R362, R364, R366) -/

/-- The flits that `link_ack` confirms leave a replay buffer: those up to it, where it is among them. -/
def confirm (ack : Nat) (l : List Sent) : List Sent :=
  if l.any (fun r => r.seq = ack) then (l.dropWhile (fun r => r.seq ≠ ack)).drop 1 else l

/-- The link fields of `k` flits of channel `vc` that have arrived in order at a port: credits come back, sent flits are
confirmed, the flits are counted in link_ack, and `free` of their buffers are free again. -/
def Port.linkIn (p : Port) (vc k free : Nat) (l : LinkIn) : Port :=
  let p := (((p.credit 0 l.c0).credit 1 l.c1).credit 2 l.c2).credit 3 l.c3
  { p with replay := confirm l.ack p.replay, rxSeq := (p.rxSeq + k) % 2 ^ 16, owed := updAt p.owed vc (· + free) }
/-- The same, after which the port sends what it may. -/
def Work.linkIn (w : Work) (n vc k free : Nat) (l : LinkIn) : Work :=
  (w.modPort n fun p => p.linkIn vc k free l).flushPort n

/-- The channels and types that a port's role carries (R362); a flit of another is discarded (log entry 116). -/
def roleTakes (role vc type : Nat) : Bool :=
  match role with
  | 1 => vc == 0
  | 2 => true
  | 3 => vc != 2 && (vc != 0 || type == 4 || type == 5 || type == 7)
  | _ => false

/-- Flits of a payload of `n` bytes. -/
def flitCount (n : Nat) : Nat := max 1 (ceilDiv n 224)

/-- The flit with link sequence number `seq` is the next in order at a port (R364). -/
def Port.inOrder (p : Port) (seq : Nat) : Bool := (p.rxSeq + 1) % 2 ^ 16 == seq % 2 ^ 16

/-- A port that is UP takes `k` flits of a channel and type that come in order: their link fields, then, where the port's role
carries them, what they do. Their buffers are free at once, but for those of flits that `f` lets wait (`hold`). Flits that come
out of order, behind one that was discarded or a second time, are discarded whole: the replay brings them (R364). -/
def onUp (n vc type k : Nat) (l : LinkIn) (f : Work → Work) (s : State) (hold : Bool := false) :
    Host.Outcome State Fault Refusal :=
  runIf (n < Config.nPorts) (fun w =>
    if (w.port n).st = .up ∧ (w.port n).inOrder l.seq then
      let ok := roleTakes (w.port n).role vc type
      let w := w.linkIn n vc k (if hold && ok then 0 else k) l
      if ok then f w else w
    else w) s

/-! ## Transactions -/

/-- A unit of this device that the bytes from `a` reach is under reset (R129, R131): the partition, a face, or a gallery,
whose faces are reset with it. -/
def Blk.underReset (b : Blk) (p a len : Nat) : Bool :=
  let meets := fun (r : Nat × Nat) => decide (0 < overlap a (max 1 len) r)
  (b.part p).resetting || b.faces.any (fun e => e.2.resetting && meets (faceStore e.1))
    || b.gals.any (fun e => e.2.resetting
      && (meets (galStore e.1) || meets ((faceStore (12 * e.1)).1, (faceStore (12 * e.1 + 11)).2)))

/-- The receiver's checks of R371, with R131 and R447. -/
def Blk.acceptable (b : Blk) (p a len : Nat) : Bool :=
  b.struct.plan.defines p && !b.underReset p a len && b.inPart p a len
    && !(b.ms.repairEn && decide (a < Config.hbmEnd))

/-- R116: the receiver applies a remote tag signal. -/
def Blk.tagAcceptable (b : Blk) (p t : Nat) : Bool :=
  b.struct.plan.defines p && !(b.part p).resetting && b.struct.plan.partOfTag t == some p

/-- The type and channel of a transaction's request flits (R363, R365). -/
def TxnKind.flitType : TxnKind → Nat
  | .read => 2 | .tag => 6 | _ => 1
def Txn.vc (t : Txn) (prefetch : Bool) : Nat :=
  match t.kind with
  | .tag => 0 | .coll => 1 | .secure => 3 | _ => if prefetch then 3 else 2

/-- Open a transaction (R371, R372): one to the device's own position is settled here; one that cannot be sent is
settled as unreachable or lost; any other leaves by its egress port. -/
def Work.openTxn (w : Work) (t : Txn) (prefetch : Bool) : Work :=
  let t := { t with sentAt := w.clk.span }
  if t.dst = w.ownPos then
    match t.kind with
    | .tag =>
      if w.tagAcceptable t.part t.addr then (w.tagAdd t.addr t.len).addTxn { t with st := .accepted }
      else w.addTxn { t with st := .refused }
    | .read =>
      if w.acceptable t.part t.addr t.len then
        match w.eccAt t.addr t.len with
        | some _ => ((w.reading t.part [(t.addr, t.len)]).eccMet t.addr t.len 1).addTxn { t with st := .uncorrectable }
        | none => (w.reading t.part [(t.addr, t.len)]).addTxn
            { t with st := .accepted, data := w.bytes t.addr t.len }
      else w.addTxn { t with st := .refused }
    | _ =>
      if w.acceptable t.part t.addr t.data.length then (w.store t.part t.addr t.data).addTxn { t with st := .accepted }
      else w.addTxn { t with st := .refused }
  else match w.egress t.dst with
  | none => w.addTxn { t with st := .unreachable }
  | some port =>
    if w.isLost t.dst then w.addTxn { t with st := .lost }
    else
      let id := w.dev.nextTxn
      let vc := t.vc prefetch
      let w := w.addTxn { t with ports := 2 ^ port }
      let f : Flit := { type := t.kind.flitType, vc := vc, dst := t.dst, part := t.part, txn := id, addr := t.addr, data := []
                        own := some id, row := if t.kind = .row then t.book else none }
      match t.kind with
      | .read | .tag => w.sendFlit port { f with data := leBytes 4 t.len }
      | _ => w.each (flitsOf (t.data.length / 224 + 1) 0 t.data) fun w x =>
          w.sendFlit port { f with addr := t.addr + x.1, data := x.2 }

/-- Settle one transaction (R372), if it is still open. -/
def Work.settleTxn (w : Work) (id : Nat) (st : TxnSt) : Work :=
  w.modTxn id fun t => if t.st = .opened then { t with st := st } else t

/-- Settle every open transaction that meets a condition. -/
def Work.settleAll (w : Work) (c : Txn → Bool) (st : TxnSt) : Work :=
  { w with txns := w.txns.map fun t => if t.st = .opened ∧ c t then { t with st := st } else t }

/-- The transactions of a command. -/
def Blk.txnsOf (b : Blk) (id : Nat) : List Txn := b.txns.filter (fun t => t.owner = id)
/-- Forget the transactions of a command that has ended. -/
def Work.dropTxns (w : Work) (id : Nat) : Work := { w with txns := w.txns.filter (fun t => t.owner ≠ id) }

end Sys2Proof.Machine
end

