-- ==== Sys2Proof/Machine/Operands.lean ====
section
/-! DEFINITION. Tensor operands (04_tensor_layout.md): descriptors, element addresses, out-of-bounds coordinates,
reads and writes of elements, and the commit of a command's units in order (R124). -/

namespace Sys2Proof.Machine

/-! ## Descriptor images -/

/-- Two's complement of a 32-bit field. -/
def stride32 (x : Nat) : Int := s32 x

/-- A descriptor image from its 64 bytes (R134). -/
def readImg (l : List Nat) : DescImg :=
  { version := bits (leAt l 0 1) 3 0
    kind := bits (leAt l 0 1) 7 4
    fmt := bits (leAt l 1 1) 3 0
    use := bits (leAt l 1 1) 5 4
    rank := leAt l 2 1
    fill_drop := bit (leAt l 3 1) 0
    mx := bit (leAt l 3 1) 1
    seqDim := leAt l 4 1
    zp := leAt l 5 1
    viewDim := leAt l 6 1
    viewArg := leAt l 7 1
    base := leAt l 8 6
    allocBase := leAt l 16 6
    allocLen := leAt l 24 4
    fill := leAt l 28 4
    ext := (List.range 4).map (fun i => leAt l (32 + 4 * i) 4)
    str := (List.range 4).map (fun i => stride32 (leAt l (48 + 4 * i) 4)) }

/-- Bits of an element (R138). -/
def elemBits (fmt : Nat) : Nat :=
  match fmt with
  | 0 => 32 | 1 => 16 | 2 => 16 | 3 => 8 | 4 => 8 | 5 => 6 | 6 => 6 | 7 => 4 | 8 => 8 | 9 => 8
  | _ => 0
/-- Bytes of a slab: eight scales and eight blocks. -/
def slabBytes (fmt : Nat) : Nat := 8 + 32 * elemBits fmt

def DescImg.e (d : DescImg) (i : Nat) : Nat := d.ext.getD i 0
def DescImg.s (d : DescImg) (i : Nat) : Int := d.str.getD i 0
def DescImg.canRead (d : DescImg) : Bool := bit d.use 0
def DescImg.canWrite (d : DescImg) : Bool := bit d.use 1

/-- `element_address` (R138): the bit address of an element and the address of its scale. -/
def elementAddress (d : DescImg) (base : Nat) (c : List Nat) : Int × Option Int :=
  let b := elemBits d.fmt
  let at_ := fun i => (c.getD i 0 : Int)
  if !d.mx then
    let off := ((List.range d.rank).map (fun i => at_ i * d.s i)).sum
    (((base : Int) + off * (b / 8 : Nat)) * 8, none)
  else
    let slab := (c.getD 0 0 / 256 : Nat) + ((List.range d.rank).drop 1 |>.map (fun i => at_ i * d.s i)).sum
    let j := c.getD 0 0 % 256
    let a := (base : Int) + slab * slabBytes d.fmt
    ((a + 8) * 8 + (j * b : Nat), some (a + (j / 32 : Nat)))

/-! ## Where a coordinate leads -/

/-- Where an element lies: in memory here (`none`) or at a position, outside under fill-and-drop, or the command
faults. -/
inductive Loc where
  | mem (pos : Option Nat) (bitAddr : Nat) (scale : Option Nat)
  | out
  | bad (code : Nat)
  deriving DecidableEq, Repr, Inhabited

/-- An element at an address of a position, in memory here where `pos` is none. A sum that leaves the 48 bits of an address
reaches a reserved address, whoever owns it, and faults as R428 says (log entry 110). -/
def Loc.at_ (pos : Option Nat) (ad : Int × Option Int) : Loc :=
  let out := fun (a : Int) => decide (a < 0) || decide (a ≥ (2 ^ 48 : Int))
  if out (ad.1 / 8) || ad.2.any out then .bad 0x0701 else .mem pos ad.1.toNat (ad.2.map Int.toNat)

/-- A resolved coordinate, whether it was clamped, and the owner entry that was read for it (R150), with the range of an
uncorrectable one. -/
structure Ref where
  loc : Loc
  clamped : Bool := false
  reads : List (Nat × Nat) := []
  ecc : Option (Nat × Nat) := none
  deriving DecidableEq, Repr, Inhabited

/-- The extent of a dimension across the shaft (R149). -/
def gext (b : Blk) (part : Nat) (d : DescImg) (i : Nat) : Nat :=
  if d.kind = 1 ∧ i = d.viewDim then d.e i * ((b.struct.plan.ringRec part d.viewArg).map (·.size)).getD 1 else d.e i

/-- Clamp a component (R153). -/
def clampTo (x : Int) (e : Nat) : Nat := if x < 0 then 0 else if x ≥ e then e - 1 else x.toNat

/-- Resolve a coordinate of a descriptor for a command (R138, R149, R150, R153). -/
def resolve (w : Work) (x : Flight) (d : DescImg) (c : List Int) : Ref :=
  let ge := gext w.toBlk x.part d
  let oob := (List.range d.rank).any (fun i => decide (c.getD i 0 < 0) || decide (c.getD i 0 ≥ ge i))
  if oob && d.fill_drop then { loc := .out }
  else
    let k := (List.range d.rank).map (fun i => clampTo (c.getD i 0) (ge i))
    let here := fun pos => if pos = w.ownPos then none else some pos
    let v := k.getD d.viewDim 0
    if d.kind = 1 then
      let r := ((x.rosters.find? (fun p => p.1 = d.viewArg)).map (·.2)).getD []
      let ad := elementAddress d d.base (updAt k d.viewDim (fun _ => v % d.e d.viewDim))
      { loc := .at_ (here (nth r (v / d.e d.viewDim))) ad, clamped := oob }
    else if d.kind = 2 then
      let n := v / 2 ^ d.viewArg
      let a := d.base + 8 * n
      match w.readCode x.part a 8 with
      | 0 =>
        let ent := w.num a 8
        let loc : Loc :=
          if bits ent 62 56 ≠ 0 then .bad 0x0111
          else if !bit ent 63 then (if d.fill_drop then .out else .bad 0x0111)
          else
            .at_ (here (bits ent 55 48)) (elementAddress d (bits ent 47 0) (updAt k d.viewDim (fun _ => v % 2 ^ d.viewArg)))
        { loc := loc, clamped := oob && loc != .out, reads := [(a, 8)] }
      | code => { loc := .bad code, clamped := oob, ecc := eccRange code (a, 8) }
    else { loc := .at_ none (elementAddress d d.base k), clamped := oob }

/-! ## Units -/

/-- One write of `n` bits at a bit address, here or at a position. -/
structure Wop where
  pos : Option Nat
  at_ : Nat
  n : Nat
  v : Nat
  deriving DecidableEq, Repr, Inhabited

/-- What one progress unit of a command does: the fault that stops it, the remote reads it still needs, whether it
waits for one, the local ranges it reads, its writes in order, its face counters, and its saturations. `ecc` is the
range of an uncorrectable read. `weight` is what the unit counts in the watermark, more than one where several
progress units commit together. -/
structure URes where
  weight : Nat := 1
  bad : Nat := 0
  ecc : Option (Nat × Nat) := none
  needs : List (Nat × Nat × Nat) := []
  waits : Bool := false
  reads : List (Nat × Nat) := []
  wr : List Wop := []
  ctr : List (Nat × Nat) := []
  sat : Nat := 0
  deriving DecidableEq, Repr, Inhabited

/-- Two parts of one unit, the first before the second: the first fault stands. -/
def URes.and (a b : URes) : URes :=
  if a.bad ≠ 0 then a
  else { weight := a.weight, bad := b.bad, ecc := b.ecc, needs := a.needs ++ b.needs, waits := a.waits || b.waits, reads := a.reads ++ b.reads,
         wr := a.wr ++ b.wr, ctr := a.ctr ++ b.ctr, sat := a.sat + b.sat }

/-- What a read of a range gives: its bytes, or why not. -/
inductive Got where
  | ok (l : List Nat)
  | need
  | wait
  | bad (code : Nat)
  deriving DecidableEq, Repr, Inhabited

/-- Read a range for a command, here or through a read transaction (R371, R441). -/
def getRange (w : Work) (x : Flight) (pos : Option Nat) (a n : Nat) : Got :=
  match pos with
  | none => match w.readCode x.part a n with
    | 0 => .ok (w.bytes a n)
    | c => .bad c
  | some p =>
    match w.txns.find? (fun t => t.owner = x.id ∧ t.kind = .read ∧ t.dst = p ∧ t.addr ≤ a ∧ a + n ≤ t.addr + t.len) with
    | none => .need
    | some t => match t.st with
      | .opened => .wait
      | .accepted => .ok ((t.data.drop (a - t.addr)).take n)
      | st => .bad st.code

/-- The bytes that hold `n` bits at a bit address. -/
def bitSpan (at_ n : Nat) : Nat × Nat := (at_ / 8, (at_ + n - 1) / 8 - at_ / 8 + 1)

/-- One range of a unit's reads. -/
def oneRange (w : Work) (x : Flight) (pos : Option Nat) (a n : Nat) : List Nat × URes :=
  match getRange w x pos a n with
  | .ok l => (l, { reads := if pos.isNone then [(a, n)] else [] })
  | .need => ([], { needs := [(pos.getD 0, a, n)] })
  | .wait => ([], { waits := true })
  | .bad c => ([], { bad := c, ecc := if pos.isNone then eccRange c (a, n) else none })

/-- Read an element: its code and its scale byte (0 without mx). -/
def readRef (w : Work) (x : Flight) (d : DescImg) (r : Ref) : Nat × Nat × URes :=
  match r.loc with
  | .bad c => (0, 0, { bad := c, reads := r.reads, ecc := r.ecc })
  | .out => if d.mx then (bits d.fill 7 0 % 2 ^ elemBits d.fmt, bits d.fill 15 8, { reads := r.reads, ctr := [(0x0208, 1)] })
      else (d.fill % 2 ^ elemBits d.fmt, 0, { reads := r.reads, ctr := [(0x0208, 1)] })
  | .mem pos at_ sc =>
    let b := elemBits d.fmt
    let sp := bitSpan at_ b
    let e := oneRange w x pos sp.1 sp.2
    let u : URes := { reads := r.reads, ctr := if r.clamped then [(0x0200, 1)] else [] }
    let code := leNat e.1 / 2 ^ (at_ % 8) % 2 ^ b
    match sc with
    | none => (code, 0, u.and e.2)
    | some a =>
      let s := oneRange w x pos a 1
      (code, leNat s.1, u.and (e.2.and s.2))

/-- Write an element's code, and its scale byte when given. -/
def writeRef (w : Work) (x : Flight) (d : DescImg) (r : Ref) (code : Nat) (scale : Option Nat) : URes :=
  match r.loc with
  | .bad c => { bad := c, reads := r.reads, ecc := r.ecc }
  | .out => { reads := r.reads, ctr := [(0x0210, 1)] }
  | .mem pos at_ sc =>
    let b := elemBits d.fmt
    let sp := bitSpan at_ b
    let acc := if pos.isNone then w.accessCode x.part sp.1 sp.2 else 0
    let wr : List Wop := ⟨pos, at_, b, code⟩ :: (match sc, scale with
      | some a, some v => [⟨pos, 8 * a, 8, v⟩]
      | _, _ => [])
    { bad := acc, reads := r.reads, wr := wr, ctr := if r.clamped then [(0x0200, 1)] else [] }

/-- Read a list of coordinates of one descriptor. -/
def readMany (w : Work) (x : Flight) (d : DescImg) : List (List Int) → List (Nat × Nat) × URes
  | [] => ([], {})
  | c :: cs =>
    let e := readRef w x d (resolve w x d c)
    let r := readMany w x d cs
    ((e.1, e.2.1) :: r.1, e.2.2.and r.2)

/-! ## Commit -/

/-- The bytes that a local write changes, with their new values (R437). -/
def Wop.bytes (w : Work) (o : Wop) : List (Nat × Nat) :=
  let sp := bitSpan o.at_ o.n
  let old := w.num sp.1 sp.2
  let lo := o.at_ % 8
  let new := old % 2 ^ lo + o.v % 2 ^ o.n * 2 ^ lo + old / 2 ^ (lo + o.n) * 2 ^ (lo + o.n)
  (List.range sp.2).map (fun i => (sp.1 + i, new / 2 ^ (8 * i) % 256))

/-- Carry out local writes in order. -/
def Work.doWops (w : Work) : List Wop → Work
  | [] => w
  | o :: os => Work.doWops ((o.bytes w).foldl (fun w b => w.putByte b.1 b.2) w) os

/-- Local writes of which each byte may or may not have been made (R124): free values. -/
def Work.tornWops (w : Work) (k : Nat) : List Wop → Work
  | [] => w
  | o :: os => Work.tornWops ((o.bytes w).foldl (fun w b => if Config.torn k b.1 then w.putByte b.1 b.2 else w) w) k os

/-- Replace or add a byte of an association list. -/
def putAssoc (l : List (Nat × Nat)) (a v : Nat) : List (Nat × Nat) :=
  if l.any (fun e => e.1 = a) then l.map (fun e => if e.1 = a then (a, v) else e) else l ++ [(a, v)]

/-- The bytes that writes at one position spell, in the order first written. A write of less than a whole block (R437
knows of none) leaves the rest of a byte open: a free value, with the number `k` of the transaction to come. -/
def remoteBytes (k : Nat) : List Wop → List (Nat × Nat) → List (Nat × Nat)
  | [], acc => acc
  | o :: os, acc =>
    let sp := bitSpan o.at_ o.n
    let old := leNat ((List.range sp.2).map (fun i => ((acc.find? (fun e => e.1 = sp.1 + i)).map (·.2)).getD
      (Config.freeNat (2 ^ 20 + sp.1 + i) k % 256)))
    let lo := o.at_ % 8
    let new := old % 2 ^ lo + o.v % 2 ^ o.n * 2 ^ lo + old / 2 ^ (lo + o.n) * 2 ^ (lo + o.n)
    remoteBytes k os ((List.range sp.2).foldl (fun acc i => putAssoc acc (sp.1 + i) (new / 2 ^ (8 * i) % 256)) acc)

/-- Runs of consecutive addresses: a start and its bytes. -/
def runsOf : List (Nat × Nat) → List (Nat × List Nat)
  | [] => []
  | (a, v) :: t => match runsOf t with
    | (b, l) :: r => if b = a + 1 then (a, v :: l) :: r else (a, [v]) :: (b, l) :: r
    | [] => [(a, [v])]

/-- Insert by address. -/
def insBy (e : Nat × Nat) : List (Nat × Nat) → List (Nat × Nat)
  | [] => [e]
  | f :: t => if e.1 ≤ f.1 then e :: f :: t else f :: insBy e t

/-- The read transactions of a unit (R371): one per position and run of addresses. -/
def remoteReads (needs : List (Nat × Nat × Nat)) : List (Nat × Nat × Nat) :=
  (needs.map (·.1)).eraseDups.flatMap fun p =>
    let l := ((needs.filter (fun r => r.1 = p)).flatMap (fun r => (List.range r.2.2).map (r.2.1 + ·))).eraseDups
    (runsOf (l.foldl (fun acc a => insBy (a, 0) acc) [])).map (fun r => (p, r.1, r.2.length))

/-- The write transactions of a unit: one per position and run of addresses. -/
def remoteRuns (k : Nat) (wr : List Wop) : List (Nat × Nat × List Nat) :=
  let poss := (wr.filterMap (·.pos)).eraseDups
  poss.flatMap fun p =>
    let l := remoteBytes k (wr.filter (fun o => o.pos = some p)) []
    (runsOf (l.foldl (fun acc e => insBy e acc) [])).map (fun r => (p, r.1, r.2))

/-- Count a unit's face counters. -/
def Work.countUnit (w : Work) (f : Nat) (u : URes) : Work :=
  w.each u.ctr fun w c => w.faceCtr f c.1 c.2

/-- Commit one unit: its local writes, its remote writes as transactions, its counters, its HBM bytes. -/
def Work.commitUnit (w : Work) (x : Flight) (prefetch : Bool) (n : Nat) (u : URes) : Work :=
  let loc := u.wr.filter (fun o => o.pos.isNone)
  let w := (w.softMet u.reads).doWops loc
  let touched := joinRanges (loc.map (fun o => bitSpan o.at_ o.n))
  let w := w.cleared (touched.flatMap (fun r => (List.range r.2).map (r.1 + ·)))
  let w := w.charge x.part (hbmLines (joinRanges u.reads ++ touched))
  let w := w.each (remoteRuns w.dev.nextTxn u.wr) fun w r =>
    w.openTxn { kind := .write, dst := r.1, part := x.part, owner := x.id, unit := n, addr := r.2.1, data := r.2.2,
                len := r.2.2.length, src := x.part, shift := x.shift } prefetch
  (w.countUnit x.face u).modFlight x.id fun y => { y with sat := y.sat + u.sat }

/-- Commit units from the nth on. -/
def Work.commitUnits (w : Work) (x : Flight) (prefetch : Bool) : Nat → List URes → Work
  | _, [] => w
  | n, u :: us => Work.commitUnits (w.commitUnit x prefetch n u) x prefetch (n + 1) us

/-- End a command at a fault: what its writes above the watermark left is free (R124); the fault waits for the remote
writes of the units below it (R372). -/
def Work.faultAt (w : Work) (x : Flight) (above : List URes) (code wm : Nat) : Work :=
  let k := w.fresh
  let w := k.2.tornWops k.1 ((above.flatMap (·.wr)).filter (fun o => o.pos.isNone))
  if (w.txnsOf x.id).any (fun t => t.kind = .write) then
    w.modFlight x.id fun y => { y with phase := .done, wm := wm, fault := some (code, wm) }
  else (w.faultFlight x code wm).dropTxns x.id

/-- The units before the first that faults. -/
def goodUnits : List URes → List URes
  | [] => []
  | u :: us => if u.bad = 0 then u :: goodUnits us else []

/-- Where a command's progress stops, and with which code: a unit that faults, or a limit given from outside (a
deadline abort, R110, or a parity error). -/
def stopAt (us : List URes) (limit : Option (Nat × Nat)) : Option (Nat × Nat) :=
  let n := (goodUnits us).length
  match limit, us[n]? with
  | some (m, code), some u => if m ≤ n then some (m, code) else some (n, u.bad)
  | some (m, code), none => if m < n ∨ n = 0 then some (m, code) else some (n, code)
  | none, some u => some (n, u.bad)
  | none, none => none

/-- The watermark of the first units of a command. -/
def wmOf (us : List URes) : Nat := (us.map (·.weight)).sum

/-- Run a command whose units have been computed (R124): ask for the remote reads that are still missing, or wait for
them, or commit unit by unit to the end or to the stop. `total` is the watermark on success. -/
def Work.runUnits (w : Work) (x : Flight) (us : List URes) (total : Nat) (limit : Option (Nat × Nat))
    (prefetch torn : Bool) : Work :=
  let stop := stopAt us limit
  let live := us.take (match stop with | some (n, _) => n | none => us.length)
  let needs := (live.flatMap (fun u => remoteReads u.needs)).eraseDups
  if !needs.isEmpty then
    w.each needs fun w r =>
      w.openTxn { kind := .read, dst := r.1, part := x.part, owner := x.id, addr := r.2.1, len := r.2.2, src := x.part,
                  shift := x.shift } prefetch
  else if live.any (·.waits) then w
  else
    let w := w.commitUnits x prefetch 0 live
    match stop with
    | none => w.doneFlight x total
    | some (n, code) =>
      let w := match us[n]? with
        | some u => if u.bad = code then w.readingTo x.part u.reads u.ecc else w
        | none => w
      w.faultAt x (if torn then us.drop n else []) code (wmOf (us.take n))

end Sys2Proof.Machine
end

