-- ==== Sys2Proof/Machine/Data.lean ====
section
/-! DEFINITION. Data movement and the descriptor commands (R134 to R158). -/

namespace Sys2Proof.Machine

/-! ## Checks at issue that many commands share -/

/-- The first non-zero code. -/
def firstCode : List Nat → Nat
  | [] => 0
  | 0 :: t => firstCode t
  | c :: _ => c
/-- A code unless a condition holds. -/
def codeUnless (ok : Bool) (code : Nat) : Nat := if ok then 0 else code

/-- The image behind an index of a partition's table. -/
def Blk.img (b : Blk) (part i : Nat) : DescImg := (b.desc part i).img
/-- R146, R147: the entry is usable. -/
def Blk.descUsable (b : Blk) (part i : Nat) : Bool :=
  decide (i < (b.struct.plan.bud part).descs) && (b.desc part i).st == .created
/-- The checks of an index and of its descriptor's kind and use (R147, R152). -/
def Blk.descCode (b : Blk) (part i : Nat) (kinds : List Nat) (rd wr : Bool) : Nat :=
  let d := b.img part i
  firstCode [codeUnless (b.descUsable part i) 0x0102,
    codeUnless (decide (d.kind ∈ kinds) && (!rd || d.canRead) && (!wr || d.canWrite)) 0x010F]

/-! ## Rosters (R396) -/

/-- The roster of a ring as the device reads it: positions of ranks 0 to 255. -/
def Work.rosterPos (w : Work) (part ring : Nat) : List Nat :=
  (List.range 256).map (fun r => w.byte ((w.part part).rosterArea.base + 512 * ring + 2 * r))
def Work.rosterNode (w : Work) (part ring : Nat) : List Nat :=
  (List.range 256).map (fun r => w.byte ((w.part part).rosterArea.base + 512 * ring + 2 * r + 1))
/-- The bytes of HBM that hold the rosters of rings, as they are read, with the first uncorrectable one (R441). -/
def Work.rosterReads (w : Work) (part : Nat) (rings : List Nat) : URes :=
  rings.foldl (fun (u : URes) r =>
    let a := (w.part part).rosterArea.base + 512 * r
    let bad := w.eccAt a 512
    u.and { bad := (bad.map (·.2)).getD 0, ecc := bad.map (fun _ => (a, 512)), reads := if bad.isNone then [(a, 512)] else [] }) {}
/-- The positions of a ring as the device reads its roster beside its commands: none where it cannot, under repair access
(R447, log entry 136) or in an uncorrectable sector (R441, log entry 137). -/
def Work.rosterSeen (w : Work) (part ring size : Nat) : List Nat :=
  let a := (w.part part).rosterArea.base + 512 * ring
  if w.hbmShut a || (w.eccAt a 512).isSome then [] else (w.rosterPos part ring).take size
/-- The errors that such a read meets. -/
def Work.rosterMet (w : Work) (part ring : Nat) : Work :=
  let a := (w.part part).rosterArea.base + 512 * ring
  if w.hbmShut a || !(w.part part).rosterArea.enable then w else w.eccMet a 512 0
/-- The checks of R396. -/
def Work.rosterOk (w : Work) (part ring : Nat) : Bool :=
  match w.struct.plan.ringRec part ring with
  | none => false
  | some r =>
    let pos := w.rosterPos part ring
    let node := w.rosterNode part ring
    let own := pos.take r.size
    (w.part part).rosterArea.enable && decide own.Nodup && own.all (fun p => decide (p < w.struct.plan.dev.shaftSize))
      && nth pos r.rank == w.ownPos
      && (List.range 256).all (fun i => decide (i < r.size) || (nth pos i == 0xFF && nth node i == 0xFF))
/-- The rings of the kind 1 descriptors among indices. -/
def Blk.ringsOf (b : Blk) (part : Nat) (idx : List Nat) : List Nat :=
  (idx.filterMap (fun i => if (b.img part i).kind = 1 then some (b.img part i).viewArg else none)).eraseDups
/-- R149: every kind 1 descriptor's roster passes its checks. -/
def Work.rostersCode (w : Work) (part : Nat) (idx : List Nat) : Nat :=
  firstCode [(w.rosterReads part (w.ringsOf part idx)).bad, codeUnless ((w.ringsOf part idx).all (w.rosterOk part)) 0x0623]
/-- The rosters that a command keeps from its issue. -/
def Work.rostersOf (w : Work) (part : Nat) (idx : List Nat) : List (Nat × List Nat) :=
  (w.ringsOf part idx).map (fun r => (r, w.rosterPos part r))

/-! ## DESC_CREATE (R145) -/

/-- Strides of a write descriptor (R139), for an extent list: 0 when they pass, else the code. -/
def spanGo : Nat → List (Nat × Nat) → Bool
  | _, [] => true
  | span, (st, ext) :: t => if st < span then false else spanGo (span + st * (ext - 1)) t
/-- The dimensions of a descriptor as R139 counts them: extent and stride. -/
def DescImg.dims (d : DescImg) : List (Nat × Int) :=
  (List.range d.rank).map fun i =>
    let e := if d.kind = 2 ∧ i = d.viewDim then min (d.e i) (2 ^ d.viewArg) else d.e i
    if d.mx ∧ i = 0 then (e / 256, 1) else (e, d.s i)
/-- Insert a dimension by absolute stride. -/
def insDim (x : Nat × Nat) : List (Nat × Nat) → List (Nat × Nat)
  | [] => [x]
  | y :: t => if x.1 < y.1 then x :: y :: t else y :: insDim x t
/-- `write_strides_ok` (R139). -/
def writeStrides (d : DescImg) : Nat :=
  if d.dims.any (fun p => p.2 = 0) then 0x010B
  else
    let l := (d.dims.filter (fun p => p.1 > 1)).map (fun p => (p.2.natAbs, p.1))
    codeUnless (spanGo 1 (l.foldl (fun acc x => insDim x acc) [])) 0x010C

/-- `reach` (R141): first and last byte. -/
def reachOf (d : DescImg) : Int × Int :=
  let span := fun (f : Int → Int) => (d.dims.map (fun p => f (p.2 * ((p.1 : Int) - 1)))).sum
  let lo := span (fun x => if x < 0 then x else 0)
  let hi := span (fun x => if x > 0 then x else 0)
  let unit : Int := if d.mx then slabBytes d.fmt else (elemBits d.fmt / 8 : Nat)
  ((d.base : Int) + lo * unit, (d.base : Int) + hi * unit + unit - 1)

/-- Step 5. -/
def descReserved (l : List Nat) (d : DescImg) : Bool :=
  bits (leAt l 1 1) 7 6 == 0 && bits (leAt l 3 1) 7 2 == 0 && leAt l 14 2 == 0 && leAt l 22 2 == 0
    && (d.kind != 0 || (d.viewDim == 0 && d.viewArg == 0)) && decide (d.kind ≤ 2) && decide (d.use ≠ 0)
    && decide (d.fmt ≤ 9) && decide (d.fill < (if d.mx then 2 ^ 16 else 2 ^ elemBits d.fmt))
    && (d.zp == 0 || d.fmt == 9)
/-- Step 6. -/
def descShape (d : DescImg) : Bool :=
  decide (1 ≤ d.rank) && decide (d.rank ≤ 4)
    && (List.range 4).all (fun i => if i < d.rank then decide (d.e i ≥ 1) else d.e i == 0 && d.s i == 0)
    && (decide (d.seqDim < d.rank) || d.seqDim == 0xFF) && (d.kind == 0 || decide (d.viewDim < d.rank))
    && (d.kind != 2 || decide (d.viewArg ≤ 22))
/-- Step 7. -/
def descMx (d : DescImg) : Bool :=
  if d.mx then decide (3 ≤ d.fmt) && decide (d.fmt ≤ 7) && d.s 0 == 1 && d.e 0 % 256 == 0
  else !(decide (5 ≤ d.fmt) && decide (d.fmt ≤ 7))
/-- Step 8. -/
def descAlign (d : DescImg) : Bool :=
  let n := if d.kind = 2 ∨ d.mx then 8 else elemBits d.fmt / 8
  d.base % n == 0 && d.allocBase % 256 == 0
/-- Step 9. -/
def descView (b : Blk) (part : Nat) (d : DescImg) : Nat :=
  if d.kind = 1 then
    codeUnless (((b.struct.plan.ringRec part d.viewArg).map (·.kind)) == some 0) 0x010D
  else if d.kind = 2 then
    let n := 8 * ceilDiv (d.e d.viewDim) (2 ^ d.viewArg)
    codeUnless (decide (d.allocBase ≤ d.base) && decide (d.base + n ≤ d.allocBase + 256 * d.allocLen)) 0x010E
  else 0
/-- Step 10. -/
def descSeq (b : Blk) (part : Nat) (d : DescImg) : Bool :=
  d.seqDim == 0xFF || decide (gext b part d d.seqDim ≤ 4194304)
/-- Step 11 (R142). An allocated length of 0, which R134 forbids and no step of R145 names, lies nowhere and fails here
(log entry 138). -/
def descPlace (b : Blk) (part : Nat) (d : DescImg) : Bool :=
  let n := 256 * d.allocLen
  n != 0 && b.onePlace part d.allocBase n
/-- Step 13. -/
def descReach (d : DescImg) : Bool :=
  let r := reachOf d
  d.kind == 2 || (decide ((d.allocBase : Int) ≤ r.1) && decide (r.2 < d.allocBase + 256 * d.allocLen))

/-- R145 from step 4 on: the code of the first failure, or 0. -/
def descImageCode (b : Blk) (part : Nat) (l : List Nat) : Nat :=
  let d := readImg l
  firstCode [codeUnless (d.version == 1) 0x0101, codeUnless (descReserved l d) 0x0103, codeUnless (descShape d) 0x0105,
    codeUnless (descMx d) 0x010A, codeUnless (descAlign d) 0x0109, descView b part d, codeUnless (descSeq b part d) 0x0106,
    codeUnless (descPlace b part d) 0x0107, if d.canWrite then writeStrides d else 0, codeUnless (descReach d) 0x0108]

/-- The index operand of a descriptor command (R144). -/
def descIdx (cmd : Nat) : Nat := bits (cb cmd 4 2) 11 0

/-- A queued command of `q` with opcode `op` that an engine of its class has taken. -/
def Blk.runningOf (b : Blk) (q op : Nat) : Option Flight :=
  b.flights.find? (fun x => x.q = q ∧ opOf x.cmd = op ∧ x.phase = .running 0)

/-- What a DESC_CREATE that ends without success leaves (R146): the entry it held is free again. -/
def Work.unholdDesc (w : Work) (x : Flight) : Work :=
  if opOf x.cmd = 0x90 ∧ x.cap = [1] then w.setDesc x.part (descIdx x.cmd) {} else w

/-- When a DESC_CREATE retires its entry is usable (R146). -/
def Work.retireCreate (w : Work) (x : Flight) : Work :=
  if opOf x.cmd = 0x90 then w.setDesc x.part (descIdx x.cmd) { w.desc x.part (descIdx x.cmd) with st := .created } else w

/-- DESC_CREATE (R145, R146). `cap` is [1] when the command took hold of its entry at issue. -/
def doDescCreate (x : Flight) (w : Work) : Work :=
  let i := descIdx x.cmd
  let a := cb x.cmd 8 6
  let l := w.bytes a 64
  let pre := firstCode [codeUnless (decide (i < (w.struct.plan.bud x.part).descs)) 0x0102,
    codeUnless (a % 64 == 0 && w.accessCode x.part a 64 == 0) 0x0113, codeUnless (x.cap == [1]) 0x0104]
  let code := firstCode [pre, ((w.eccAt a 64).map (·.2)).getD 0, descImageCode w.toBlk x.part l]
  let w := if pre = 0 then w.reading x.part [(a, 64)] else w
  if code = 0 then (w.setDesc x.part i ⟨.held, readImg l⟩).doneFlight x 1
  else ((w.unholdDesc x).eccMet a (if pre = 0 ∧ (code = 0x0704 ∨ code = 0x0705) then 64 else 0) 0).faultFlight x code 0

/-- DESC_CREATE: the oldest one of context `q` that the descriptor unit has taken runs. -/
def execDescCreate (q : Nat) (s : State) : Host.Outcome State Fault Refusal :=
  runIf (q < Config.nCtxs) (fun w => match w.runningOf q 0x90 with
    | some x => doDescCreate x w
    | none => w) s

/-! ## Data movement (R155 to R158) -/

def moveSrc (cmd : Nat) : Nat := bits (cb cmd 4 2) 11 0
def moveDst (cmd : Nat) : Nat := bits (cb cmd 6 2) 11 0
def moveBlk (cmd i : Nat) : Nat := cb cmd (8 + 2 * i) 2

/-- An allocated range lies in a face or gallery store. Of a kind 2 descriptor it is the owner table that R142 bounds, and
its place is the one that LOAD and STORE go by (log entry 139). -/
def DescImg.inStore (d : DescImg) (usable : Nat) : Bool :=
  match place usable d.allocBase with
  | .face _ => true | .gal _ => true | _ => false

/-- R156: the two sides match, and each lies where the command needs it. -/
def moveMatch (b : Blk) (cmd : Nat) (src dst : DescImg) : Bool :=
  let op := opOf cmd
  src.rank == dst.rank && src.fmt == dst.fmt && src.mx == dst.mx && src.zp == dst.zp
    && (List.range 4).all (fun i => decide (i < src.rank) || moveBlk cmd i == 0)
    && (op != 0x20 || dst.inStore b.usable) && (op != 0x21 || src.inStore b.usable) && (op != 0x22 || dst.kind == 0)

/-- The checks of a data movement command at issue (R144, R152, R156, R396). -/
def moveIssue (w : Work) (part cmd : Nat) : Nat :=
  let s := moveSrc cmd
  let d := moveDst cmd
  firstCode [codeUnless (w.descUsable part s) 0x0102, codeUnless (w.descUsable part d) 0x0102,
    w.descCode part s [0, 1, 2] true false, w.descCode part d [0, 1] false true,
    codeUnless (moveMatch w.toBlk cmd (w.img part s) (w.img part d)) 0x0110, w.rostersCode part [s, d]]

/-- One element of a move: the tile side's coordinate `c` and the other side's. -/
def moveElem (w : Work) (x : Flight) (src dst : DescImg) (tileIsSrc : Bool) (c : List Nat) : URes :=
  let tile := if tileIsSrc then src else dst
  let t : List Int := c.map Int.ofNat
  let o : List Int := (List.range tile.rank).map (fun i =>
    (c.getD i 0 : Int) + moveBlk x.cmd i * gext w.toBlk x.part tile i)
  let r := readRef w x src (resolve w x src (if tileIsSrc then t else o))
  r.2.2.and (writeRef w x dst (resolve w x dst (if tileIsSrc then o else t)) r.1 (if dst.mx then some r.2.1 else none))

/-- The rows of the tile side, in ascending linear outer index (R158). -/
def moveUnits (w : Work) (x : Flight) : List URes :=
  let src := w.img x.part (moveSrc x.cmd)
  let dst := w.img x.part (moveDst x.cmd)
  let tileIsSrc := opOf x.cmd == 0x21
  let tile := if tileIsSrc then src else dst
  let e := fun i => if i < tile.rank then gext w.toBlk x.part tile i else 1
  (List.range (e 1 * e 2 * e 3)).map fun r =>
    (List.range (e 0)).foldl (fun (u : URes) i =>
      u.and (moveElem w x src dst tileIsSrc ([i, r % e 1, r / e 1 % e 2, r / (e 1 * e 2)].take tile.rank))) {}

/-- Run a data movement command (R155, R158, R124). Every row is read before any of the command's own writes: the spec leaves
open what a row reads that an earlier row of the same command has written (log entry 140). -/
def doMove (x : Flight) (limit : Option (Nat × Nat)) (w : Work) : Work :=
  let us := moveUnits w x
  w.runUnits x us us.length limit (opOf x.cmd == 0x22) true

/-- Run the data movement command of context `q` with opcode `op` that a data mover has taken. -/
def moveRow (q op : Nat) (w : Work) : Work :=
  match w.runningOf q op with
  | some x => doMove x none w
  | none => w

/-- LOAD (R155, R156): into a face or gallery store. -/
def execLoad (q : Nat) (s : State) : Host.Outcome State Fault Refusal := runIf (q < Config.nCtxs) (moveRow q 0x20) s
/-- STORE (R155, R156): out of a face or gallery store. -/
def execStore (q : Nat) (s : State) : Host.Outcome State Fault Refusal := runIf (q < Config.nCtxs) (moveRow q 0x21) s
/-- PREFETCH (R157): as COPY, its fabric traffic on channel 3 (R365). -/
def execPrefetch (q : Nat) (s : State) : Host.Outcome State Fault Refusal := runIf (q < Config.nCtxs) (moveRow q 0x22) s
/-- COPY (R155). -/
def execCopy (q : Nat) (s : State) : Host.Outcome State Fault Refusal := runIf (q < Config.nCtxs) (moveRow q 0x23) s

end Sys2Proof.Machine
end

