-- ==== Sys2Proof/Machine/Numerics.lean ====
section
/-! DEFINITION. Arithmetic (06_numerics.md): codes as exact values, one rounding from an exact value, the reference
order of a product, narrowing, and the draw of stochastic rounding. Codes are bit patterns (R15). -/

namespace Sys2Proof.Machine

/-! ## Formats (R209, R210) -/

/-- A float format: exponent bits, fraction bits, bias, whether it has infinities (`ieee`), whether it is E4M3, the
largest significand and its exponent. -/
structure Fmt where
  e : Nat
  m : Nat
  bias : Nat
  ieee : Bool
  e4m3 : Bool
  maxSig : Nat
  maxExp : Int
  deriving DecidableEq, Repr

/-- The table F of R210; any other code as FP32. -/
def fmtOf (f : Nat) : Fmt :=
  match f with
  | 1 => ⟨8, 7, 127, true, false, 255, 120⟩
  | 2 => ⟨5, 10, 15, true, false, 2047, 5⟩
  | 3 => ⟨4, 3, 7, false, true, 14, 5⟩
  | 4 => ⟨5, 2, 15, true, false, 7, 13⟩
  | 5 => ⟨3, 2, 3, false, false, 7, 2⟩
  | 6 => ⟨2, 3, 1, false, false, 15, -1⟩
  | 7 => ⟨2, 1, 1, false, false, 3, 1⟩
  | _ => ⟨8, 23, 127, true, false, 2 ^ 24 - 1, 104⟩

/-- The exact value of a code: NaN, an infinity, or (−1)^s × m × 2^e. -/
inductive Num where
  | nan
  | inf (s : Nat)
  | fin (s m : Nat) (e : Int)
  deriving DecidableEq, Repr, Inhabited

/-- `decode` (R210). -/
def decode (x f : Nat) (scale : Nat := 0x7F) : Num :=
  let F := fmtOf f
  if scale = 0xFF then .nan
  else
    let s := x / 2 ^ (F.e + F.m)
    let ex := x / 2 ^ F.m % 2 ^ F.e
    let mt := x % 2 ^ F.m
    if F.ieee ∧ ex = 2 ^ F.e - 1 then (if mt = 0 then .inf s else .nan)
    else if F.e4m3 ∧ ex = 15 ∧ mt = 7 then .nan
    else if ex = 0 then .fin s mt (1 - (F.bias : Int) - F.m + ((scale : Int) - 127))
    else .fin s (mt + 2 ^ F.m) ((ex : Int) - F.bias - F.m + ((scale : Int) - 127))

/-! ## One rounding (R211) -/

/-- The canonical NaN of FP32. -/
def NAN32 : Nat := 0x7FC00000
/-- Shift left by a non-negative amount. -/
def shl (x : Nat) (k : Int) : Nat := x * 2 ^ k.toNat
/-- −1 to the sign, times a magnitude. -/
def signed (s m : Nat) : Int := if s = 0 then m else -(m : Int)

/-- `round_sig`: RNE of (num/den) × 2^e, with no upper exponent bound, as r × 2^q. -/
def roundSig (num den : Nat) (e : Int) (f : Nat) : Nat × Int :=
  let F := fmtOf f
  let l0 : Int := (bitLength num : Int) - bitLength den
  let l := if shl num (-l0) < shl den l0 then l0 - 1 else l0
  let q : Int := max (e + l) (1 - (F.bias : Int)) - F.m
  let n2 := shl num (e - q)
  let d2 := shl den (q - e)
  let r := n2 / d2
  let rem := n2 % d2
  (if 2 * rem > d2 ∨ (2 * rem = d2 ∧ r % 2 = 1) then r + 1 else r, q)

/-- `exceeds`. -/
def exceeds (f r : Nat) (q : Int) : Bool :=
  let F := fmtOf f
  let lo := min q F.maxExp
  decide (shl r (q - lo) > shl F.maxSig (F.maxExp - lo))

/-- `encode`. -/
def encodeNum (f s r : Nat) (q : Int) : Nat :=
  let F := fmtOf f
  let c := decide (r / 2 ^ (F.m + 1) ≠ 0)
  let r' := if c then r / 2 else r
  let q' := if c then q + 1 else q
  let ex := if r' / 2 ^ F.m ≠ 0 then (q' + F.m + F.bias).toNat else 0
  s * 2 ^ (F.e + F.m) + ex * 2 ^ F.m + r' % 2 ^ F.m

/-- `round_fp32`. -/
def roundFp32 (s num den : Nat) (e : Int) : Nat :=
  if num = 0 then s * 2 ^ 31
  else
    let r := roundSig num den e 0
    if exceeds 0 r.1 r.2 then s * 2 ^ 31 + 0x7F800000 else encodeNum 0 s r.1 r.2

/-- A signed exact value times 2^e, rounded; zero is +0. -/
def roundInt (t : Int) (e : Int) : Nat := roundFp32 (if t < 0 then 1 else 0) t.natAbs 1 e

def isNan (x : Nat) : Bool := decode x 0 == .nan
def isInf (x : Nat) : Bool := match decode x 0 with | .inf _ => true | _ => false
def isZero (x : Nat) : Bool := match decode x 0 with | .fin _ 0 _ => true | _ => false
def fpNeg (x : Nat) : Nat := Nat.xor x 0x80000000

/-- `to_fp32` of a code with its block scale. -/
def toFp32 (x f : Nat) (scale : Nat := 0x7F) : Nat :=
  match decode x f scale with
  | .nan => NAN32
  | .inf s => s * 2 ^ 31 + 0x7F800000
  | .fin s m e => roundFp32 s m 1 e

/-- `fp32_add`. -/
def fpAdd (x y : Nat) : Nat :=
  match decode x 0, decode y 0 with
  | .nan, _ => NAN32
  | _, .nan => NAN32
  | .inf a, .inf b => if a = b then x else NAN32
  | .inf _, _ => x
  | _, .inf _ => y
  | .fin sa ma ea, .fin sb mb eb =>
    if ma = 0 ∧ mb = 0 then Nat.land x y
    else
      let lo := min ea eb
      roundInt (signed sa (shl ma (ea - lo)) + signed sb (shl mb (eb - lo))) lo

def fpSub (x y : Nat) : Nat := fpAdd x (fpNeg y)

/-- `fp32_mul`. -/
def fpMul (x y : Nat) : Nat :=
  let s := Nat.xor x y / 2 ^ 31 % 2
  match decode x 0, decode y 0 with
  | .nan, _ => NAN32
  | _, .nan => NAN32
  | .inf _, .fin _ m _ => if m = 0 then NAN32 else s * 2 ^ 31 + 0x7F800000
  | .fin _ m _, .inf _ => if m = 0 then NAN32 else s * 2 ^ 31 + 0x7F800000
  | .inf _, .inf _ => s * 2 ^ 31 + 0x7F800000
  | .fin _ ma ea, .fin _ mb eb => roundFp32 s (ma * mb) 1 (ea + eb)

/-- `fp32_div`. -/
def fpDiv (x y : Nat) : Nat :=
  let s := Nat.xor x y / 2 ^ 31 % 2
  match decode x 0, decode y 0 with
  | .nan, _ => NAN32
  | _, .nan => NAN32
  | .inf _, .inf _ => NAN32
  | .inf _, _ => s * 2 ^ 31 + 0x7F800000
  | _, .inf _ => s * 2 ^ 31
  | .fin _ ma ea, .fin _ mb eb =>
    if mb = 0 then (if ma = 0 then NAN32 else s * 2 ^ 31 + 0x7F800000) else roundFp32 s ma mb (ea - eb)

/-- `fp32_cmp`: −1, 0 or 1, none when either is NaN. -/
def fpCmp (x y : Nat) : Option Int :=
  let sgn := fun (a b : Int) => if a < b then (-1 : Int) else if a > b then 1 else 0
  let key := fun d => match d with
    | Num.inf s => if s = 0 then (2 : Int) else -2
    | _ => 0
  match decode x 0, decode y 0 with
  | .nan, _ => none
  | _, .nan => none
  | .fin sa ma ea, .fin sb mb eb =>
    let lo := min ea eb
    some (sgn (signed sa (shl ma (ea - lo))) (signed sb (shl mb (eb - lo))))
  | a, b => some (sgn (key a) (key b))

def fpGt (x y : Nat) : Bool := fpCmp x y == some 1
def fpGe (x y : Nat) : Bool := fpCmp x y == some 1 || fpCmp x y == some 0
def fpLt (x y : Nat) : Bool := fpCmp x y == some (-1)

/-- `fp32_floor_int`, of a finite value. -/
def fpFloor (x : Nat) : Int :=
  match decode x 0 with
  | .fin s m e => if e ≥ 0 then signed s m * 2 ^ e.toNat else signed s m / 2 ^ (-e).toNat
  | _ => 0

/-- `fp32_from_int`. -/
def fpOfInt (n : Int) : Nat := roundInt n 0

/-- `fp32_scale`. -/
def fpScale (x : Nat) (n : Int) : Nat :=
  match decode x 0 with
  | .fin s m e => roundFp32 s m 1 (e + n)
  | _ => x

/-! ## The reference order of a product (R214 to R217) -/

/-- One product's part in a chunk. -/
inductive Term where
  | nan
  | inf (s : Nat)
  | fin (s m : Nat) (e : Int)
  | zero
  deriving DecidableEq, Repr

/-- The exact product of two values. -/
def termOf (x y : Num) : Term :=
  match x, y with
  | .nan, _ => .nan
  | _, .nan => .nan
  | .inf a, .inf b => .inf (Nat.xor a b)
  | .inf a, .fin b m _ => if m = 0 then .nan else .inf (Nat.xor a b)
  | .fin a m _, .inf b => if m = 0 then .nan else .inf (Nat.xor a b)
  | .fin a m e, .fin b n g => if m = 0 ∨ n = 0 then .zero else .fin (Nat.xor a b) (m * n) (e + g)

/-- The finite products of a chunk. -/
def finTerms (l : List Term) : List (Nat × Nat × Int) :=
  l.filterMap (fun t => match t with | .fin s m e => some (s, m, e) | _ => none)
/-- The largest of a list of integers, over a start. -/
def maxInt (d : Int) (l : List Int) : Int := l.foldl max d
def minInt (d : Int) (l : List Int) : Int := l.foldl min d

/-- `chunk_sum` (R214). -/
def chunkSum (l : List Term) (window : Bool) : Nat :=
  let infs := (l.filterMap (fun t => match t with | Term.inf s => some s | _ => none)).eraseDups
  if l.any (· == .nan) || infs.length == 2 then NAN32
  else match infs with
  | s :: _ => s * 2 ^ 31 + 0x7F800000
  | [] =>
    match finTerms l with
    | [] => 0
    | (s0, m0, e0) :: t =>
      let fins := (s0, m0, e0) :: t
      let top := maxInt (e0 + bitLength m0) (t.map (fun x => x.2.2 + bitLength x.2.1))
      let low50 := top - 50
      let fins := if window then fins.map (fun x =>
        (x.1, if x.2.2 ≥ low50 then shl x.2.1 (x.2.2 - low50) else x.2.1 / 2 ^ (low50 - x.2.2).toNat, low50)) else fins
      let low := minInt (if window then low50 else e0) (fins.map (fun x => x.2.2))
      roundInt ((fins.map (fun x => signed x.1 (shl x.2.1 (x.2.2 - low)))).sum) low

/-- Formats whose chunks use the 50-bit window. -/
def windowed (f : Nat) : Bool := f == 1 || f == 2

/-- Cut a list into pieces of `n`. The first argument bounds the number of pieces. -/
def pieces {α : Type} : Nat → Nat → List α → List (List α)
  | 0, _, _ => []
  | k + 1, n, l => if l.isEmpty then [] else l.take n :: pieces k n (l.drop n)

/-- `ref_dot` (R214) over paired exact values. -/
def refDot (l : List (Num × Num)) (window : Bool) : Nat :=
  let parts := (pieces (l.length / 32 + 1) 32 l).map (fun c => chunkSum (c.map (fun t => termOf t.1 t.2)) window)
  match parts with
  | [] => 0
  | p :: ps => ps.foldl fpAdd p

/-- `ival` (R216): an INT8 or UINT8 element, with the zero point taken off. -/
def ival (x f z : Nat) : Int := if f = 8 then (if x ≥ 128 then (x : Int) - 256 else x) else (x : Int) - z

/-- One chunk of `ref_dot_int`: the accumulator and whether it has wrapped. -/
def intChunk (acc : Int × Bool) (l : List (Int × Int)) : Int × Bool :=
  let t := acc.1 + (l.map (fun p => p.1 * p.2)).sum
  if s32 (ofInt32 t) = t then (t, acc.2) else (s32 (ofInt32 t), true)

/-- `ref_dot_int` (R216): the 32-bit pattern and whether it wrapped. -/
def refDotInt (l : List (Int × Int)) : Nat × Bool :=
  let r := (pieces (l.length / 32 + 1) 32 l).foldl intChunk (0, false)
  (ofInt32 r.1, r.2)

/-- `combine_splits` (R217). -/
def combineSplits : List Nat → Nat
  | [] => 0
  | p :: ps => ps.foldl fpAdd p

/-! ## Narrowing (R220) -/

def maxCode (f : Nat) : Nat :=
  match f with | 1 => 0x7F7F | 2 => 0x7BFF | 3 => 0x7E | 4 => 0x7B | _ => 0x7F7FFFFF
def infCode (f : Nat) : Nat := match f with | 1 => 0x7F80 | 2 => 0x7C00 | 4 => 0x7C | _ => 0x7F800000
/-- The canonical NaN of a format (R209). -/
def qnan (f : Nat) : Nat := match f with | 1 => 0x7FC0 | 2 => 0x7E00 | 3 => 0x7F | 4 => 0x7E | _ => NAN32

/-- `narrow` (R220): the code and the saturation count. -/
def narrow (v f : Nat) (word : Option Nat) : Nat × Nat :=
  let F := fmtOf f
  let top := 2 ^ (F.e + F.m)
  match decode v 0 with
  | .nan => (qnan f, 0)
  | .inf s => if f = 3 then (s * top + maxCode f, 1) else (s * top + infCode f, 0)
  | .fin s m e =>
    if m = 0 then (s * top, 0)
    else
      let r : Nat × Int := match word with
        | none => roundSig m 1 e f
        | some k =>
          let q : Int := max (e + bitLength m - 1) (1 - (F.bias : Int)) - F.m
          let sh := e - q + 32
          let t := if sh ≥ 0 then shl m sh else m / 2 ^ (-sh).toNat
          ((t + k) / 2 ^ 32, q)
      if exceeds f r.1 r.2 then (s * top + maxCode f, 1) else (encodeNum f s r.1 r.2, 0)

/-! ## The draw (R222, R223) -/

/-- One round of Philox-4×32. -/
def philoxRound (c : Nat × Nat × Nat × Nat) (k0 k1 : Nat) : Nat × Nat × Nat × Nat :=
  let p0 := 0xD2511F53 * c.1
  let p1 := 0xCD9E8D57 * c.2.2.1
  (Nat.xor (Nat.xor (p1 / 2 ^ 32) c.2.1) k0, u32 p1, Nat.xor (Nat.xor (p0 / 2 ^ 32) c.2.2.2) k1, u32 p0)

/-- `philox4x32_10`, word 0. -/
def philox (c : Nat × Nat × Nat × Nat) (k0 k1 : Nat) : Nat :=
  ((List.range 10).foldl (fun c i => philoxRound c (u32 (k0 + i * 0x9E3779B9)) (u32 (k1 + i * 0xBB67AE85))) c).1

/-- `draw` (R222). -/
def draw (seed index purpose stream shift : Nat) : Nat :=
  philox (u32 index, u32 (index / 2 ^ 32), purpose * 2 ^ 28 + stream, u32 shift) (u32 seed) (u32 (seed / 2 ^ 32))

end Sys2Proof.Machine
end

