-- ==== Sys2Proof/Machine/Drain.lean ====
section
/-! DEFINITION. The drain (R194 to R203): activations, derivatives, conversion, block scales, saturation counts. -/

namespace Sys2Proof.Machine

/-! ## Activations (R196) -/

def ONE32 : Nat := 0x3F800000
def LOG2E32 : Nat := 0x3FB8AA3B
def BETA32 : Nat := 0x3FD9DB23

/-- `exp2_approx`. -/
def exp2Approx (t : Nat) : Nat :=
  if isNan t then NAN32
  else if fpGe t 0x43000000 then 0x7F800000
  else if fpLt t 0xC2FC0000 then 0
  else
    let n := fpFloor t
    let f := fpSub t (fpOfInt n)
    let p := [0x3C1D955B, 0x3D635847, 0x3E75FDF0, 0x3F317218, 0x3F800000].foldl (fun p c => fpAdd (fpMul p f) c) 0x3AAEC3FF
    fpScale p n

/-- `sigmoid_approx`. -/
def sigmoidApprox (x : Nat) : Nat := fpDiv ONE32 (fpAdd ONE32 (exp2Approx (fpMul (fpNeg x) LOG2E32)))

/-- `act_forward`. -/
def actForward (code v : Nat) : Nat :=
  if code = 0 ∨ isNan v then v
  else if code = 1 then (if fpGt v 0 then v else 0)
  else if isInf v then (if fpGt v 0 then v else 0x80000000)
  else fpMul v (sigmoidApprox (fpMul (if code = 2 then BETA32 else ONE32) v))

/-- `act_backward`. -/
def actBackward (code g x : Nat) : Nat :=
  if isNan g || isNan x then NAN32
  else if code = 8 then (if fpGt x 0 then g else 0)
  else if isInf x then (if fpGt x 0 then g else fpMul g 0)
  else
    let b := if code = 9 then BETA32 else ONE32
    let s := sigmoidApprox (fpMul b x)
    let t := fpMul (fpMul (fpMul b x) s) (fpSub ONE32 s)
    fpMul g (fpAdd s t)

/-- The activation step of `drain_value` (R194): the value after bias, and after activation with a canonical NaN. -/
def biased (xRole xv v : Nat) : Nat := if xRole = 1 then fpAdd v xv else v
def activated (act xv v : Nat) : Nat :=
  let r := if act < 8 then actForward act v else actBackward act v xv
  if isNan r then NAN32 else r

/-! ## Conversion (R197) and block scales (R198) -/

/-- Convert to an unpacked format: code and saturations. -/
def convert (v f : Nat) : Nat × Nat := if f = 0 then (v, 0) else narrow v f none

def mxEmax (f : Nat) : Int := match f with | 3 => 8 | 4 => 15 | 5 => 4 | 6 => 2 | _ => 2

/-- Sign, significand and exponent of a finite FP32 value. -/
def finOf (v : Nat) : Nat × Nat × Int := match decode v 0 with | .fin s m e => (s, m, e) | _ => (0, 0, 0)
/-- `floor_log2` (R224). -/
def floorLog2 (v : Nat) : Int := (finOf v).2.2 + bitLength (finOf v).2.1 - 1
/-- The magnitude of an FP32 pattern. -/
def absBits (v : Nat) : Nat := v % 2 ^ 31

/-- `round_to_code`: x × 2^−s rounded once to the element format. -/
def roundToCode (f v : Nat) (s : Int) : Nat :=
  let x := finOf v
  if x.2.1 = 0 then x.1 * 2 ^ ((fmtOf f).e + (fmtOf f).m)
  else
    let r := roundSig x.2.1 1 (x.2.2 - s) f
    encodeNum f x.1 r.1 r.2

/-- `mx_block` (R198): scale byte, codes, saturations. -/
def mxBlock (v : List Nat) (f : Nat) : Nat × List Nat × Nat :=
  if v.any (fun x => isNan x || isInf x) then (0xFF, v.map (fun _ => 0), (v.filter isInf).length)
  else
    let amax := (v.map absBits).foldl max 0
    if amax = 0 then (0x7F, v.map (fun x => roundToCode f x 0), 0)
    else
      let s0 := floorLog2 amax - mxEmax f
      let x := finOf amax
      let r := roundSig x.2.1 1 (x.2.2 - s0) f
      let s := max (if exceeds f r.1 r.2 then s0 + 1 else s0) (-127)
      ((s + 127).toNat, v.map (fun x => roundToCode f x s), 0)

/-! ## Writing a run of values along dimension 0 -/

/-- Whether a command traps NaN (R218). -/
def Blk.trapsNan (b : Blk) (part cmd : Nat) : Bool :=
  match fNan cmd with
  | 0 => (b.struct.plan.num part).nan == 1
  | n => n == 2

/-- Write values at consecutive coordinates of dimension 0 from `i0`, the other coordinates `rest` (R197, R198): by
element, or in blocks of 32 when the descriptor is packed. Saturations are counted, and in propagate mode NaN values
(R228). -/
def writeRun (w : Work) (x : Flight) (d : DescImg) (i0 : Nat) (rest : List Nat) (vals : List Nat) : URes :=
  let at_ := fun (i : Nat) => resolve w x d (((i0 + i) :: rest).map Int.ofNat)
  let counts := !w.trapsNan x.part x.cmd
  if d.mx then
    let bs := pieces (vals.length / 32 + 1) 32 vals
    bs.zipIdx.foldl (fun (u : URes) b =>
      let m := mxBlock b.1 d.fmt
      let e := m.2.1.zipIdx.foldl (fun (u : URes) c => u.and (writeRef w x d (at_ (32 * b.2 + c.2)) c.1 (some m.1))) {}
      u.and { e with sat := m.2.2, ctr := e.ctr ++ (if counts && m.1 == 0xFF then [(0x0400, b.1.length)] else []) }) {}
  else
    vals.zipIdx.foldl (fun (u : URes) v =>
      let c := convert v.1 d.fmt
      let e := writeRef w x d (at_ v.2) c.1 none
      u.and { e with sat := c.2, ctr := e.ctr ++ (if counts && isNan v.1 then [(0x0400, 1)] else []) }) {}

/-! ## Saturation and NaN of a tile's units -/

/-- A unit that would write a NaN under trap faults with 0x0401 (R218). -/
def trapUnit (trap : Bool) (vals : List Nat) (u : URes) : URes :=
  if trap && u.bad == 0 && vals.any isNan then { weight := u.weight, bad := 0x0401, reads := u.reads } else u

end Sys2Proof.Machine
end

