-- ==== Sys2Proof/Machine/Dense.lean ====
section
/-! DEFINITION. Stope arrays and the drift path: TILE_MM and TILE_MV (05_dense_engines.md), and the power ramp. -/

namespace Sys2Proof.Machine

/-! ## Operands (R167) -/

def mmA (cmd : Nat) : Nat := bits (cb cmd 4 2) 11 0
def mmAct (cmd : Nat) : Nat := bits (cb cmd 4 2) 15 12
def mmB (cmd : Nat) : Nat := bits (cb cmd 6 2) 11 0
def mmSplit (cmd : Nat) : Bool := bit (cb cmd 6 2) 12
def mmAssay (cmd : Nat) : Bool := bit (cb cmd 6 2) 13
def mmC (cmd : Nat) : Nat := bits (cb cmd 8 2) 11 0
def mmX (cmd : Nat) : Nat := bits (cb cmd 10 2) 11 0
def mmXRole (cmd : Nat) : Nat := bits (cb cmd 10 2) 15 14
def mmT (cmd : Nat) : Nat := bits (cb cmd 12 2) 11 0
def mmTRole (cmd : Nat) : Nat := bits (cb cmd 12 2) 15 14

/-- Reserved bits of R167, and an x or t index without its role. -/
def mmReserved (cmd : Nat) : Bool :=
  bits (cb cmd 6 2) 15 14 == 0 && bits (cb cmd 8 2) 15 12 == 0 && bits (cb cmd 10 2) 13 12 == 0
    && bits (cb cmd 12 2) 13 12 == 0 && cb cmd 14 2 == 0
    && (mmXRole cmd != 0 || mmX cmd == 0) && (mmTRole cmd != 0 || mmT cmd == 0)

/-- The descriptors that a tile command names. -/
def mmDescs (cmd : Nat) : List Nat :=
  [mmA cmd, mmB cmd, mmC cmd] ++ (if mmXRole cmd ≠ 0 then [mmX cmd] else []) ++ (if mmTRole cmd ≠ 0 then [mmT cmd] else [])

def isFp4or6 (f : Nat) : Bool := decide (5 ≤ f) && decide (f ≤ 7)
def isInt8 (f : Nat) : Bool := f == 8 || f == 9
/-- R173: the pair is allowed. -/
def pairOk (a b : Nat) : Bool :=
  (decide (3 ≤ a) && decide (a ≤ 7) && decide (3 ≤ b) && decide (b ≤ 7)) || (isInt8 a && isInt8 b)
    || (a == 1 && b == 1) || (a == 2 && b == 2)

/-- R172 for TILE_MM; `int` says that the operands are integers. -/
def mmModes (cmd : Nat) (int : Bool) (c : DescImg) : Bool :=
  let act := mmAct cmd
  let xr := mmXRole cmd
  let tr := mmTRole cmd
  (decide (act ≤ 3) || (decide (8 ≤ act) && decide (act ≤ 10))) && tr != 3
    && (!(decide (1 ≤ act) && decide (act ≤ 3)) || xr != 2) && (decide (act < 8) || xr == 2)
    && (xr != 2 || decide (8 ≤ act)) && (xr != 3 || ((c.fmt == 3 || c.fmt == 4) && !c.mx))
    && (tr != 1 || (!mmSplit cmd && !mmAssay cmd)) && (tr != 2 || (decide (1 ≤ act) && decide (act ≤ 3) && !mmAssay cmd))
    && (!mmAssay cmd || (tr == 0 && !mmSplit cmd))
    && (!int || (act == 0 && xr == 0 && tr == 0 && !mmAssay cmd))

/-- R173, R176 and the formats of R168. C of an assay pass that is not FP32 breaks R168 and draws 0x0281 with the other
formats: R207 names it under no code (log entry 144). -/
def mmFormats (cmd : Nat) (a b c x t : DescImg) : Bool :=
  let int := isInt8 a.fmt
  pairOk a.fmt b.fmt && (if int then c.fmt == 0 else decide (c.fmt ≤ 7)) && (!mmAssay cmd || c.fmt == 0)
    && (match mmXRole cmd with | 0 => true | 3 => x.fmt == 0 | _ => decide (x.fmt ≤ 2))
    && (match mmTRole cmd with
      | 1 => decide (3 ≤ t.fmt) && decide (t.fmt ≤ 7) && t.mx
      | 2 => decide (t.fmt ≤ 2)
      | _ => true)

/-- R168: ranks and extents; the limits of TILE_MM or of TILE_MV (R189). -/
def mmShape (cmd : Nat) (mv : Bool) (a b c x t : DescImg) : Bool :=
  let K := a.e 0
  let M := a.e 1
  let N := b.e 1
  a.rank == 2 && b.rank == 2 && b.e 0 == K
    && (if mmAssay cmd then c.rank == 1 else c.rank == 2 && c.e 0 == N && c.e 1 == M)
    && (match mmXRole cmd with | 0 => true | 3 => x.rank == 1 | _ => x.rank == 2 && x.e 0 == N && x.e 1 == M)
    && (match mmTRole cmd with
      | 1 => t.rank == 2 && t.e 0 == M && t.e 1 == N
      | 2 => t.rank == 2 && t.e 0 == N && t.e 1 == M
      | _ => true)
    && decide (K ≤ 1048576) && (if mv then decide (M ≤ 8) && decide (N ≤ 65536) else decide (M ≤ 4096) && decide (N ≤ 4096))

/-- R169: a descriptor lies in the executing face's store or its gallery's. -/
def DescImg.near (d : DescImg) (usable face : Nat) : Bool :=
  match place usable d.allocBase with
  | .face f => f == face | .gal g => g == face / 12 | _ => false
def DescImg.inHbm (d : DescImg) (usable : Nat) : Bool := place usable d.allocBase == .hbm

/-- Two reaches intersect (R141, R170). -/
def reachMeets (a b : DescImg) : Bool :=
  let x := reachOf a
  let y := reachOf b
  decide (x.1 ≤ y.2) && decide (y.1 ≤ x.2)
/-- R170: writes meet neither each other nor a read. -/
def mmApart (cmd : Nat) (a b c x t : DescImg) : Bool :=
  let reads := [a, b] ++ (if mmXRole cmd ≠ 0 then [x] else [])
  reads.all (fun r => !reachMeets c r)
    && (mmTRole cmd == 0 || (!reachMeets c t && reads.all (fun r => !reachMeets t r)))

/-- Element 0 of a rank 1 FP32 operand, read at issue. -/
def Work.elem0 (w : Work) (x : Flight) (d : DescImg) : Nat × URes :=
  let r := readRef w x d (resolve w x d [0])
  (r.1, r.2.2)
/-- R199: a positive normal power of two. -/
def scaleOk (v : Nat) : Bool := v % 2 ^ 23 == 0 && decide (1 ≤ v / 2 ^ 23) && decide (v / 2 ^ 23 ≤ 254)

/-- The index and kind checks that tile commands share. -/
def Blk.tileDescs (b : Blk) (part cmd : Nat) : Nat :=
  firstCode ((mmDescs cmd).map (fun i => codeUnless (b.descUsable part i) 0x0102)
    ++ [b.descCode part (mmA cmd) [0] true false, b.descCode part (mmB cmd) [0] true false,
      b.descCode part (mmC cmd) [0] false true, if mmXRole cmd ≠ 0 then b.descCode part (mmX cmd) [0] true false else 0,
      if mmTRole cmd ≠ 0 then b.descCode part (mmT cmd) [0] false true else 0])

/-- The checks of TILE_MM and TILE_MV at issue: the code, and what is kept from issue (the tensor scale). -/
def mmIssue (w : Work) (x : Flight) (mv : Bool) : Nat × List Nat :=
  let p := x.part
  let cmd := x.cmd
  let a := w.img p (mmA cmd)
  let b := w.img p (mmB cmd)
  let c := w.img p (mmC cmd)
  let xd := w.img p (mmX cmd)
  let t := w.img p (mmT cmd)
  let near := fun (d : DescImg) => d.near w.usable x.face
  let placed := near a && (near b || (mv && b.inHbm w.usable)) && near c && (mmXRole cmd == 0 || near xd)
    && (mmTRole cmd == 0 || near t)
  let s := w.elem0 x xd
  let code := firstCode [w.tileDescs p cmd,
    codeUnless (mmModes cmd (isInt8 a.fmt) c && (!mmSplit cmd || decide (a.e 1 ≤ 64)) && (!mv || (!mmSplit cmd && !mmAssay cmd && mmTRole cmd == 0))) 0x0283,
    codeUnless (mmFormats cmd a b c xd t) 0x0281, codeUnless (mmShape cmd mv a b c xd t) 0x0282,
    codeUnless placed 0x0280, codeUnless (mmApart cmd a b c xd t) 0x0285,
    if mmXRole cmd = 3 then firstCode [s.2.bad, codeUnless (scaleOk s.1) 0x0284] else 0]
  (code, if mmXRole cmd = 3 then [s.1] else [])

/-! ## One output element -/

/-- A tile command as its units see it. -/
structure Tile where
  a : DescImg
  b : DescImg
  c : DescImg
  xd : DescImg
  t : DescImg
  act : Nat
  xRole : Nat
  tRole : Nat
  assay : Bool
  trap : Bool
  scale : Nat
  deriving DecidableEq, Repr

def tileOf (w : Work) (x : Flight) : Tile :=
  let i := fun n => w.img x.part n
  let cmd := x.cmd
  ⟨i (mmA cmd), i (mmB cmd), i (mmC cmd), i (mmX cmd), i (mmT cmd), mmAct cmd, mmXRole cmd, mmTRole cmd, mmAssay cmd,
    w.trapsNan x.part cmd, x.cap.headD 0⟩

/-- A row of a product operand: its codes and scales at (0..K−1, j), and the reads. -/
def operandRow (w : Work) (x : Flight) (d : DescImg) (j : Nat) : List (Nat × Nat) × URes :=
  readMany w x d ((List.range (d.e 0)).map (fun (k : Nat) => [(k : Int), (j : Int)]))

/-- The block scale of an element: 2^0 when unpacked (R174). -/
def scaleOf (d : DescImg) (s : Nat) : Nat := if d.mx then s else 0x7F

/-- The accumulator of an output element (R214, R216), and whether an integer one wrapped. -/
def accOf (a b : DescImg) (ra rb : List (Nat × Nat)) : Nat × Bool :=
  if isInt8 a.fmt then refDotInt ((ra.zip rb).map (fun p => (ival p.1.1 a.fmt a.zp, ival p.2.1 b.fmt b.zp)))
  else (refDot ((ra.zip rb).map (fun p =>
    (decode p.1.1 a.fmt (scaleOf a p.1.2), decode p.2.1 b.fmt (scaleOf b p.2.2)))) (windowed a.fmt), false)

/-- X at (n, m) as FP32 for roles 1 and 2. -/
def xAt (w : Work) (x : Flight) (t : Tile) (n m : Nat) : Nat × URes :=
  if t.xRole = 1 ∨ t.xRole = 2 then
    let r := readRef w x t.xd (resolve w x t.xd [(n : Int), (m : Int)])
    (toFp32 r.1 t.xd.fmt, r.2.2)
  else (0, {})

/-- What the drain makes of an element (R194): accumulator, value before activation, after it, and as written. -/
structure Drained where
  pre : Nat
  act : Nat
  out : Nat
  wrapped : Bool
  u : URes
  deriving DecidableEq, Repr

def drained (w : Work) (x : Flight) (t : Tile) (ra rb : List (Nat × Nat)) (n m : Nat) : Drained :=
  let acc := accOf t.a t.b ra rb
  if isInt8 t.a.fmt then ⟨acc.1, 0, acc.1, acc.2, {}⟩
  else
    let xv := xAt w x t n m
    let pre := biased t.xRole xv.1 acc.1
    let v := activated t.act xv.1 pre
    ⟨pre, v, if t.xRole = 3 then fpMul v t.scale else v, false, xv.2⟩

/-- Write a run of columns of one row of C (R197, R198, R201), and T in role 2 (R202). -/
def writeRow (w : Work) (x : Flight) (t : Tile) (n0 m : Nat) (ds : List Drained) : URes :=
  let int := isInt8 t.a.fmt
  let u := ds.foldl (fun (u : URes) d => u.and d.u) {}
  let tu := if t.tRole = 2 then writeRun w x t.t n0 [m] (ds.map (·.pre)) else {}
  let cu := if int then
      ds.zipIdx.foldl (fun (u : URes) d =>
        let e := writeRef w x t.c (resolve w x t.c [((n0 + d.2 : Nat) : Int), (m : Int)]) d.1.out none
        u.and { e with sat := if d.1.wrapped then 1 else 0,
                       ctr := e.ctr ++ (if d.1.wrapped then [(0x0410, 1)] else []) }) {}
    else writeRun w x t.c n0 [m] (ds.map (·.out))
  let r := u.and (tu.and cu)
  trapUnit (t.trap && !int) (ds.map (·.act)) { r with ctr := r.ctr ++ (if r.sat = 0 then [] else [(0x0340, r.sat)]) }

/-! ## TILE_MM's units -/

/-- The pass of row block `mb` and column block `nb` (R179): its rows of A and B, and the fault of its reads (R557). -/
def passRows (w : Work) (x : Flight) (t : Tile) (lo hi nb : Nat) :
    List (Nat × List (Nat × Nat)) × List (Nat × List (Nat × Nat)) × URes :=
  let ms := (List.range (hi - lo)).map (lo + ·)
  let ns := (List.range (min 64 (t.b.e 1 - 64 * nb))).map (64 * nb + ·)
  let ra := ms.map (fun m => (m, operandRow w x t.a m))
  let rb := ns.map (fun n => (n, operandRow w x t.b n))
  let u := (ra.map (·.2.2) ++ rb.map (·.2.2)).foldl URes.and {}
  (ra.map (fun r => (r.1, r.2.1)), rb.map (fun r => (r.1, r.2.1)), u)

/-- The drained elements of a row of a pass. -/
def passRow (w : Work) (x : Flight) (t : Tile) (rb : List (Nat × List (Nat × Nat))) (r : Nat × List (Nat × Nat)) :
    List Drained := rb.map (fun c => drained w x t r.2 c.2 c.1 r.1)

/-- The row-segments of one pass (R204): one unit for each row, or for each 32 rows with t_role 1. The reads of the
pass belong to its first unit, and their fault stands at it. -/
def passUnits (w : Work) (x : Flight) (t : Tile) (lo hi nb : Nat) : List URes :=
  let p := passRows w x t lo hi nb
  let n0 := 64 * nb
  let first := fun (us : List URes) => match us with
    | u :: r => ({ p.2.2 with weight := u.weight }.and u) :: r
    | [] => []
  if t.tRole = 1 then
    first ((pieces 3 32 p.1).map fun rows =>
      let ds := rows.map (fun r => (r.1, passRow w x t p.2.1 r))
      let c := ds.foldl (fun (u : URes) r => u.and (writeRow w x t n0 r.1 r.2)) {}
      let m0 := (rows.headD (0, [])).1
      let tu := p.2.1.zipIdx.foldl (fun (u : URes) col =>
        let vs := ds.map (fun r => (r.2.getD col.2 ⟨0, 0, 0, false, {}⟩).out)
        u.and (writeRun w x t.t m0 [col.1.1] vs)) {}
      let both := c.and { tu with ctr := tu.ctr ++ (if tu.sat = 0 then [] else [(0x0340, tu.sat)]) }
      { both with weight := rows.length })
  else first (p.1.map fun r => writeRow w x t n0 r.1 (passRow w x t p.2.1 r))

/-- The passes of an assay: what each reads, and its values (R200). -/
def assayPasses (w : Work) (x : Flight) (t : Tile) : List (URes × List Nat) :=
  (List.range (ceilDiv (t.a.e 1) 64)).flatMap fun mb => (List.range (ceilDiv (t.b.e 1) 64)).map fun nb =>
    let p := passRows w x t (64 * mb) (min (64 * mb + 64) (t.a.e 1)) nb
    let ds := p.1.flatMap (passRow w x t p.2.1)
    (p.2.2.and (ds.foldl (fun (u : URes) d => u.and d.u) {}), ds.map (·.act))
/-- The one unit of an assay pass (R200). -/
def assayUnit (w : Work) (x : Flight) (t : Tile) : URes :=
  let ps := assayPasses w x t
  let vals := ps.flatMap (·.2)
  let reads := ps.foldl (fun (u : URes) p => u.and p.1) {}
  let amax := if vals.any isNan then NAN32 else (vals.map absBits).foldl max 0
  let e := writeRef w x t.c (resolve w x t.c [0]) amax none
  trapUnit t.trap vals (reads.and { e with ctr := e.ctr ++ (if isNan amax then [(0x0400, 1)] else []) })

/-- The units of rows `lo` to `hi − 1` of a tile, pass by pass (R179). -/
def tileUnits (w : Work) (x : Flight) (t : Tile) (lo hi : Nat) : List URes :=
  (List.range (ceilDiv (hi - lo) 64)).flatMap fun mb =>
    (List.range (ceilDiv (t.b.e 1) 64)).flatMap fun nb =>
      passUnits w x t (lo + 64 * mb) (min (lo + 64 * mb + 64) hi) nb

/-! ## Retire cycles (R177, R178, R192) -/

/-- d of R178. -/
def drainDepth (t : Tile) : Nat :=
  let conv := fun (d : DescImg) => decide (1 ≤ d.fmt) && decide (d.fmt ≤ 4) && !d.mx
  8 + (if t.xRole = 1 then 2 else 0) + (if t.act = 2 ∨ t.act = 3 ∨ t.act = 9 ∨ t.act = 10 then 28 else 0)
    + (if (!isInt8 t.a.fmt && conv t.c) || (t.tRole != 0 && conv t.t) then 2 else 0)
    + (if t.c.mx || (t.tRole != 0 && t.t.mx) then 10 else 0)
/-- S of R177: the stream length of a pass. -/
def streamLen (t : Tile) : Nat :=
  let K := t.a.e 0
  if isFp4or6 t.a.fmt && isFp4or6 t.b.fmt then ceilDiv K 2
  else if t.a.fmt = 1 ∨ t.a.fmt = 2 then 4 * K else K
/-- The array cycles in which the drift path applies the B elements of `cols` columns (R190). -/
def mvApply (t : Tile) (cols : Nat) : Nat :=
  ceilDiv (t.a.e 0) 32 * (if t.a.fmt = 1 ∨ t.a.fmt = 2 then cols else ceilDiv cols 4)

/-- The cycles in which some interval (its end excluded) of a list that rises by start holds; the first argument is the
end of what has been counted. -/
def unionLen : Nat → List (Nat × Nat) → Nat
  | _, [] => 0
  | t, (a, b) :: l => (b - max a t) + unionLen (max t b) l

/-- The rows of each pass of rows `lo` to `hi − 1` (R179). -/
def tilePasses (t : Tile) (lo hi : Nat) : List Nat :=
  (List.range (ceilDiv (hi - lo) 64)).flatMap fun mb =>
    List.replicate (ceilDiv (t.b.e 1) 64) (min 64 (hi - lo - 64 * mb))

/-- When the array streams and drains, from pass `p` on, up to `segs` further row-segments: each pass streams for `S`
cycles from p × max(S, 64), and 126 cycles after its stream its rows are drained to depth `d` (R177, R251). -/
def busySpans (S d : Nat) : Nat → List Nat → Nat → List (Nat × Nat)
  | _, [], _ => []
  | p, r :: rs, segs =>
    let s0 := p * max S 64
    let e0 := s0 + S
    let n := min r segs
    let drain := if n = 0 then [] else [(e0 + 126, e0 + 126 + (if n = r then 64 else n) + d)]
    (s0, e0) :: drain ++ (if segs < r then [] else busySpans S d (p + 1) rs (segs - r))

/-- The cycles in which some interval of a list holds. -/
def busyCycles (l : List (Nat × Nat)) : Nat := unionLen 0 (l.foldl (fun acc e => insBy e acc) [])
/-- Where the streams of the passes that `busySpans` takes end. -/
def streamEnd (S : Nat) : Nat → List Nat → Nat → Nat
  | _, [], _ => 0
  | p, r :: rs, segs => max (p * max S 64 + S) (if segs < r then 0 else streamEnd S (p + 1) rs (segs - r))

/-- When a tile keeps its array or riffle engine busy, and where its stream ends (log entry 14). -/
structure Busy where
  spans : List (Nat × Nat) := []
  stream : Nat := 0
  deriving DecidableEq, Repr
/-- That of a tile of stream length `S` and drain depth `d` that committed `segs` row-segments of its passes (R177, R251). -/
def busyOf (S d : Nat) (passes : List Nat) (segs : Nat) : Busy := ⟨busySpans S d 0 passes segs, streamEnd S 0 passes segs⟩
/-- The cycles that a tile adds to those in which the one before it still drains (R180, R208, R558). -/
def Busy.cycles (b : Busy) (tail : List (Nat × Nat)) : Nat := busyCycles (tail ++ b.spans) - busyCycles tail
/-- What still drains when its stream ends, counted from there. -/
def Busy.tail (b : Busy) (tail : List (Nat × Nat)) : List (Nat × Nat) :=
  (tail ++ b.spans).filterMap fun e => if e.2 > b.stream then some (e.1 - b.stream, e.2 - b.stream) else none

/-- The passes of an assay up to the first that faults, given their codes, and the row-segments of those before it (R200): all
of them where the fault is not in a pass's reads. -/
def assayRan (passes bads : List Nat) : List Nat × Nat :=
  let k := (bads.takeWhile (· == 0)).length
  (passes.take (k + 1), (passes.take k).sum)
/-- How a tile of passes `passes` ran: `n` is what it committed; an assay that faults of itself has run the passes before. -/
def ranPasses (assay : Bool) (passes : List Nat) (n : Nat) (own : Bool) (bads : List Nat) : List Nat × Nat :=
  if !assay then (passes, n) else if own then assayRan passes bads else (passes, n * passes.sum)

/-! ## Running a tile -/

/-- A limit from outside as the shared runner takes it: none, or after how many units and with which code. -/
def limitOf (p : Option Nat) (code : Nat) : Option (Nat × Nat) := p.map (fun n => (n, code))

/-- One half of a split tile (R185): its units up to its stop are committed. A deadline does not stop a half that has
reached its end (R187). Returns the half's end. -/
def Work.runHalf (w : Work) (x : Flight) (us : List URes) (limit : Option (Nat × Nat)) : Work × Half :=
  let stop := stopAt us (limit.filter (fun l => l.2 != 0x0210 || decide (l.1 < us.length)))
  let n := match stop with | some (n, _) => n | none => us.length
  let good := us.take n
  let w1 := w.commitUnits x false 0 good
  let sat := (good.map (·.sat)).sum
  match stop with
  | none => (w1, ⟨wmOf us, 0, sat⟩)
  | some (_, code) =>
    let w1 := match us[n]? with
      | some u => if u.bad = code then w1.readingTo x.part u.reads u.ecc else w1
      | none => w1
    let k := w1.fresh
    (k.2.tornWops k.1 ((us.drop n).flatMap (·.wr)), ⟨wmOf good, code, sat⟩)

/-- The record of one half. -/
def halfRec (b : Blk) (x : Flight) (status : Nat) (i : Nat) (h : Half) : Rec :=
  { flightRec b x status h.code h.wm with unit := unitByte x.unit (some i) }

/-- End a split tile that counts as faulted (R187): every half's record, faulted halves first. `miss` is the code of the
command where no half has faulted. Of two halves that fault with different codes half 0's stays as the context's last fault
(log entry 145). -/
def Work.endHalves (w : Work) (x : Flight) (hs : List (Nat × Half)) (miss : Nat) : Work :=
  let bad := hs.filter (fun h => h.2.code ≠ 0)
  let good := hs.filter (fun h => h.2.code = 0)
  let code := ((bad.head?).map (·.2.code)).getD miss
  let w := (w.delFlight x.id).faultCtx x.q (opOf x.cmd) x.seq code
  let w := w.each bad fun w h => w.writeRec x.q (halfRec w.toBlk x 3 h.1 h.2)
  let w := w.each good fun w h => w.writeRec x.q (halfRec w.toBlk x (if x.late then 1 else 0) h.1 h.2)
  let w := if bad.length = 1 ∧ good.length = 1 then w.faceCtr x.face 0x0370 1 else w
  let w := w.faceCtr x.face 0x0408 (bad.filter (fun h => h.2.code = 0x0401)).length
  w.faultMarks x.q x.part (opOf x.cmd) (bad.map (·.2.code)) x.shift

/-- The rows of the halves that a split tile has (R186). -/
def halfRows (m : Nat) : List (Nat × Nat × Nat) := (0, 0, min 32 m) :: (if m > 32 then [(1, 32, m)] else [])

/-- Run a split tile. `limit` gives each half's limit. -/
def doSplit (x : Flight) (t : Tile) (limit : Nat → Option (Nat × Nat)) (w : Work) : Work :=
  let start := w
  let r := (halfRows (t.a.e 1)).foldl (fun (acc : Work × List (Nat × Half)) h =>
    let e := acc.1.runHalf x (tileUnits start x t h.2.1 h.2.2) (limit h.1)
    (e.1, acc.2 ++ [(h.1, e.2)])) (w, [])
  if r.2.any (fun h => h.2.code ≠ 0) then r.1.endHalves x r.2 0
  else r.1.modFlight x.id fun y => { y with phase := .done, halves := r.2.map (·.2), wm := (r.2.map (·.2.wm)).sum }

/-- The units of an unsplit TILE_MM. -/
def mmUnits (w : Work) (x : Flight) : List URes :=
  let t := tileOf w x
  if t.assay then [assayUnit w x t] else tileUnits w x t 0 (t.a.e 1)

/-- Another command has been taken by the unit on which `x` runs, and begins when the stream of `x` ends (R558). -/
def Blk.behind (b : Blk) (x : Flight) : Bool :=
  b.flights.any fun y => y.id != x.id && y.cls == x.cls && y.face == x.face && y.phase == .running x.unit
/-- The stope array goes idle when its tile ends, and its busy cycles are counted (R208). -/
def Work.arrEnds (w : Work) (x : Flight) (b : Busy) : Work :=
  let was := ((w.face x.face).arrs.getD x.unit {}).tail
  let tail := if w.behind x then b.tail was else []
  (w.modFace x.face fun c => { c with
    arrs := updAt c.arrs x.unit (fun a => { a with idleAt := w.clk.cyc10, tail := tail }) }).faceCtr x.face
    (0x0310 + 8 * x.unit) (b.cycles was)

/-- The watermark of units that run under a limit. -/
def wmUnder (us : List URes) (limit : Option (Nat × Nat)) : Nat :=
  match stopAt us limit with
  | some (n, _) => wmOf (us.take n)
  | none => wmOf us

/-- Units stop at a fault of their own, not at a limit. -/
def stopsAlone (us : List URes) (limit : Option (Nat × Nat)) : Bool :=
  match stopAt us limit, limit with
  | some s, some l => decide (s.1 < l.1)
  | some _, none => true
  | none, _ => false
/-- What keeps the array busy for the tile that `x` runs under `limit` (log entry 14): in split mode, the half that goes
further. -/
def mmBusy (w : Work) (x : Flight) (limit : Nat → Option (Nat × Nat)) : Busy :=
  let t := tileOf w x
  let busy := busyOf (streamLen t) (drainDepth t)
  if mmSplit x.cmd then
    ((halfRows (t.a.e 1)).map fun h =>
      busy (tilePasses t h.2.1 h.2.2) (wmUnder (tileUnits w x t h.2.1 h.2.2) (limit h.1))).foldl
        (fun a b => if b.cycles [] > a.cycles [] then b else a) {}
  else
    let us := mmUnits w x
    let r := ranPasses t.assay (tilePasses t 0 (t.a.e 1)) (wmUnder us (limit 0)) (stopsAlone us (limit 0))
      (if t.assay then (assayPasses w x t).map (·.1.bad) else [])
    busy r.1 r.2

/-- Run a TILE_MM, and end its array's work. In split mode a parity number is 2 × units + half. A deadline that passes
while the array is not ON finds the feeders not started (R183): nothing is committed, and no cycle was busy. -/
def doTileMm (x : Flight) (limit : Nat → Option (Nat × Nat)) (w : Work) : Work :=
  let on := ((w.face x.face).arrs.getD x.unit {}).pw == .on
  let lim := fun h => if on then limit h else (limit h).map (fun l => (0, l.2))
  let busy := if on then mmBusy w x lim else {}
  let w := if mmSplit x.cmd then doSplit x (tileOf w x) lim w
    else
      let us := mmUnits w x
      w.runUnits x us (wmOf us) (lim 0) false true
  w.arrEnds x busy

/-- TILE_MM on array `u` of face `f`, when the array is ON (R183). -/
def tileMmRow (f u : Nat) (parity : Option Nat) (w : Work) : Work :=
  match w.runningOn f u 0x30 with
  | none => w
  | some x =>
    if ((w.face f).arrs.getD u {}).pw = .on then
      let lim := fun (h : Nat) => match parity with
        | none => none
        | some n => if mmSplit x.cmd then (if n % 2 = h then some (n / 2, 0x0290) else none) else some (n, 0x0290)
      doTileMm x lim w
    else w

/-- TILE_MM (R167 to R188, R204). -/
def execTileMm (f u : Nat) (parity : Option Nat) (s : State) : Host.Outcome State Fault Refusal :=
  runIf (f < Config.nFaces && u < 4) (tileMmRow f u parity) s

/-- The columns that a TILE_MV commits together (R205). -/
def mvGroup (t : Tile) : Nat := if t.c.mx then 32 else if t.a.fmt = 1 ∨ t.a.fmt = 2 then 1 else 4

/-- The units of a TILE_MV: column groups with all rows. -/
def mvUnits (w : Work) (x : Flight) : List URes :=
  let t := tileOf w x
  let ra := (List.range (t.a.e 1)).map (fun m => (m, operandRow w x t.a m))
  let aU := (ra.map (·.2.2)).foldl URes.and {}
  (pieces (t.b.e 1) (mvGroup t) (List.range (t.b.e 1))).zipIdx.map fun g =>
    let rb := g.1.map (fun n => (n, operandRow w x t.b n))
    let reads := (if g.2 = 0 then [aU] else []) ++ rb.map (·.2.2)
    let cols := rb.map (fun r => (r.1, r.2.1))
    let us := ra.map (fun r => writeRow w x t (g.1.headD 0) r.1 (passRow w x t cols (r.1, r.2.1)))
    { ((reads ++ us).foldl URes.and {}) with weight := g.1.length }

/-- Run a TILE_MV. -/
def doTileMv (x : Flight) (limit : Option (Nat × Nat)) (w : Work) : Work :=
  let us := mvUnits w x
  (w.runUnits x us (wmOf us) limit false true).faceCtr x.face 0x0338 (mvApply (tileOf w x) (wmUnder us limit))

def tileMvRow (f u : Nat) (parity : Option Nat) (w : Work) : Work :=
  match w.runningOn f u 0x31 with
  | none => w
  | some x => doTileMv x (limitOf parity 0x0291) w

/-- TILE_MV (R189 to R193, R205). -/
def execTileMv (f u : Nat) (parity : Option Nat) (s : State) : Host.Outcome State Fault Refusal :=
  runIf (f < Config.nFaces && u < 1) (tileMvRow f u parity) s

/-! ## The power ramp (R181 to R183) -/

def Work.modArr (w : Work) (f a : Nat) (g : Arr → Arr) : Work :=
  w.modFace f fun c => { c with arrs := updAt c.arrs a g }

/-- An array is asked to come up: by a tile or by its keep_warm bit (R181). One that has only begun to wind down still
has its eight groups up and is ON at once. -/
def Arr.wake (a : Arr) : Arr :=
  match a.pw with
  | .off => { a with pw := .ramping, groups := 0 }
  | .winding => { a with pw := if a.groups ≥ 8 then .on else .ramping }
  | _ => a
/-- The wait of a tile dispatched to an array: w of R177 (R183). -/
def Arr.rampWait (a : Arr) : Nat := 4 * (8 - a.groups)

/-- One further row group comes up (R182). -/
def Arr.rampStep (a : Arr) : Arr :=
  if a.pw = .ramping then (if a.groups + 1 ≥ 8 then { a with pw := .on, groups := 8 } else { a with groups := a.groups + 1 })
  else a
/-- One row group goes off (R182). -/
def Arr.windStep (a : Arr) : Arr :=
  if a.pw = .winding then (if a.groups ≤ 1 then { a with pw := .off, groups := 0 } else { a with groups := a.groups - 1 })
  else a

/-- No tile runs on the array. -/
def Blk.arrIdle (b : Blk) (f a : Nat) : Bool := (b.runningOn f a 0x30).isNone

/-- STOPE_RAMP_STEP (R182). The array is ON when its eighth group is up and then counts idle time from there. -/
def execStopeRampStep (f a : Nat) (s : State) : Host.Outcome State Fault Refusal :=
  runIf (f < Config.nFaces && a < 4) (fun w => w.modArr f a fun x =>
    let y := x.rampStep
    if y.pw = .on ∧ x.pw = .ramping then { y with idleAt := w.clk.cyc10 } else y) s

/-- STOPE_IDLE_TIMEOUT (R181): 64 idle array cycles with keep_warm clear. -/
def execStopeIdleTimeout (f a : Nat) (s : State) : Host.Outcome State Fault Refusal :=
  runIf (f < Config.nFaces && a < 4) (fun w =>
    if w.arrIdle f a ∧ bit (w.face f).keepWarm a = false ∧ w.clk.cyc10 ≥ ((w.face f).arrs.getD a {}).idleAt + 640 then
      w.modArr f a fun x => if x.pw = .on then { x with pw := .winding } else x
    else w) s

/-- STOPE_WIND_STEP (R182). -/
def execStopeWindStep (f a : Nat) (s : State) : Host.Outcome State Fault Refusal :=
  runIf (f < Config.nFaces && a < 4) (fun w => w.modArr f a Arr.windStep) s

/-- Write keep_warm: arrays whose bit is set come up, and one whose bit is cleared counts its idle cycles from here
(R181, R208). -/
def Work.setKeepWarm (w : Work) (f v : Nat) : Work :=
  let was := (w.face f).keepWarm
  let w := w.modFace f fun c => { c with keepWarm := v % 16 }
  w.each (List.range 4) fun w a =>
    if bit v a then w.modArr f a Arr.wake
    else if bit was a then w.modArr f a fun y => { y with idleAt := w.clk.cyc10 }
    else w

/-- FACE_STOPE_CTRL (R208). -/
def execFaceStopeCtrl (f value : Nat) (s : State) : Host.Outcome State Fault Refusal :=
  runIf (f < Config.nFaces) (fun w => w.setKeepWarm f value) s

end Sys2Proof.Machine
end

