-- ==== Sys2Proof/Machine/Riffle.lean ====
section
/-! DEFINITION. The riffle engine: MASK_REG and TILE_SP (07_structured_sparsity.md). -/

namespace Sys2Proof.Machine

/-! ## Codes (R230 to R236) -/

/-- The checks of `decode_group` (R233), in its order: 0 or a code. -/
def groupCode (z pattern : Nat) : Nat :=
  let p0 := bits z 1 0
  let t := p0 + bits z 3 2 + bits z 5 4
  let p1 := p0 + 1 + bits z 3 2
  if t < 2 then 0x0301
  else if t > 2 then 0x0302
  else if pattern = 1 ∧ ¬(p0 ≤ 1 ∧ 1 < p1) then 0x0304 else 0
/-- The positions of a group (R230). -/
def groupPos (z : Nat) : Nat × Nat := (bits z 1 0, bits z 1 0 + 1 + bits z 3 2)
/-- The code of positions q0 < q1 (R230). -/
def runCode (q0 q1 : Nat) : Nat := q0 + 4 * (q1 - q0 - 1) + 16 * (3 - q1)

/-- A 48-bit code word of a row of a code tensor (R232). -/
def codeWord (w : Work) (x : Flight) (d : DescImg) (row wd : Nat) : Nat × URes :=
  let r := readMany w x d ((List.range 6).map (fun (i : Nat) => [((6 * wd + i : Nat) : Int), (row : Int)]))
  (leNat (r.1.map (·.1)), r.2)

/-- Decoded groups of one sparse row or column: positions with their slot bits, the first failure, the reads. -/
structure Meta where
  pos : List ((Nat × Nat) × (Nat × Nat)) := []
  bad : Nat := 0
  u : URes := {}
  deriving DecidableEq, Repr

/-- Take one more group: its code, its pattern, its slot bits, the dense extent. -/
def Meta.group (a : Meta) (u : URes) (z pattern j0 j1 lim : Nat) : Meta :=
  let r := { a with u := a.u.and u }
  if u.bad ≠ 0 then { r with bad := u.bad }
  else
    let c := groupCode z pattern
    let p := groupPos z
    if c ≠ 0 then { r with bad := c }
    else if 4 * a.pos.length + p.2 ≥ lim then { r with bad := 0x0303 }
    else { r with pos := a.pos ++ [((p.1, j0), (p.2, j1))] }

/-- The row codes of `n` groups from group `g0` of a row, against a dense extent (R233, R253). A word is read once. -/
def rowMeta (w : Work) (x : Flight) (d : DescImg) (pattern row g0 n lim : Nat) : Meta :=
  (List.range n).foldl (fun a g =>
    if a.bad ≠ 0 then a
    else
      let r := codeWord w x d row ((g0 + g) / 8)
      let k := (g0 + g) % 8
      a.group (if g = 0 ∨ k = 0 then r.2 else {}) (bits r.1 (6 * k + 5) (6 * k)) pattern 0 1 lim) {}

/-- The column codes of `n` bands from band `b0` of a column (R236, R253). -/
def colMeta (w : Work) (x : Flight) (d : DescImg) (col b0 n lim : Nat) : Meta :=
  (List.range n).foldl (fun a b =>
    if a.bad ≠ 0 then a
    else
      let r := readRef w x d (resolve w x d [((b0 + b : Nat) : Int), (col : Int)])
      a.group r.2.2 (bits r.1 5 0) 0 (bits r.1 6 6) (bits r.1 7 7) lim) {}

/-! ## MASK_REG (R237 to R243) -/

def mrSlot (cmd : Nat) : Nat := bits (cb cmd 4 1) 3 0
def mrOp (cmd : Nat) : Nat := cb cmd 5 1
def mrRows (cmd : Nat) : Nat := bits (cb cmd 6 2) 11 0
def mrCols (cmd : Nat) : Nat := bits (cb cmd 8 2) 11 0
def mrKw (cmd : Nat) : Nat := cb cmd 10 4
def mrNw (cmd : Nat) : Nat := cb cmd 14 2 + 1

/-- Reserved operands of R237. -/
def mrReserved (cmd : Nat) : Bool :=
  bits (cb cmd 4 1) 7 4 == 0 && decide (mrOp cmd ≤ 2)
    && (if mrOp cmd = 2 then cb cmd 6 10 == 0 else bits (cb cmd 6 2) 15 12 == 0 && bits (cb cmd 8 2) 15 12 == 0)

/-- A mask slot of a face. -/
def Blk.slot (b : Blk) (f s : Nat) : MaskSlot := Tab.get {} (b.face f).masks s
def Work.setSlot (w : Work) (f s : Nat) (m : MaskSlot) : Work :=
  w.modFace f fun c => { c with masks := c.masks.set {} s m }

/-- R238. -/
def codeTensor (d : DescImg) (e0 e1 : Nat) : Bool :=
  d.fmt == 8 && d.rank == 2 && !d.mx && d.e 0 == e0 && d.s 0 == 1 && d.e 1 == e1

/-- Steps 2 to 5 of R239, and the release checks of R241. -/
def maskIssue (w : Work) (x : Flight) : Nat :=
  let p := x.part
  let cmd := x.cmd
  let st := (w.slot x.face (mrSlot cmd)).st
  if mrOp cmd = 2 then codeUnless (st == .registered) 0x02A8
  else
    let r := w.img p (mrRows cmd)
    let c := w.img p (mrCols cmd)
    let kW := mrKw cmd
    let nW := mrNw cmd
    firstCode [codeUnless (w.descUsable p (mrRows cmd)) 0x0102, codeUnless (w.descUsable p (mrCols cmd)) 0x0102,
      w.descCode p (mrRows cmd) [0] true false, w.descCode p (mrCols cmd) [0] false true,
      codeUnless (decide (4 ≤ kW) && decide (kW ≤ 1048576) && kW % 4 == 0 && decide (4 ≤ nW) && nW % 4 == 0
        && codeTensor r (6 * ceilDiv kW 32) nW && codeTensor c (nW / 4) kW) 0x02A9,
      codeUnless (st == .free) 0x02A7, codeUnless (!reachMeets c r) 0x02A4]

/-- At issue a registration holds its slot and a release marks it (R239, R241). -/
def Work.holdMask (w : Work) (x : Flight) : Work :=
  let s := mrSlot x.cmd
  w.setSlot x.face s { w.slot x.face s with st := if mrOp x.cmd = 2 then .releasing else .registering }
/-- What a MASK_REG that faults leaves: the slot free, or registered again (R239, R241). -/
def Work.unholdMask (w : Work) (x : Flight) : Work :=
  if opOf x.cmd ≠ 0x41 then w
  else
    let s := mrSlot x.cmd
    if mrOp x.cmd = 2 then w.setSlot x.face s { w.slot x.face s with st := .registered }
    else w.setSlot x.face s {}

/-- The columns of one band (R235, R236): `rows` gives each row's positions by group. -/
def bandColumns (w : Work) (x : Flight) (cols : DescImg) (b kW : Nat) (rows : List Meta) : URes :=
  (List.range kW).foldl (fun (u : URes) (k : Nat) =>
    if u.bad ≠ 0 then u
    else
      let hits := rows.zipIdx.filterMap fun r =>
        let p := r.1.pos.getD (k / 4) ((4, 0), (4, 1))
        if p.1.1 = k % 4 then some (r.2, 0) else if p.2.1 = k % 4 then some (r.2, 1) else none
      match hits with
      | [h0, h1] => u.and (writeRef w x cols (resolve w x cols [(b : Int), (k : Int)])
          (128 * h1.2 + 64 * h0.2 + runCode h0.1 h1.1) none)
      | _ => u.and { bad := 0x0305 }) {}

/-- The padding of a row's last word (R232). -/
def padCode (w : Work) (x : Flight) (d : DescImg) (row kW : Nat) : Meta :=
  let rem := kW / 4 % 8
  if rem = 0 then {}
  else
    let r := codeWord w x d row (kW / 32)
    if r.2.bad ≠ 0 then { bad := r.2.bad, u := r.2 }
    else if r.1 / 2 ^ (6 * rem) ≠ 0 then { bad := 0x0306 } else {}

/-- One band of step 6 of R239. -/
def bandUnit (w : Work) (x : Flight) (rd cd : DescImg) (kW pattern b : Nat) : URes :=
  let rows := (List.range 4).foldl (fun (acc : List Meta × Nat × URes) i =>
    if acc.2.1 ≠ 0 then acc
    else
      let p := padCode w x rd (4 * b + i) kW
      if p.bad ≠ 0 then (acc.1, p.bad, acc.2.2.and p.u)
      else
        let m := rowMeta w x rd pattern (4 * b + i) 0 (kW / 4) kW
        (acc.1 ++ [m], m.bad, acc.2.2.and m.u)) ([], 0, {})
  if rows.2.1 ≠ 0 then { rows.2.2 with bad := rows.2.1 } else rows.2.2.and (bandColumns w x cd b kW rows.1)

/-- The units up to the first that faults, that one included. -/
def uptoBad : List URes → List URes
  | [] => []
  | u :: us => if u.bad = 0 then u :: uptoBad us else [u]

/-- Count a fault of class 0x03 of the riffle engine (R259). -/
def Work.metaFault (w : Work) (f code : Nat) : Work :=
  if code / 256 = 3 then w.faceCtr f 0x0510 1 else w

/-- The bands of a registration, up to the first that fails. -/
def registerUnits (w : Work) (x : Flight) : List URes :=
  uptoBad ((List.range (mrNw x.cmd / 4)).map
    (bandUnit w x (w.img x.part (mrRows x.cmd)) (w.img x.part (mrCols x.cmd)) (mrKw x.cmd) (mrOp x.cmd)))

/-- The cycles that a registration ran (R243): all of them, or, where it stops at a band, those up to that band's end
(log entry 14). -/
def registerCycles (cmd : Nat) (bands : Nat) : Nat := 40 + ceilDiv (min (mrNw cmd) (4 * bands) * mrKw cmd) 256

/-- A command leaves the riffle engine, and its busy cycles are counted (R259, R558). -/
def Work.riffleEnds (w : Work) (x : Flight) (b : Busy) : Work :=
  let was := (w.face x.face).tail
  let tail := if w.behind x then b.tail was else []
  (w.modFace x.face fun c => { c with tail := tail }).faceCtr x.face 0x0500 (b.cycles was)
/-- A MASK_REG has run for so many cycles. -/
def Work.maskEnds (w : Work) (x : Flight) (n : Nat) : Work := w.riffleEnds x ⟨[(0, n)], n⟩

/-- Run a registration. -/
def doRegister (x : Flight) (limit : Option (Nat × Nat)) (w : Work) : Work :=
  let rd := w.img x.part (mrRows x.cmd)
  let cd := w.img x.part (mrCols x.cmd)
  let kW := mrKw x.cmd
  let nW := mrNw x.cmd
  let us := registerUnits w x
  let stop := stopAt us limit
  let r := w.runUnits x us us.length limit false true
  let r := r.maskEnds x (registerCycles x.cmd (match stop with | some (n, _) => n + 1 | none => nW / 4))
  match stop with
  | some (_, code) => (r.unholdMask x).metaFault x.face code
  | none => r.setSlot x.face (mrSlot x.cmd) ⟨.registering, kW, nW, mrOp x.cmd, rd, cd⟩

/-- A command is a TILE_SP that names a slot. -/
def spNames (cmd slot : Nat) : Bool := opOf cmd == 0x40 && bits (cb cmd 12 4) 3 0 == slot
/-- A TILE_SP that issued earlier still holds the slot (R241). -/
def Blk.slotUsed (b : Blk) (x : Flight) : Bool :=
  b.flights.any (fun y => decide (y.id < x.id) && y.face == x.face && spNames y.cmd (mrSlot x.cmd))

/-- Run a release: it waits for the TILE_SPs before it and then frees the slot (R241). It registers no band, so R243's
formula gives it 40 cycles. -/
def doRelease (x : Flight) (limit : Option (Nat × Nat)) (w : Work) : Work :=
  match limit with
  | some (_, code) => (w.faultFlight x code 0).unholdMask x
  | none => if w.slotUsed x then w else (w.maskEnds x 40).doneFlight x 1

/-- When a MASK_REG retires its slot is registered, or free (R239, R241). -/
def Work.retireMask (w : Work) (x : Flight) : Work :=
  if opOf x.cmd ≠ 0x41 then w
  else if mrOp x.cmd = 2 then w.setSlot x.face (mrSlot x.cmd) {}
  else w.setSlot x.face (mrSlot x.cmd) { w.slot x.face (mrSlot x.cmd) with st := .registered }

def doMaskReg (x : Flight) (limit : Option (Nat × Nat)) (w : Work) : Work :=
  if mrOp x.cmd = 2 then doRelease x limit w else doRegister x limit w

def maskRegRow (f u : Nat) (w : Work) : Work :=
  match w.runningOn f u 0x41 with
  | none => w
  | some x => doMaskReg x none w

/-- MASK_REG (R239, R241). It uses no cell and no accumulator, so no parity error of R256 is its own. -/
def execMaskReg (f u : Nat) (parity : Option Nat) (s : State) : Host.Outcome State Fault Refusal :=
  runIf (f < Config.nFaces && u < 1) (fun w => if parity.isSome then w else maskRegRow f u w) s

/-! ## TILE_SP: operands and checks (R244 to R249) -/

def spA (cmd : Nat) : Nat := bits (cb cmd 4 2) 11 0
def spAct (cmd : Nat) : Nat := bits (cb cmd 4 2) 15 12
def spB (cmd : Nat) : Nat := bits (cb cmd 6 2) 11 0
def spProduct (cmd : Nat) : Nat := bits (cb cmd 6 2) 13 12
def spAssay (cmd : Nat) : Bool := bit (cb cmd 6 2) 14
def spC (cmd : Nat) : Nat := bits (cb cmd 8 2) 11 0
def spX (cmd : Nat) : Nat := bits (cb cmd 10 2) 11 0
def spXRole (cmd : Nat) : Nat := bits (cb cmd 10 2) 15 14
def spSlot (cmd : Nat) : Nat := bits (cb cmd 12 4) 3 0
def spN0 (cmd : Nat) : Nat := 64 * bits (cb cmd 12 4) 13 4
def spK0 (cmd : Nat) : Nat := 64 * bits (cb cmd 12 4) 27 14

/-- Reserved operands of R244. -/
def spReserved (cmd : Nat) : Bool :=
  !bit (cb cmd 6 2) 15 && bits (cb cmd 8 2) 15 12 == 0 && bits (cb cmd 10 2) 13 12 == 0 && bits (cb cmd 12 4) 31 28 == 0
    && (spXRole cmd != 0 || spX cmd == 0)

def spDescs (cmd : Nat) : List Nat := [spA cmd, spB cmd, spC cmd] ++ (if spXRole cmd ≠ 0 then [spX cmd] else [])

/-- R249 with R172. -/
def spModes (cmd : Nat) (b c : DescImg) : Bool :=
  let act := spAct cmd
  let xr := spXRole cmd
  let pr := spProduct cmd
  pr != 3 && (decide (act ≤ 3) || (decide (8 ≤ act) && decide (act ≤ 10)))
    && (!(decide (1 ≤ act) && decide (act ≤ 3)) || xr != 2) && (decide (8 ≤ act) == (xr == 2))
    && (xr != 3 || ((c.fmt == 3 || c.fmt == 4) && !c.mx))
    && (pr != 2 || (act == 0 && xr == 0 && !spAssay cmd))
    && (pr != 1 || !(b.fmt == 1 || b.fmt == 2) || xr != 3)

/-- R246, R247 and the X formats of R168. -/
def spFormats (cmd : Nat) (a b c xd : DescImg) : Bool :=
  let low := fun (f : Nat) => decide (3 ≤ f) && decide (f ≤ 7)
  let fp8 := fun (f : Nat) => f == 3 || f == 4
  (if spProduct cmd = 2 then
      ((low a.fmt && low b.fmt && (fp8 a.fmt || fp8 b.fmt)) || (a.fmt == 1 && b.fmt == 1) || (a.fmt == 2 && b.fmt == 2))
        && decide (c.fmt ≤ 4) && !c.mx
    else
      ((fp8 b.fmt && !b.mx && low a.fmt) || (a.fmt == 1 && b.fmt == 1) || (a.fmt == 2 && b.fmt == 2))
        && decide (c.fmt ≤ 7) && (!spAssay cmd || c.fmt == 0))
    && (match spXRole cmd with | 0 => true | 3 => xd.fmt == 0 | _ => decide (xd.fmt ≤ 2))

/-- Output columns of FWD and DGRAD, stored slots of WGRAD. -/
def spCols (cmd : Nat) (b : DescImg) : Nat :=
  match spProduct cmd with | 0 => b.e 1 | 1 => 2 * b.e 0 | _ => 2 * ceilDiv (b.e 1) 4

/-- R245. -/
def spShape (cmd : Nat) (a b c xd : DescImg) : Bool :=
  let n := spCols cmd b
  a.rank == 2 && b.rank == 2
    && (if spAssay cmd then c.rank == 1 else c.rank == 2 && c.e 0 == n && c.e 1 == a.e 1)
    && (match spXRole cmd with | 0 => true | 3 => xd.rank == 1 | _ => xd.rank == 2 && xd.e 0 == n && xd.e 1 == a.e 1)
    && (match spProduct cmd with
      | 0 => b.e 0 == 2 * ceilDiv (a.e 0) 4 && decide (a.e 1 ≤ 4096) && decide (n ≤ 4096) && decide (a.e 0 ≤ 1048576)
      | 1 => b.e 1 == a.e 0 && n % 4 == 0 && decide (a.e 1 ≤ 4096) && decide (n ≤ 4096) && decide (a.e 0 ≤ 1048576)
      | _ => b.e 0 == a.e 0 && decide (a.e 0 ≤ 1048576) && decide (a.e 1 ≤ 4096) && decide (b.e 1 ≤ 8192))

/-- The window of R245: rows and columns. -/
def spWindow (cmd : Nat) (a b : DescImg) : Nat × Nat :=
  match spProduct cmd with
  | 0 => (b.e 1, 4 * ceilDiv (a.e 0) 4)
  | 1 => (4 * ceilDiv (a.e 0) 4, spCols cmd b)
  | _ => (a.e 1, 4 * ceilDiv (b.e 1) 4)

/-- The checks of TILE_SP at issue, and what is kept from issue. -/
def spIssue (w : Work) (x : Flight) : Nat × List Nat :=
  let p := x.part
  let cmd := x.cmd
  let a := w.img p (spA cmd)
  let b := w.img p (spB cmd)
  let c := w.img p (spC cmd)
  let xd := w.img p (spX cmd)
  let m := w.slot x.face (spSlot cmd)
  let near := fun (d : DescImg) => d.near w.usable x.face
  let win := spWindow cmd a b
  let s := w.elem0 x xd
  let hasX := spXRole cmd != 0
  let code := firstCode ((spDescs cmd).map (fun i => codeUnless (w.descUsable p i) 0x0102)
    ++ [w.descCode p (spA cmd) [0] true false, w.descCode p (spB cmd) [0] true false, w.descCode p (spC cmd) [0] false true,
      if hasX then w.descCode p (spX cmd) [0] true false else 0,
      codeUnless (m.st == .registered) 0x02A5, codeUnless (spModes cmd b c) 0x02A3, codeUnless (spFormats cmd a b c xd) 0x02A1,
      codeUnless (spShape cmd a b c xd) 0x02A2,
      codeUnless (decide (spN0 cmd + win.1 ≤ m.nW) && decide (spK0 cmd + win.2 ≤ m.kW)) 0x02A6,
      codeUnless (near a && near b && near c && (!hasX || near xd)) 0x02A0,
      codeUnless (([a, b, m.rows, m.cols] ++ (if hasX then [xd] else [])).all (fun r => !reachMeets c r)) 0x02A4,
      if spXRole cmd = 3 then firstCode [s.2.bad, codeUnless (scaleOk s.1) 0x0284] else 0])
  (code, if spXRole cmd = 3 then [s.1] else [])

/-! ## TILE_SP: passes (R250 to R255) -/

/-- A TILE_SP as the drain sees it. -/
def spTile (w : Work) (x : Flight) : Tile :=
  let i := fun n => w.img x.part n
  ⟨i (spA x.cmd), i (spB x.cmd), i (spC x.cmd), i (spX x.cmd), {}, spAct x.cmd, spXRole x.cmd, 0, spAssay x.cmd,
    w.trapsNan x.part x.cmd, x.cap.headD 0⟩

/-- The stored element that meets each dense index (R250): its row and slot, none where masked. -/
def denseSlots (product n K : Nat) (m : Meta) : List (Option (Nat × Nat)) :=
  (List.range K).map fun k =>
    let p := m.pos.getD (k / 4) ((4, 0), (4, 1))
    let j := if p.1.1 = k % 4 then some p.1.2 else if p.2.1 = k % 4 then some p.2.2 else none
    if product = 0 then j.map (fun j => (2 * (k / 4) + j, n)) else j.map (fun j => (2 * (n / 4) + j, k))

/-- Read the stored elements of one sparse row or column. -/
def storedRow (w : Work) (x : Flight) (d : DescImg) : List (Option (Nat × Nat)) → List (Option Nat) × URes
  | [] => ([], {})
  | none :: t => let r := storedRow w x d t; (none :: r.1, r.2)
  | some (i, j) :: t =>
    let e := readRef w x d (resolve w x d [(i : Int), (j : Int)])
    let r := storedRow w x d t
    (some e.1 :: r.1, e.2.2.and r.2)

/-- Pair a dense row with an expanded one: a masked position forms no product (R215, R250). -/
def maskPairs (ra : List (Nat × Nat)) (rb : List (Option Nat)) : List (Nat × Nat) × List (Nat × Nat) :=
  let z := (ra.zip rb).map fun p => match p.2 with
    | some v => (p.1, (v, 0x7F))
    | none => ((0, 0x7F), (0, 0x7F))
  (z.map (·.1), z.map (·.2))

/-- A row of a pass: its number, what it alone reads, its drained elements. -/
structure SpRow where
  row : Nat
  u : URes
  els : List Drained
  deriving DecidableEq, Repr
/-- One pass: its first metadata failure, the reads that its rows share, its rows. -/
structure SpPass where
  bad : Nat := 0
  u : URes := {}
  rows : List SpRow := []
  deriving DecidableEq, Repr

/-- The first failure of a list of decoded rows, with the reads up to it. -/
def metaBad (l : List Meta) : Nat × URes :=
  l.foldl (fun (acc : Nat × URes) m => if acc.1 ≠ 0 then acc else (m.bad, acc.2.and m.u)) (0, {})

/-- A pass of FWD or DGRAD (R250, R253). -/
def densePass (w : Work) (x : Flight) (t : Tile) (m : MaskSlot) (mb nb : Nat) : SpPass :=
  let pr := spProduct x.cmd
  let K := t.a.e 0
  let N := spCols x.cmd t.b
  let ns := (List.range (min 64 (N - 64 * nb))).map (64 * nb + ·)
  let ms := (List.range (min 64 (t.a.e 1 - 64 * mb))).map (64 * mb + ·)
  let metas := ns.map (fun n =>
    if pr = 0 then rowMeta w x m.rows m.pattern (spN0 x.cmd + n) (spK0 x.cmd / 4) (ceilDiv K 4) K
    else colMeta w x m.cols (spK0 x.cmd + n) (spN0 x.cmd / 4) (ceilDiv K 4) K)
  let b := metaBad metas
  if b.1 ≠ 0 then { bad := b.1, u := b.2 }
  else
    let ra := ms.map (fun i => (i, operandRow w x t.a i))
    let rb := (ns.zip metas).map (fun c => (c.1, storedRow w x t.b (denseSlots pr c.1 K c.2)))
    { u := (rb.map (·.2.2)).foldl URes.and b.2
      rows := ra.map fun r => ⟨r.1, r.2.2, rb.map fun c =>
        let z := maskPairs r.2.1 c.2.1
        drained w x t z.1 z.2 c.1 r.1⟩ }

/-- A pass of WGRAD: 64 weight rows by 128 dense columns, that is 64 stored slots (R245, R251). -/
def wgradPass (w : Work) (x : Flight) (t : Tile) (m : MaskSlot) (mb nb : Nat) : SpPass :=
  let Wk := t.b.e 1
  let gs := min 32 (ceilDiv Wk 4 - 32 * nb)
  let rs := (List.range (min 64 (t.a.e 1 - 64 * mb))).map (64 * mb + ·)
  let metas := rs.map (fun r =>
    rowMeta w x m.rows m.pattern (spN0 x.cmd + r) (spK0 x.cmd / 4 + 32 * nb) gs (Wk - 128 * nb))
  let b := metaBad metas
  if b.1 ≠ 0 then { bad := b.1, u := b.2 }
  else
    let ra := rs.map (fun r => (r, operandRow w x t.a r))
    let rb := (List.range (min 128 (Wk - 128 * nb))).map (fun k => operandRow w x t.b (128 * nb + k))
    { u := (rb.map (·.2)).foldl URes.and b.2
      rows := (ra.zip metas).map fun r => ⟨r.1.1, r.1.2.2, (List.range (2 * gs)).map fun s =>
        let p := r.2.pos.getD (s / 2) ((0, 0), (0, 1))
        let k := 4 * (s / 2) + (if s % 2 = 0 then p.1.1 else p.2.1)
        drained w x t r.1.2.1 (rb.getD k ([], {})).1 (64 * nb + s) r.1.1⟩ }

def spPass (w : Work) (x : Flight) (t : Tile) (m : MaskSlot) (p : Nat × Nat) : SpPass :=
  if spProduct x.cmd = 2 then wgradPass w x t m p.1 p.2 else densePass w x t m p.1 p.2

/-- The passes in the order of R179. -/
def spPasses (cmd : Nat) (t : Tile) : List (Nat × Nat) :=
  (List.range (ceilDiv (t.a.e 1) 64)).flatMap fun mb =>
    (List.range (ceilDiv (spCols cmd t.b) 64)).map fun nb => (mb, nb)

/-- The row-segments of the passes up to a metadata failure (R254, R255): its pass writes nothing, and its unit has no weight. A row of the first
operand is needed by its own row-segment, what the rows share by the pass's first (R450). -/
def spUnits (w : Work) (x : Flight) (t : Tile) (m : MaskSlot) : List (Nat × Nat) → List URes
  | [] => []
  | p :: ps =>
    let r := spPass w x t m p
    if r.bad ≠ 0 then [{ r.u with bad := r.bad, weight := 0 }]
    else (match r.rows.map (fun y => y.u.and (writeRow w x t (64 * p.2) y.row y.els)) with
      | u :: us => r.u.and u :: us
      | [] => []) ++ spUnits w x t m ps

/-- What a pass of an assay reads, with the code of its first failure. -/
def SpPass.reads (p : SpPass) : URes :=
  URes.and { p.u with bad := if p.bad ≠ 0 then p.bad else p.u.bad }
    (p.rows.foldl (fun (v : URes) y => y.els.foldl (fun (v : URes) d => v.and d.u) (v.and y.u)) {})
/-- The one unit of an assay (R200). -/
def spAssayUnit (w : Work) (x : Flight) (t : Tile) (m : MaskSlot) : URes :=
  let ps := (spPasses x.cmd t).map (spPass w x t m)
  let reads := ps.foldl (fun (u : URes) p => if u.bad ≠ 0 then u else u.and p.reads) {}
  let vals := (ps.flatMap (fun p => p.rows.flatMap (·.els))).map (·.act)
  let amax := if vals.any isNan then NAN32 else (vals.map absBits).foldl max 0
  let e := writeRef w x t.c (resolve w x t.c [0]) amax none
  trapUnit t.trap vals (reads.and { e with ctr := e.ctr ++ (if isNan amax then [(0x0400, 1)] else []) })

/-- The stream length and passes of R251. -/
def spStream (cmd : Nat) (t : Tile) : Nat :=
  let q := if t.a.fmt = 1 ∨ t.a.fmt = 2 then 4 else 1
  if spProduct cmd = 2 then t.a.e 0 * q else 2 * ceilDiv (t.a.e 0) 4 * q
/-- The units of a TILE_SP. -/
def tileSpUnits (w : Work) (x : Flight) : List URes :=
  let t := spTile w x
  let m := w.slot x.face (spSlot x.cmd)
  if t.assay then [spAssayUnit w x t m] else spUnits w x t m (spPasses x.cmd t)

/-- The rows of each pass. -/
def spRows (cmd : Nat) (t : Tile) : List Nat := (spPasses cmd t).map (fun p => min 64 (t.a.e 1 - 64 * p.1))
/-- The passes that `segs` row-segments fill. -/
def filled : Nat → List Nat → List Nat
  | _, [] => []
  | segs, r :: rs => if segs < r then [] else r :: filled (segs - r) rs
/-- What keeps the riffle engine busy for the TILE_SP that `x` runs under `limit` (R259, log entry 14). A pass whose codes
fail their check or cannot be read does not stream (R254). -/
def spBusy (w : Work) (x : Flight) (us : List URes) (limit : Option (Nat × Nat)) : Busy :=
  let t := spTile w x
  let m := w.slot x.face (spSlot x.cmd)
  let ps := if t.assay then (spPasses x.cmd t).map (spPass w x t m) else []
  let own := stopsAlone us limit
  let r := ranPasses t.assay (spRows x.cmd t) (wmUnder us limit) own (ps.map (·.reads.bad))
  let unread := if t.assay then own && decide ((ps.find? (fun p => p.reads.bad ≠ 0)).any (fun p => p.bad ≠ 0))
    else match stopAt us limit with
      | some (n, _) => (us[n]?).any (fun u => u.weight == 0)
      | none => false
  busyOf (spStream x.cmd t) (drainDepth t) (if unread then filled r.2 r.1 else r.1) r.2

/-- Run a TILE_SP. -/
def doTileSp (x : Flight) (limit : Option (Nat × Nat)) (w : Work) : Work :=
  let us := tileSpUnits w x
  let r := (w.runUnits x us (wmOf us) limit false true).riffleEnds x (spBusy w x us limit)
  match stopAt us limit with
  | some (_, code) => r.metaFault x.face code
  | none => r

def tileSpRow (f u : Nat) (parity : Option Nat) (w : Work) : Work :=
  match w.runningOn f u 0x40 with
  | none => w
  | some x => doTileSp x (limitOf parity 0x02B0) w

/-- TILE_SP (R244 to R257). -/
def execTileSp (f u : Nat) (parity : Option Nat) (s : State) : Host.Outcome State Fault Refusal :=
  runIf (f < Config.nFaces && u < 1) (tileSpRow f u parity) s

end Sys2Proof.Machine
end

