-- ==== Sys2Proof/Machine/Tram.lean ====
section
/-! DEFINITION. The tram engine: GATHER, MERGE and SEGSORT (08_gather_merge.md). -/

namespace Sys2Proof.Machine

/-! ## Shared -/

/-- Whether a command has left its unit: it ended or its own part is done. -/
def Blk.left (b : Blk) (x : Flight) : Bool :=
  match b.flight? x.id with
  | none => true
  | some y => decide (y.phase ≠ x.phase)

/-- The units that ran to their end. -/
def ranUnits (us : List URes) (limit : Option (Nat × Nat)) : Nat :=
  match stopAt us limit with
  | some (n, _) => min n us.length
  | none => us.length
/-- What every engine counts when a command has left it: busy cycles at `busy`, given by the units that ran, and faults of
class 0x03 at `metas` (log entry 14). -/
def Work.engineEnds (w : Work) (x : Flight) (us : List URes) (limit : Option (Nat × Nat)) (busy : Nat) (cycles : Nat → Nat)
    (metas : Nat) : Work :=
  if !w.left x then w
  else
    let w := w.faceCtr x.face busy (cycles (ranUnits us limit))
    match stopAt us limit with
    | some (_, code) => if code / 256 = 3 then w.faceCtr x.face metas 1 else w
    | none => w

/-- Read a 4-byte element of an index tensor (R261). -/
def word32 (w : Work) (x : Flight) (d : DescImg) (c : List Nat) : Nat × URes :=
  let r := readRef w x d (resolve w x d (c.map Int.ofNat))
  (r.1, r.2.2)
/-- Read many of them. -/
def words32 (w : Work) (x : Flight) (d : DescImg) (cs : List (List Nat)) : List Nat × URes :=
  let r := readMany w x d (cs.map (·.map Int.ofNat))
  (r.1.map (·.1), r.2)

/-- Copy one element, with its scale where packed (R266). -/
def copyCell (w : Work) (x : Flight) (src : DescImg) (sr : Ref) (dst : DescImg) (dr : Ref) : URes :=
  let r := readRef w x src sr
  r.2.2.and (writeRef w x dst dr r.1 (if dst.mx then some r.2.1 else none))

/-- Copy a row of `W` elements. -/
def copyRow (w : Work) (x : Flight) (W : Nat) (src : DescImg) (from_ : Nat → Ref) (dst : DescImg) (to_ : Nat → Ref) : URes :=
  (List.range W).foldl (fun (u : URes) e => u.and (copyCell w x src (from_ e) dst (to_ e))) {}

/-- Reaches of written tensors meet no other operand's (R263). Kind 2 operands are left out. -/
def writesApart (writes reads : List DescImg) : Bool :=
  let r := reads.filter (fun d => d.kind != 2)
  writes.all (fun c => r.all (fun d => !reachMeets c d)) && allPairs (fun a b => !reachMeets a b) writes

def isWord (d : DescImg) : Bool := d.fmt == 0 && !d.mx

/-! ## GATHER: operands and checks -/

def gaSrc (cmd : Nat) : Nat := bits (cb cmd 4 2) 11 0
def gaMode (cmd : Nat) : Nat := bits (cb cmd 4 2) 15 12
def gaDst (cmd : Nat) : Nat := bits (cb cmd 6 2) 11 0
def gaIdx (cmd : Nat) : Nat := bits (cb cmd 8 2) 11 0
def gaAux (cmd i : Nat) : Nat := bits (cb cmd (10 + 2 * i) 2) 11 0

/-- Reserved operands of R264. -/
def gaReserved (cmd : Nat) : Bool :=
  (List.range 5).all (fun i => bits (cb cmd (6 + 2 * i) 2) 15 12 == 0)
    && (gaMode cmd == 1 || gaMode cmd == 3 || gaAux cmd 0 == 0) && (gaMode cmd == 3 || (gaAux cmd 1 == 0 && gaAux cmd 2 == 0))

def gaDescs (cmd : Nat) : List Nat :=
  [gaSrc cmd, gaDst cmd, gaIdx cmd] ++ (if gaMode cmd = 1 ∨ gaMode cmd = 3 then [gaAux cmd 0] else [])
    ++ (if gaMode cmd = 3 then [gaAux cmd 1, gaAux cmd 2] else [])

/-- R261, R265, R266, R278: formats. -/
def gaFormats (mode : Nat) (s d i a0 a1 a2 : DescImg) : Bool :=
  let same := s.fmt == d.fmt && s.mx == d.mx && s.zp == d.zp
  match mode with
  | 0 => isWord i && same
  | 1 => ((i.fmt == 8 || (i.fmt == 9 && i.zp == 0)) && !i.mx) && isWord a0 && same
  | 2 => isWord i && same
  | _ =>
    let fp8 := fun (e : DescImg) => (e.fmt == 3 || e.fmt == 4) && !e.mx
    isWord i && isWord a1 && isWord a2 && isWord d
      && ((fp8 a0 && fp8 s) || (a0.fmt == 1 && s.fmt == 1) || (a0.fmt == 2 && s.fmt == 2))

def widthOk (n : Nat) : Bool := decide (1 ≤ n) && decide (n ≤ 65536)
def nkOk (n : Nat) : Bool := decide (1 ≤ n) && decide (n ≤ 4194304)

/-- R260, R265, R277, R278: ranks, extents, limits. Of a source that is sharded along dimension 0 the width is the shard's
(log entry 146). -/
def gaShape (mode : Nat) (S : Nat) (s d i a0 a1 a2 : DescImg) : Bool :=
  s.rank == 2 && i.rank == 1 && widthOk (s.e 0) && d.e 0 == s.e 0
    && match mode with
    | 0 => d.rank == 2 && d.e 1 == i.e 0
    | 1 => d.rank == 2 && i.e 0 == S && a0.rank == 1 && a0.e 0 == 1
    | 2 => d.rank == 3 && i.e 0 == d.e 2 + 1
    | _ => d.rank == 2 && decide (s.e 0 ≤ 4096) && nkOk (d.e 1) && nkOk (s.e 1) && a0.rank == 1 && a0.e 0 == i.e 0
        && a1.rank == 2 && a1.e 0 == 8 && a2.rank == 2 && a2.e 0 == 1 + s.e 0 && a2.e 1 == 2 * a1.e 1

/-- The checks of GATHER at issue. -/
def gatherIssue (w : Work) (p cmd : Nat) : Nat :=
  let m := gaMode cmd
  let i := fun n => w.img p n
  let s := i (gaSrc cmd)
  let d := i (gaDst cmd)
  let x := i (gaIdx cmd)
  let a0 := i (gaAux cmd 0)
  let a1 := i (gaAux cmd 1)
  let a2 := i (gaAux cmd 2)
  let writes := match m with | 1 => [d, a0] | 3 => [d, a2] | _ => [d]
  let reads := match m with | 3 => [s, x, a0, a1] | _ => [s, x]
  firstCode ((gaDescs cmd).map (fun n => codeUnless (w.descUsable p n) 0x0102)
    ++ [w.descCode p (gaSrc cmd) [0, 1, 2] true false, w.descCode p (gaDst cmd) [0] false true,
      w.descCode p (gaIdx cmd) [0] true false,
      if m = 1 then w.descCode p (gaAux cmd 0) [0] false true else if m = 3 then w.descCode p (gaAux cmd 0) [0] true false else 0,
      if m = 3 then firstCode [w.descCode p (gaAux cmd 1) [0] true false, w.descCode p (gaAux cmd 2) [0] false true] else 0,
      codeUnless (decide (m ≤ 3) && !fSatWatch cmd && (m == 3 || fNan cmd == 0)) 0x02C3,
      codeUnless (m == 0 || s.kind == 0) 0x02C0, codeUnless (gaFormats m s d x a0 a1 a2) 0x02C1,
      codeUnless (gaShape m (gext w.toBlk p s 1) s d x a0 a1 a2) 0x02C2,
      codeUnless (writesApart writes reads) 0x02C4, w.rostersCode p [gaSrc cmd]])

/-! ## GATHER: units -/

/-- INDEX (R267). -/
def gatherIndex (w : Work) (x : Flight) (s d i : DescImg) : List URes :=
  (List.range (i.e 0)).map fun p =>
    let v := word32 w x i [p]
    let row := s32 v.1
    let first := resolve w x s [0, row]
    let oob : List (Nat × Nat) := if first.clamped || first.loc == .out then [(0x0610, 1)] else []
    v.2.and (({ ctr := oob } : URes).and (copyRow w x (s.e 0) s (fun e => resolve w x s [(e : Int), row]) d
      (fun e => resolve w x d [(e : Int), (p : Int)])))

/-- COMPACT (R268): scan rows `s0` on, with `k` rows kept so far. The first argument counts the rows left. -/
def gatherCompact (w : Work) (x : Flight) (s d m a0 : DescImg) : Nat → Nat → Nat → List URes
  | 0, _, _ => []
  | n + 1, row, k =>
    let v := word32 w x m [row]
    let keep := v.1 != 0
    let oob : List (Nat × Nat) := if decide (k ≥ d.e 1) then [(0x0610, 1)] else []
    let u := if keep then v.2.and (({ ctr := oob } : URes).and
        (copyRow w x (s.e 0) s (fun e => resolve w x s [(e : Int), (row : Int)]) d
          (fun e => resolve w x d [(e : Int), (k : Int)]))) else v.2
    let k' := if keep then k + 1 else k
    let u := if n = 0 then u.and (writeRef w x a0 (resolve w x a0 [0]) k' none) else u
    u :: gatherCompact w x s d m a0 n (row + 1) k'

/-- RAGGED (R269), one sequence. -/
def gatherSeq (w : Work) (x : Flight) (s d i : DescImg) (r : Nat) : List URes :=
  let L := d.e 1
  let p := words32 w x i [[r], [r + 1]]
  let a := s32 (nth p.1 0)
  let b := s32 (nth p.1 1)
  let code := if p.2.bad ≠ 0 then p.2.bad else if a > b then 0x0345 else if a < 0 ∨ b > s.e 1 then 0x0346 else 0
  let head : URes := { p.2 with bad := code }
  let len := (b - a).toNat
  (List.range L).map fun l =>
    let src := fun (e : Nat) => if l < len then resolve w x s [(e : Int), a + l] else { loc := .out }
    let u := copyRow w x (s.e 0) s src d (fun e => resolve w x d [(e : Int), (l : Int), (r : Int)])
    let cut : List (Nat × Nat) := if l + 1 = L ∧ len > L then [(0x0620, len - L)] else []
    let u := { u with ctr := u.ctr ++ cut }
    if l = 0 then head.and u else if code ≠ 0 then { u with bad := code } else u

/-- `advance` (R276): none where the runs carry past the matrix. -/
def advance (r : Nat) (c : Int) (run K N : Nat) : Option (Nat × Int) :=
  let c := c + 1 + run
  let r' := r + (c / K).toNat
  if r' ≥ N then none else some (r', c % K)

/-- The positions that follow (r, c) by `runs`: those decoded, and whether all were. -/
def follow (K N : Nat) : Nat → Int → List Nat → List (Nat × Int) × Bool
  | _, _, [] => ([], true)
  | r, c, run :: t =>
    match advance r c run K N with
    | none => ([], false)
    | some p => let q := follow K N p.1 p.2 t; (p :: q.1, q.2)

/-- `row_value` (R279) from the products' factors, in order. -/
def rowValue (l : List (Num × Num)) (window : Bool) : Nat := refDot l window

/-- The elements of a directory entry. -/
def dirEntry (w : Work) (x : Flight) (d : DescImg) (i : Nat) : List Nat × URes :=
  words32 w x d ((List.range 8).map (fun e => [e, i]))

/-- The operands of RUNS. -/
structure RunsOps where
  xs : DescImg
  y : DescImg
  runs : DescImg
  vals : DescImg
  dir : DescImg
  carry : DescImg
  trap : Bool
  deriving DecidableEq, Repr

/-- The decoded segment of a directory entry (R281): the first failure, the positions of its non-zeros, the reads. -/
def runsSegment (w : Work) (x : Flight) (o : RunsOps) (i : Nat) : Nat × List (Nat × Int) × URes :=
  let K := o.xs.e 1
  let N := o.y.e 1
  let nnz := o.vals.e 0
  let e := dirEntry w x o.dir i
  let f := nth e.1
  let prev := if i = 0 then ([], {}) else dirEntry w x o.dir (i - 1)
  let seg := f 0
  let n := min 1024 (nnz - 1024 * seg)
  let last := decide (1024 * seg + n ≥ nnz)
  let rd := words32 w x o.runs ((List.range (n + (if last then 0 else 1))).map (fun t => [1024 * seg + t]))
  let first := advance 0 (-1) (nth rd.1 0) K N
  let c1 := if f 5 ≠ 0 ∨ f 6 ≠ 0 ∨ f 7 ≠ 0 ∨ ¬(seg * 1024 < nnz) ∨ ¬(f 1 < N) ∨ ¬(f 2 < K) then 0x0341 else 0
  let c1' := if seg ≠ 0 then 0 else match first with
    | none => 0x0342
    | some p => if p = (f 1, (f 2 : Int)) then 0 else 0x0341
  let c2 := if i ≠ 0 ∧ ¬(seg = nth prev.1 0 + 1 ∧ f 1 = nth prev.1 3 ∧ f 2 = nth prev.1 4) then 0x0344 else 0
  let body := follow K N (f 1) (f 2) ((rd.1.take n).drop 1)
  let c3 := codeUnless body.2 0x0342
  let pos := (f 1, (f 2 : Int)) :: body.1
  let lastPos := pos.getLastD (0, 0)
  let next := if last then some (N, 0) else advance lastPos.1 lastPos.2 (nth rd.1 n) K N
  let c4 := match next with
    | none => 0x0342
    | some p => if p = (f 3, (f 4 : Int)) then 0 else 0x0343
  let code := if e.2.bad ≠ 0 then e.2.bad else if c1 ≠ 0 then c1
    else firstCode [rd.2.bad, c1', prev.2.bad, c2, c3, c4]
  (code, pos, { (e.2.and rd.2) with bad := code })

/-- One directory entry of RUNS (R279, R282). -/
def runsUnit (w : Work) (x : Flight) (o : RunsOps) (i : Nat) : URes :=
  let D := o.xs.e 0
  let f := nth (dirEntry w x o.dir i).1
  let sg := runsSegment w x o i
  if sg.1 ≠ 0 then sg.2.2
  else
    let seg := f 0
    let vals := readMany w x o.vals ((List.range sg.2.1.length).map (fun (t : Nat) => [((1024 * seg + t : Nat) : Int)]))
    let nz := sg.2.1.zip vals.1
    let xr := nz.map (fun p => (p.1.1, p.2.1, readMany w x o.xs ((List.range D).map (fun (d : Nat) => [(d : Int), p.1.2]))))
    let reads := (xr.map (·.2.2.2)).foldl URes.and (sg.2.2.and vals.2)
    let row := fun (r : Nat) =>
      let l := xr.filter (fun p => p.1 == r)
      (List.range D).map fun d => rowValue (l.map fun p =>
        (decode p.2.1 o.vals.fmt, decode (p.2.2.1.getD d (0, 0)).1 o.xs.fmt)) (windowed o.vals.fmt)
    let row0 := f 1
    let row1 := f 3
    let rLast := (sg.2.1.getLastD (0, 0)).1
    let direct := (if seg = 0 then List.range row0 else []) ++ (List.range (row1 - row0 - 1)).map (row0 + 1 + ·)
    let zero := List.replicate D 0
    let yr := direct.map (fun r => (r, row r))
    let p0 := row row0
    let used := decide (rLast = row1) && decide (row1 ≠ row0)
    let p1 := if used then row row1 else zero
    let ys := yr.foldl (fun (u : URes) r => u.and (writeRun w x o.y 0 [r.1] r.2)) {}
    let carryRow := fun (n key : Nat) (v : List Nat) =>
      (writeRef w x o.carry (resolve w x o.carry [0, (n : Int)]) key none).and (writeRun w x o.carry 1 [n] v)
    trapUnit o.trap (yr.flatMap (·.2) ++ p0 ++ p1)
      (reads.and (ys.and ((carryRow (2 * i) row0 p0).and (carryRow (2 * i + 1) (if used then row1 else 0xFFFFFFFF) p1))))

/-- RUNS (R278 to R282). -/
def gatherRuns (w : Work) (x : Flight) (o : RunsOps) : List URes := (List.range (o.dir.e 1)).map (runsUnit w x o)

/-- The units of a GATHER. -/
def gatherUnits (w : Work) (x : Flight) : List URes :=
  let i := fun n => w.img x.part n
  let s := i (gaSrc x.cmd)
  let d := i (gaDst x.cmd)
  let ix := i (gaIdx x.cmd)
  let a0 := i (gaAux x.cmd 0)
  match gaMode x.cmd with
  | 0 => gatherIndex w x s d ix
  | 1 => gatherCompact w x s d ix a0 (ix.e 0) 0 0
  | 2 => (List.range (d.e 2)).flatMap (gatherSeq w x s d ix)
  | _ => gatherRuns w x ⟨s, d, ix, a0, i (gaAux x.cmd 1), i (gaAux x.cmd 2), w.trapsNan x.part x.cmd⟩

/-- Bytes of a row of `n` elements of a descriptor, its scales included. -/
def rowBytes (d : DescImg) (n : Nat) : Nat := ceilDiv (n * elemBits d.fmt) 8 + (if d.mx then n / 32 else 0)
/-- c of R284. -/
def rowCycles (d : DescImg) (n : Nat) : Nat := max 1 (ceilDiv (rowBytes d n) 256)
/-- sort(n) of R284. -/
def sortCycles (n : Nat) : Nat := ceilDiv n 16 * (1 + ceilLog2 (ceilDiv n 16))

/-- The cycles of a GATHER of which `n` units ran: all of them, its retire cycle (R284). -/
def gatherCycles (w : Work) (x : Flight) (n : Nat) : Nat :=
  let i := fun n => w.img x.part n
  let s := i (gaSrc x.cmd)
  let d := i (gaDst x.cmd)
  let ix := i (gaIdx x.cmd)
  let c := rowCycles d (d.e 0)
  match gaMode x.cmd with
  | 0 => 40 + n * c
  | 1 =>
    let kept := ((words32 w x ix ((List.range (ix.e 0)).map (fun r => [r]))).1.filter (· ≠ 0)).length
    40 + ceilDiv (ix.e 0) 64 + min n kept * c
  | 2 => 40 + n * c
  | _ =>
    let dir := i (gaAux x.cmd 1)
    let per := (List.range n).map fun e =>
      let f := nth (dirEntry w x dir e).1
      let count := min 1024 (ix.e 0 - 1024 * f 0)
      let direct := (if f 0 = 0 then f 1 else 0) + (f 3 - f 1 - 1)
      (count, max 64 (8 + ceilDiv (s.e 0) 64 * max count direct))
    40 + ceilDiv ((per.headD (0, 0)).1) 16 + (per.map (·.2)).sum

/-- Run a GATHER. -/
def doGather (x : Flight) (limit : Option (Nat × Nat)) (w : Work) : Work :=
  let us := uptoBad (gatherUnits w x)
  (w.runUnits x us us.length limit false true).engineEnds x us limit 0x0600 (gatherCycles w x) 0x0628

def gatherRow (f u : Nat) (parity : Option Nat) (w : Work) : Work :=
  match w.runningOn f u 0x50 with
  | none => w
  | some x => doGather x (limitOf parity 0x02D0) w

/-- GATHER (R264 to R282). -/
def execGather (f u : Nat) (parity : Option Nat) (s : State) : Host.Outcome State Fault Refusal :=
  runIf (f < Config.nFaces && u < 1) (gatherRow f u parity) s

/-! ## MERGE (R270 to R273) -/

def meOp (cmd : Nat) : Nat := bits (cb cmd 4 2) 15 12
def meKeyed (cmd : Nat) : Bool := bit (cb cmd 6 2) 12
def meWt (cmd : Nat) : Nat := bits (cb cmd 10 2) 11 0
def meWeighted (cmd : Nat) : Bool := bit (cb cmd 10 2) 15

/-- Reserved operands of R270. -/
def meReserved (cmd : Nat) : Bool :=
  bits (cb cmd 6 2) 15 13 == 0 && bits (cb cmd 8 2) 15 12 == 0 && bits (cb cmd 10 2) 14 12 == 0 && cb cmd 12 4 == 0
    && (!meKeyed cmd || gaIdx cmd == 0) && (meWeighted cmd || meWt cmd == 0)

def meDescs (cmd : Nat) : List Nat :=
  [gaSrc cmd, gaDst cmd] ++ (if meKeyed cmd then [] else [gaIdx cmd]) ++ (if meWeighted cmd then [meWt cmd] else [])

/-- The op reads its destination. -/
def meReadsDst (op : Nat) : Bool := op == 0 || op == 2 || op == 3

/-- R271. -/
def meFormats (cmd : Nat) (s d i wt : DescImg) : Bool :=
  (meKeyed cmd || isWord i) && (!meWeighted cmd || isWord wt) && (!meKeyed cmd || isWord s)
    && (if meOp cmd = 4 then s.fmt == d.fmt && s.mx == d.mx && s.zp == d.zp
      else decide (s.fmt ≤ 4) && !s.mx && isWord d)

/-- Payload width of a MERGE source. -/
def meWidth (cmd : Nat) (s : DescImg) : Nat := if meKeyed cmd then s.e 0 - 1 else s.e 0

/-- R260, R270. -/
def meShape (cmd : Nat) (s d i wt : DescImg) : Bool :=
  s.rank == 2 && d.rank == 2 && decide (s.e 1 ≤ 65536) && widthOk (meWidth cmd s) && d.e 0 == meWidth cmd s
    && (meKeyed cmd || (i.rank == 1 && i.e 0 == s.e 1)) && (!meWeighted cmd || (wt.rank == 1 && wt.e 0 == s.e 1))

/-- The checks of MERGE at issue. -/
def mergeIssue (w : Work) (p cmd : Nat) : Nat :=
  let i := fun n => w.img p n
  let s := i (gaSrc cmd)
  let d := i (gaDst cmd)
  let x := i (gaIdx cmd)
  let wt := i (meWt cmd)
  let op := meOp cmd
  let reads := [s] ++ (if meKeyed cmd then [] else [x]) ++ (if meWeighted cmd then [wt] else [])
  firstCode ((meDescs cmd).map (fun n => codeUnless (w.descUsable p n) 0x0102)
    ++ [w.descCode p (gaSrc cmd) [0] true false, w.descCode p (gaDst cmd) [0] (meReadsDst op) true,
      if meKeyed cmd then 0 else w.descCode p (gaIdx cmd) [0] true false,
      if meWeighted cmd then w.descCode p (meWt cmd) [0] true false else 0,
      codeUnless (decide (op ≤ 4) && !fSatWatch cmd && (op != 4 || (fNan cmd == 0 && !meWeighted cmd))) 0x02C3,
      codeUnless (meFormats cmd s d x wt) 0x02C1, codeUnless (meShape cmd s d x wt) 0x02C2,
      codeUnless (writesApart [d] reads) 0x02C4])

/-- `fmax` and `fmin` (R272). -/
def fmax (a b : Nat) : Nat :=
  match fpCmp a b with
  | none => NAN32
  | some c => if c = 0 then Nat.land a b else if c > 0 then a else b
def fmin (a b : Nat) : Nat :=
  match fpCmp a b with
  | none => NAN32
  | some c => if c = 0 then Nat.lor a b else if c < 0 then a else b

/-- A contribution: resolved index, position, its elements (codes with scales, or FP32 values). -/
structure Contrib where
  j : Nat
  p : Nat
  row : List (Nat × Nat)
  deriving DecidableEq, Repr

/-- Insert by resolved index, after equal ones. -/
def insContrib (c : Contrib) : List Contrib → List Contrib
  | [] => [c]
  | d :: t => if c.j < d.j then c :: d :: t else d :: insContrib c t

/-- The indices of a MERGE by position (R272): resolved, or none where dropped; and whether out of bounds. -/
def mergeIndex (d : DescImg) (i : Int) : Option Nat × Bool :=
  if 0 ≤ i ∧ i < d.e 1 then (some i.toNat, false)
  else if d.fill_drop then (none, true) else (some (clampTo i (d.e 1)), true)

/-- Read one contribution's payload, converted and weighted. -/
def contribution (w : Work) (x : Flight) (s wt : DescImg) (p j : Nat) : Contrib × URes :=
  let k := if meKeyed x.cmd then 1 else 0
  let r := readMany w x s ((List.range (meWidth x.cmd s)).map (fun (e : Nat) => [((k + e : Nat) : Int), (p : Int)]))
  if meOp x.cmd = 4 then (⟨j, p, r.1⟩, r.2)
  else
    let f := if meWeighted x.cmd then word32 w x wt [p] else (0, {})
    (⟨j, p, r.1.map (fun c =>
      let v := toFp32 c.1 s.fmt
      (if meWeighted x.cmd then fpMul f.1 v else v, 0))⟩, r.2.and f.2)

/-- Combine one group (R272). -/
def mergeUnit (w : Work) (x : Flight) (d : DescImg) (trap : Bool) (j : Nat) (g : List Contrib) : URes :=
  let op := meOp x.cmd
  let cnt : List (Nat × Nat) := [(0x0618, g.length)]
  if op = 4 then
    let row := ((g.getLast?).map (·.row)).getD []
    let u := row.zipIdx.foldl (fun (u : URes) c =>
      u.and (writeRef w x d (resolve w x d [(c.2 : Int), (j : Int)]) c.1.1 (if d.mx then some c.1.2 else none))) {}
    { u with ctr := u.ctr ++ cnt }
  else
    let old := if meReadsDst op then readMany w x d ((List.range (d.e 0)).map (fun (e : Nat) => [(e : Int), (j : Int)])) else ([], {})
    let f := match op with | 2 => fmax | 3 => fmin | _ => fpAdd
    let vals := (List.range (d.e 0)).map fun e =>
      let xs := g.map (fun c => (c.row.getD e (0, 0)).1)
      let acc := if meReadsDst op then xs.foldl f (old.1.getD e (0, 0)).1 else (xs.drop 1).foldl f (nth xs 0)
      if isNan acc then NAN32 else acc
    let u := old.2.and (writeRun w x d 0 [j] vals)
    trapUnit trap vals { u with ctr := u.ctr ++ cnt }

/-- What a MERGE is about to do: the resolved indices, the contributions, the destination rows, the units. -/
structure MergePlan where
  res : List (Option Nat × Bool)
  cs : List (Contrib × URes)
  js : List Nat
  us : List URes

/-- The plan of a MERGE. -/
def mergePlan (w : Work) (x : Flight) : MergePlan :=
  let i := fun n => w.img x.part n
  let s := i (gaSrc x.cmd)
  let d := i (gaDst x.cmd)
  let ix := if meKeyed x.cmd then words32 w x s ((List.range (s.e 1)).map (fun p => [0, p]))
    else words32 w x (i (gaIdx x.cmd)) ((List.range (s.e 1)).map (fun p => [p]))
  let res := ix.1.map (fun v => mergeIndex d (s32 v))
  let cs := res.zipIdx.filterMap (fun r => r.1.1.map (fun j => contribution w x s (i (meWt x.cmd)) r.2 j))
  let reads := (cs.map (·.2)).foldl URes.and ix.2
  let sorted := (cs.map (·.1)).foldl (fun l c => insContrib c l) []
  let js := (sorted.map (·.j)).eraseDups
  let trap := w.trapsNan x.part x.cmd
  let groups := js.map (fun j => mergeUnit w x d trap j (sorted.filter (fun c => c.j = j)))
  let us := if reads.bad ≠ 0 then [reads] else match groups with
    | u :: r => (reads.and u) :: r
    | [] => []
  ⟨res, cs, js, us⟩

/-- Run a MERGE. -/
def doMerge (x : Flight) (limit : Option (Nat × Nat)) (w : Work) : Work :=
  let s := w.img x.part (gaSrc x.cmd)
  let W := meWidth x.cmd s
  let p := mergePlan w x
  let oob := p.res.filter (·.2)
  let dropped := (oob.filter (fun r => r.1.isNone)).length
  let w1 := ((w.faceCtr x.face 0x0610 oob.length).faceCtr x.face 0x0210 (W * dropped)).faceCtr x.face 0x0200
    (W * (oob.length - dropped))
  let c := rowCycles s W
  let m := if meOp x.cmd = 1 ∨ meOp x.cmd = 4 then 1 else 2
  (w1.runUnits x p.us p.us.length limit false true).engineEnds x p.us limit 0x0600
    (fun n => 40 + sortCycles (s.e 1) + (p.cs.filter (fun k => decide (k.1.j ∈ p.js.take n))).length * c
      + min n p.js.length * c * m) 0x0628

def mergeRow (f u : Nat) (parity : Option Nat) (w : Work) : Work :=
  match w.runningOn f u 0x51 with
  | none => w
  | some x => doMerge x (limitOf parity 0x02D0) w

/-- MERGE (R270 to R273). -/
def execMerge (f u : Nat) (parity : Option Nat) (s : State) : Host.Outcome State Fault Refusal :=
  runIf (f < Config.nFaces && u < 1) (mergeRow f u parity) s

/-! ## SEGSORT (R274 to R277) -/

def soArg (cmd i : Nat) : Nat := cb cmd (8 + 4 * i) 4

/-- Reserved operands of R274. -/
def soReserved (cmd : Nat) : Bool := bits (cb cmd 6 2) 15 12 == 0 && (meOp cmd != 0 || soArg cmd 1 == 0)

/-- The checks of SEGSORT at issue. -/
def segsortIssue (w : Work) (p cmd : Nat) : Nat :=
  let s := w.img p (gaSrc cmd)
  let d := w.img p (gaDst cmd)
  let op := meOp cmd
  let shape := if op = 0 then
      s.rank == 2 && d.rank == 2 && decide (2 ≤ s.e 0) && widthOk (s.e 0 - 1) && d.e 0 == s.e 0 && d.e 1 == s.e 1
        && decide (1 ≤ soArg cmd 0) && decide (soArg cmd 0 ≤ 65536)
    else s.rank == 1 && d.rank == 2 && d.e 0 == 8 && d.e 1 == ceilDiv (s.e 0) 1024 && nkOk (soArg cmd 0) && nkOk (soArg cmd 1)
  firstCode [codeUnless (w.descUsable p (gaSrc cmd)) 0x0102, codeUnless (w.descUsable p (gaDst cmd)) 0x0102,
    w.descCode p (gaSrc cmd) [0] true false, w.descCode p (gaDst cmd) [0] false true,
    codeUnless (decide (op ≤ 1) && fNan cmd == 0 && !fSatWatch cmd) 0x02C3,
    codeUnless (isWord s && isWord d) 0x02C1, codeUnless shape 0x02C2, codeUnless (writesApart [d] [s]) 0x02C4]

/-- Insert a keyed row after equal keys (R275). -/
def insKey (c : Int × Nat) : List (Int × Nat) → List (Int × Nat)
  | [] => [c]
  | d :: t => if c.1 < d.1 then c :: d :: t else d :: insKey c t

/-- One segment of SORT (R275). -/
def sortUnit (w : Work) (x : Flight) (s d : DescImg) (lo hi : Nat) : URes :=
  let keys := words32 w x s ((List.range (hi - lo)).map (fun i => [0, lo + i]))
  let order := (keys.1.zipIdx.map (fun k => (s32 k.1, lo + k.2))).foldl (fun l c => insKey c l) []
  order.zipIdx.foldl (fun (u : URes) r =>
    u.and (copyRow w x (s.e 0) s (fun e => resolve w x s [(e : Int), (r.1.2 : Int)]) d
      (fun e => resolve w x d [(e : Int), ((lo + r.2 : Nat) : Int)]))) keys.2

/-- Directory entries from segment `sg` on, the next non-zero decoded being the first of the segment at `at_`
(R277). The first argument counts the segments left. -/
def dirUnits (w : Work) (x : Flight) (s d : DescImg) (K N : Nat) : Nat → Nat → Nat × Int → List URes
  | 0, _, _ => []
  | n + 1, sg, at_ =>
    let nnz := s.e 0
    let last := n = 0
    let m := if last then nnz - 1024 * sg - 1 else 1024
    let rd := words32 w x s ((List.range m).map (fun t => [1024 * sg + 1 + t]))
    let f := follow K N at_.1 at_.2 rd.1
    let stop := if last then (N, (0 : Int)) else f.1.getLastD (0, 0)
    if rd.2.bad ≠ 0 then [rd.2]
    else if !f.2 then [{ rd.2 with bad := 0x0342 }]
    else
      let vals := [sg, at_.1, at_.2.toNat, stop.1, stop.2.toNat, 0, 0, 0]
      let u := vals.zipIdx.foldl (fun (u : URes) v =>
        u.and (writeRef w x d (resolve w x d [(v.2 : Int), (sg : Int)]) v.1 none)) rd.2
      u :: dirUnits w x s d K N n (sg + 1) stop

/-- DIRECTORY (R277). -/
def directory (w : Work) (x : Flight) (s d : DescImg) (K N : Nat) : List URes :=
  let r := word32 w x s [0]
  if r.2.bad ≠ 0 then [r.2]
  else match advance 0 (-1) r.1 K N with
    | none => [{ r.2 with bad := 0x0342 }]
    | some p => match dirUnits w x s d K N (ceilDiv (s.e 0) 1024) 0 p with
      | u :: us => r.2.and u :: us
      | [] => []

/-- The segments of a SORT: first row and end. -/
def segments (n L : Nat) : List (Nat × Nat) :=
  (List.range (ceilDiv n L)).map (fun i => (L * i, min n (L * i + L)))

/-- The units of a SEGSORT, up to the first that fails. -/
def segsortUnits (w : Work) (x : Flight) : List URes :=
  let s := w.img x.part (gaSrc x.cmd)
  let d := w.img x.part (gaDst x.cmd)
  uptoBad (if meOp x.cmd = 0 then (segments (s.e 1) (soArg x.cmd 0)).map (fun g => sortUnit w x s d g.1 g.2)
    else directory w x s d (soArg x.cmd 0) (soArg x.cmd 1))

/-- Run a SEGSORT. -/
def doSegsort (x : Flight) (limit : Option (Nat × Nat)) (w : Work) : Work :=
  let s := w.img x.part (gaSrc x.cmd)
  let segs := segments (s.e 1) (soArg x.cmd 0)
  let us := segsortUnits w x
  let cycles := fun (n : Nat) => if meOp x.cmd = 0 then
      40 + ((segs.take n).map (fun g => sortCycles (g.2 - g.1) + (g.2 - g.1) * rowCycles s (s.e 0 - 1))).sum
    else 40 + ceilDiv (s.e 0) 16 + n
  (w.runUnits x us us.length limit false true).engineEnds x us limit 0x0600 cycles 0x0628

def segsortRow (f u : Nat) (parity : Option Nat) (w : Work) : Work :=
  match w.runningOn f u 0x52 with
  | none => w
  | some x => doSegsort x (limitOf parity 0x02D0) w

/-- SEGSORT (R274 to R277). -/
def execSegsort (f u : Nat) (parity : Option Nat) (s : State) : Host.Outcome State Fault Refusal :=
  runIf (f < Config.nFaces && u < 1) (segsortRow f u parity) s

end Sys2Proof.Machine
end

