-- ==== Sys2Proof/Machine/Routing.lean ====
section
/-! DEFINITION. Expert routing: CENSUS, grants, GRANT_WAIT, ROUTE and the token books (09_expert_routing.md). -/

namespace Sys2Proof.Machine

/-! ## Layer records (R288, R289) -/

structure RouteCfg where
  layer : Nat
  mode : Nat
  topK : Nat
  depth : Nat
  experts : Nat
  salt : Nat
  deriving DecidableEq, Repr

/-- A layer record from its eight words. -/
def cfgOf (l : List Nat) : RouteCfg :=
  ⟨bits (nth l 0) 7 0, bits (nth l 0) 15 8, bits (nth l 0) 23 16, bits (nth l 0) 31 24, bits (nth l 1) 15 0,
    nth l 2 + 2 ^ 32 * nth l 3⟩
/-- R288. -/
def cfgOk (l : List Nat) : Bool :=
  let c := cfgOf l
  decide (c.mode ≤ 1) && decide (1 ≤ c.topK) && decide (c.topK ≤ 8) && decide (c.topK ≤ c.experts)
    && decide (1 ≤ c.depth) && decide (c.depth ≤ 8) && decide (1 ≤ c.experts) && decide (c.experts ≤ 4096)
    && bits (nth l 1) 31 16 == 0 && (l.drop 4).all (· == 0)
/-- The descriptor of a layer record. -/
def cfgDesc (d : DescImg) : Bool := isWord d && d.rank == 1 && d.e 0 == 8

/-- A layer lies in a partition's grant area (R289). -/
def Blk.inGrantArea (b : Blk) (p layer : Nat) : Bool :=
  (b.part p).grantArea.enable && decide (layer ≤ (b.part p).grantArea.layersM1)

/-- Bytes of a layer slot, and where its halves and books lie (R301). -/
def Blk.layerSlot (b : Blk) (p layer : Nat) : Nat := (b.part p).grantArea.base + 81920 * layer
def Blk.grantHalf (b : Blk) (p layer shift : Nat) : Nat := b.layerSlot p layer + 36864 * (shift % 2)
def Blk.bookAddr (b : Blk) (p layer shift : Nat) : Nat := b.layerSlot p layer + 73728 + 64 * (shift % 4)

/-! ## Books (R317, R318) -/

/-- The book of a layer and shift is open. -/
def Blk.bookOpen (b : Blk) (p layer shift : Nat) : Bool :=
  (b.book p layer shift).isOpen && (b.book p layer shift).shift == shift && b.inGrantArea p layer
/-- A field of a book record. -/
def Work.bookGet (w : Work) (p layer shift off : Nat) : Nat := w.num (w.bookAddr p layer shift + off) 4
/-- The bytes of a book record, as they are read (R433). -/
def Blk.bookRange (b : Blk) (p layer shift : Nat) : Nat × Nat := (b.bookAddr p layer shift, 64)
/-- Set a field of a book that is open; the bytes are charged to the partition (R433). -/
def Work.bookSet (w : Work) (p layer shift off v : Nat) : Work :=
  if w.bookOpen p layer shift then w.store p (w.bookAddr p layer shift + off) (leBytes 4 v) else w
/-- Add to a field of a book that is open (modulo 2^32). A field in an uncorrectable sector gives no data (R441) and keeps its
bits (log entry 137); under repair access HBM is not reached (R447). -/
def Work.bookAdd (w : Work) (p layer shift off : Nat) (n : Int) : Work :=
  let a := w.bookAddr p layer shift + off
  if w.bookOpen p layer shift && !w.hbmShut a then
    match w.eccAt a 4 with
    | some _ => w.readingTo p [] (some (a, 4))
    | none =>
      let v := ofInt32 (w.bookGet p layer shift off + n)
      (w.reading p [(a, 4)]).bookSet p layer shift off v
  else w
/-- Open a zeroed book (R317, R318). -/
def Work.openBook (w : Work) (p layer shift : Nat) : Work :=
  let s := u32 shift
  (w.store p (w.bookAddr p layer s) (leBytes 64 (s + 2 ^ 32 * 0xFFFFFFFF))).modBook p layer s fun _ =>
    { isOpen := true, shift := s, toReport := false }

/-- The layers of an enabled grant area. -/
def Blk.layersOf (b : Blk) (p : Nat) : List Nat :=
  if (b.part p).grantArea.enable then List.range ((b.part p).grantArea.layersM1 + 1) else []

/-- Restart the books for the current shift and the three after it, every grant undecided (R301). -/
def Work.restartBooks (w : Work) (p : Nat) : Work :=
  let w := { w with
    grants := w.grants.filter (fun e => decide (e.1 / 512 ≠ p))
    books := w.books.filter (fun e => decide (e.1 / 1024 ≠ p)) }
  w.each (w.layersOf p) fun w l => w.each (List.range 4) fun w i => w.openBook p l ((w.curShift p).toNat + i)

/-- offered = accepted + in_flight + dropped + lost, in a book that is open (R318). A book in an uncorrectable sector gives no
data (R441), and does not balance (log entry 137). -/
def Work.bookBalanced (w : Work) (p layer shift : Nat) : Bool :=
  !w.bookOpen p layer shift
    || (w.eccAt (w.bookAddr p layer shift) 64).isNone && w.bookGet p layer shift 8 == u32 (w.bookGet p layer shift 12 + w.bookGet p layer shift 16
        + w.bookGet p layer shift 20 + w.bookGet p layer shift 24)

/-- The checks of R318 at the mark that opens shift `s`: 0x0262, 0x0264 or 0. Under repair access the books in HBM are out of
reach (R447) and nothing is found (log entry 136). -/
def Work.auditBooks (w : Work) (p s : Nat) : Nat :=
  let back := fun (k : Nat) => u32 (s + 2 ^ 32 - k)
  let ls := w.layersOf p
  let tokens := ls.all fun l =>
    let c := w.bookGet p l (back 2) 4
    [back 2, back 1, u32 s].all (w.bookBalanced p l)
      && (!w.bookOpen p l (back 2) || c == 0xFFFFFFFF || c == w.bookGet p l (back 2) 8)
  let flight := ls.all fun l => !w.bookOpen p l (back 2) || w.bookGet p l (back 2) 16 == 0
  if w.ms.repairEn then 0 else if !tokens then 0x0262 else if !flight then 0x0264 else 0

/-- At the mark that opens shift `s` the audit reads the books of s − 2, s − 1 and s, the book of s − 2 closes, and that
of s − 3, if no CENSUS has reported it, reopens for s + 1 (R318). -/
def Work.closeBooks (w : Work) (p s : Nat) : Work :=
  let back := fun (k : Nat) => u32 (s + 2 ^ 32 - k)
  let read := ((w.layersOf p).flatMap (fun l => [(l, back 2), (l, back 1), (l, u32 s)])).filter (fun e =>
    w.bookOpen p e.1 e.2 && !w.ms.repairEn) |>.map (fun e => w.bookRange p e.1 e.2)
  let w := (w.reading p read).each read fun w r => w.eccMet r.1 r.2 0
  w.each (w.layersOf p) fun w l =>
    let w := if (w.book p l (back 3)).toReport ∧ (w.book p l (back 3)).shift = back 3 then w.openBook p l (s + 1) else w
    if w.bookOpen p l (back 2) then w.modBook p l (back 2) fun m => { m with isOpen := false, toReport := true } else w

/-- A token row of a layer and shift has been written into this device's memory (R317). -/
def Work.rowReceived (w : Work) (p layer shift : Nat) : Work :=
  let w := w.devCtr 0x0698 1
  if w.bookOpen p layer shift then w.bookAdd p layer shift 28 1 else w.devCtr 0x0690 1

/-! ## Choosing experts (R291 to R293) -/

def HM1 : Nat := 0x9F4A7C153B2DE6A1
def HM2 : Nat := 0xC13FA9A902A6328F
/-- `skip_mix`. -/
def skipMix (x : Nat) : Nat :=
  let x := u64 (Nat.xor x (x / 2 ^ 32) * HM1)
  let x := u64 (Nat.xor x (x / 2 ^ 29) * HM2)
  Nat.xor x (x / 2 ^ 32)
/-- `probe_hash`. -/
def probeHash (salt tid c j pos : Nat) : Nat :=
  let x := Nat.xor (Nat.xor (Nat.xor salt tid) (c * 2 ^ 32)) (j * 2 ^ 36)
  skipMix (u64 (if j > 0 then Nat.xor x (pos % 64 * 2 ^ 40) else x))
/-- `expert_of`. -/
def expertOf (h E : Nat) : Nat := h * E / 2 ^ 64

/-- `ranks_before` (R292). -/
def ranksBefore (row : List Nat) (a b : Nat) : Bool :=
  let x := nth row a
  let y := nth row b
  match fpCmp x y with
  | none => if isNan x ≠ isNan y then isNan y else decide (a < b)
  | some c => decide (c > 0) || (c == 0 && decide (a < b))
/-- Insert an expert into a ranking. -/
def insRank (row : List Nat) (e : Nat) : List Nat → List Nat
  | [] => [e]
  | x :: t => if ranksBefore row e x then e :: x :: t else x :: insRank row e t
/-- The ranking of a token's experts. -/
def ranking (row : List Nat) (E : Nat) : List Nat := (List.range E).foldl (fun l e => insRank row e l) []

/-- The experts that the probes of choice `c` try, in order; `nxt` is where a ranking stands. -/
def probes (cfg : RouteCfg) (rank : List Nat) (tid pos c nxt : Nat) : List Nat :=
  if cfg.mode = 0 then (List.range cfg.depth).map (fun j => expertOf (probeHash cfg.salt tid c j pos) cfg.experts)
  else (rank.drop nxt).take cfg.depth

/-- The choices of one token (R293): for each choice its slot and expert, or none where dropped; and what is used
after it. `entries` are the grant's slot bases and capacities. -/
def tokenChoices (cfg : RouteCfg) (entries : List (Nat × Nat)) (rank : List Nat) (tid pos : Nat) :
    Nat → Nat → Nat → List Nat → List Nat → List (Option (Nat × Nat)) × List Nat
  | 0, _, _, _, used => ([], used)
  | n + 1, c, nxt, taken, used =>
    let ps := probes cfg rank tid pos c nxt
    let ok := fun e => !taken.contains e && decide (nth used e < (entries.getD e (0, 0)).2)
    match ps.findIdx? ok with
    | some i =>
      let e := nth ps i
      let slot := (entries.getD e (0, 0)).1 + nth used e
      let r := tokenChoices cfg entries rank tid pos n (c + 1) (nxt + i + 1) (e :: taken) (updAt used e (· + 1))
      (some (slot, e) :: r.1, r.2)
    | none =>
      let r := tokenChoices cfg entries rank tid pos n (c + 1) (nxt + ps.length) taken used
      (none :: r.1, r.2)

/-- Token id, position and scores of a token; the code of its first fault (R290, R293). -/
structure TokIn where
  tid : Nat := 0
  pos : Nat := 0
  row : List Nat := []
  u : URes := {}
  deriving DecidableEq, Repr

def tokenIn (w : Work) (x : Flight) (cfg : RouteCfg) (tok sc : DescImg) (t : Nat) : TokIn :=
  let a := words32 w x tok [[0, t], [1, t]]
  let r := if cfg.mode = 1 then words32 w x sc ((List.range cfg.experts).map (fun e => [e, t])) else ([], {})
  let pos := nth a.1 1
  let u := a.2.and ({ bad := if pos ≥ 2 ^ 22 then 0x0504 else 0 })
  ⟨nth a.1 0, pos, r.1, u.and r.2⟩

/-! ## Checks at issue -/

def roIdx (cmd i : Nat) : Nat := bits (cb cmd (4 + 2 * i) 2) 11 0
/-- Reserved operands of ROUTE (R307) and of CENSUS (R294). -/
def roReserved (cmd : Nat) : Bool := (List.range 6).all (fun i => bits (cb cmd (4 + 2 * i) 2) 15 12 == 0)
def ceReserved (cmd : Nat) : Bool := (List.range 4).all (fun i => bits (cb cmd (4 + 2 * i) 2) 15 12 == 0) && cb cmd 12 4 == 0

def roDescs (cmd : Nat) : List Nat :=
  [roIdx cmd 0, roIdx cmd 1, roIdx cmd 2, roIdx cmd 3, roIdx cmd 5] ++ (if roIdx cmd 4 ≠ 0 then [roIdx cmd 4] else [])
def ceDescs (cmd : Nat) : List Nat :=
  [roIdx cmd 0, roIdx cmd 2, roIdx cmd 3] ++ (if roIdx cmd 1 ≠ 0 then [roIdx cmd 1] else [])

/-- R290. -/
def tokShape (tok : DescImg) : Bool :=
  isWord tok && tok.rank == 2 && tok.e 0 == 2 && decide (1 ≤ tok.e 1) && decide (tok.e 1 ≤ 65536)
def scoreShape (sc : DescImg) (E T : Nat) : Bool := isWord sc && sc.rank == 2 && sc.e 0 == E && sc.e 1 == T

/-- The layer record, its checks and those of R289 and R290 that ROUTE and CENSUS share. -/
def layerChecks (w : Work) (x : Flight) (cfgI scI : Nat) : List Nat × List Nat :=
  let d := w.img x.part cfgI
  let r := words32 w x d ((List.range 8).map (fun i => [i]))
  let c := cfgOf r.1
  (r.1, [codeUnless (cfgDesc d) 0x0501, r.2.bad, codeUnless (cfgOk r.1) 0x0501,
    codeUnless (w.inGrantArea x.part c.layer) 0x0505, codeUnless ((c.mode == 0) == (scI == 0)) 0x0503])

/-- The checks of CENSUS at issue, and the layer record it keeps. -/
def censusIssue (w : Work) (x : Flight) : Nat × List Nat :=
  let p := x.part
  let cmd := x.cmd
  let i := fun n => w.img p n
  let l := layerChecks w x (roIdx cmd 2) (roIdx cmd 1)
  let c := cfgOf l.1
  let tok := i (roIdx cmd 0)
  let out := i (roIdx cmd 3)
  (firstCode ((ceDescs cmd).map (fun n => codeUnless (w.descUsable p n) 0x0102)
    ++ [w.descCode p (roIdx cmd 0) [0] true false, w.descCode p (roIdx cmd 2) [0] true false,
      w.descCode p (roIdx cmd 3) [0] false true, if roIdx cmd 1 ≠ 0 then w.descCode p (roIdx cmd 1) [0] true false else 0]
    ++ l.2 ++ [codeUnless (tokShape tok && (c.mode == 0 || scoreShape (i (roIdx cmd 1)) c.experts (tok.e 1))
      && isWord out && out.rank == 1 && out.e 0 == 8 + c.experts) 0x0502]), l.1)

/-- The grant that stands in a layer slot's half: the number of experts, and slot bases with capacities (R299). -/
def Work.grantIn (w : Work) (p layer shift : Nat) : Nat × List (Nat × Nat) :=
  let a := w.grantHalf p layer shift
  let n := w.num (a + 2) 2
  (n, (List.range n).map (fun e => (w.num (a + 32 + 8 * e) 4, w.num (a + 36 + 8 * e) 2)))
/-- A grant is decided for a layer and shift (R304). -/
def Blk.grantDecided (b : Blk) (p layer shift : Nat) : Bool := (b.grant p layer shift).inArea == some shift

/-- The bytes of a layer's grant in the grant area, as they are read, with an uncorrectable error among them. -/
def Work.grantReads (w : Work) (p layer shift : Nat) : URes :=
  let r := (w.grantHalf p layer shift, 32 + 8 * (w.grantIn p layer shift).1)
  let bad := w.eccAt r.1 r.2
  { bad := (bad.map (·.2)).getD 0, ecc := bad.map (fun _ => r), reads := if bad.isNone then [r] else [] }

/-- What ROUTE and CENSUS read at issue: the layer record, and the grant where it is decided (R309). -/
def routeIssueReads (w : Work) (x : Flight) : URes :=
  let route := opOf x.cmd == 0x70
  let d := w.img x.part (roIdx x.cmd (if route then 5 else 2))
  let r := words32 w x d ((List.range 8).map (fun i => [i]))
  let layer := (cfgOf r.1).layer
  if route && w.grantDecided x.part layer x.shift.toNat then r.2.and (w.grantReads x.part layer x.shift.toNat) else r.2

/-- The checks of ROUTE at issue (R308, R309), and the layer record it keeps. -/
def routeIssue (w : Work) (x : Flight) : Nat × List Nat :=
  let p := x.part
  let cmd := x.cmd
  let i := fun n => w.img p n
  let src := i (roIdx cmd 0)
  let dst := i (roIdx cmd 1)
  let tok := i (roIdx cmd 2)
  let rec_ := i (roIdx cmd 3)
  let l := layerChecks w x (roIdx cmd 5) (roIdx cmd 4)
  let c := cfgOf l.1
  let T := tok.e 1
  let g := w.grantIn p c.layer x.shift.toNat
  let shapes := tokShape tok && (c.mode == 0 || scoreShape (i (roIdx cmd 4)) c.experts T)
    && src.rank == 2 && dst.rank == 2 && src.e 1 == T && widthOk (src.e 0) && dst.e 0 == src.e 0
    && src.fmt == dst.fmt && src.mx == dst.mx && src.zp == dst.zp && (dst.kind != 2 || dst.viewDim == 1)
    && isWord rec_ && rec_.rank == 2 && rec_.e 0 == 2 * c.topK && rec_.e 1 == T
  (firstCode ((roDescs cmd).map (fun n => codeUnless (w.descUsable p n) 0x0102)
    ++ [w.descCode p (roIdx cmd 0) [0] true false, w.descCode p (roIdx cmd 1) [0, 2] false true,
      w.descCode p (roIdx cmd 2) [0] true false, w.descCode p (roIdx cmd 3) [0] false true,
      w.descCode p (roIdx cmd 5) [0] true false, if roIdx cmd 4 ≠ 0 then w.descCode p (roIdx cmd 4) [0] true false else 0]
    ++ l.2 ++ [codeUnless shapes 0x0502, codeUnless (w.grantDecided p c.layer x.shift.toNat) 0x0511,
      (w.grantReads p c.layer x.shift.toNat).bad,
      codeUnless (g.1 == c.experts) 0x0506,
      codeUnless (g.2.all (fun e => e.2 == 0 || decide (e.1 + e.2 ≤ dst.e 1))) 0x0509]), l.1)

/-! ## CENSUS (R294 to R298) -/

/-- The offset of a layer's HOST_DEADLINE event from the shift mark: arg0 0 census, 1 grant (R297, R303). -/
def Blk.hostEvent (b : Blk) (p layer arg0 : Nat) : Option Nat :=
  (b.struct.plan.bell.find? (fun e => e.kind == 4 && e.part == p && e.arg0 == arg0 && e.arg1 == layer)).map (·.off)
/-- A CENSUS of shift `s` that ends at bell tick `t` is late (R297). -/
def Blk.censusLateAt (b : Blk) (p layer : Nat) (s : W32) (t : Nat) : Bool :=
  match b.hostEvent p layer 0 with
  | none => false
  | some off => decide (t > b.markTick p s + off)
/-- One that ends now is. -/
def Blk.censusLate (b : Blk) (p layer : Nat) (s : W32) : Bool := b.censusLateAt p layer s b.now
/-- A CENSUS that has ended was past its census deadline, which sets late_flag as it retires (R297). -/
def Blk.censusMissed (b : Blk) (x : Flight) : Bool :=
  opOf x.cmd == 0x71 && b.censusLateAt x.part (cfgOf x.cap).layer x.shift (x.stamp.getD 0)

/-- The command on the skip engine of gallery `g` with opcode `op`. -/
def Blk.onSkip (b : Blk) (g op : Nat) : Option Flight :=
  b.flights.find? (fun x => x.face / 12 = g ∧ opOf x.cmd = op ∧ x.phase = .running 0)

/-- The demand counts of a list of tokens (R295). -/
def demandOf (cfg : RouteCfg) (toks : List TokIn) : List Nat :=
  toks.foldl (fun d t =>
    let first := if cfg.mode = 0 then
        (List.range cfg.topK).map (fun c => expertOf (probeHash cfg.salt t.tid c 0 t.pos) cfg.experts)
      else (ranking t.row cfg.experts).take cfg.topK
    first.foldl (fun d e => updAt d e (· + 1)) d) (List.replicate cfg.experts 0)

/-- The 32-byte head and the demand of a census record (R296); `closed` are the fields of the closed book. -/
def censusBytes (b : Blk) (x : Flight) (cfg : RouteCfg) (choices : Nat) (late valid : Bool) (closed demand : List Nat) : List Nat :=
  [cfg.layer, x.part] ++ leBytes 2 cfg.experts ++ leBytes 4 x.shift.toNat ++ leBytes 4 choices
    ++ [b.ownPos, b2n late + 2 * b2n valid, 0, 0] ++ closed.flatMap (leBytes 4) ++ demand.flatMap (leBytes 4)

/-- Write the census record and send it; the CENSUS retires when the message has left (R298). -/
def Work.censusSend (w : Work) (x : Flight) (cfg : RouteCfg) (out : DescImg) (choices : Nat) (valid : Bool)
    (closed demand : List Nat) (reads : URes) : Work :=
  let late := w.censusLate x.part cfg.layer x.shift
  let bytes := censusBytes w.toBlk x cfg choices late valid closed demand
  let ws := (pieces (bytes.length / 4) 4 bytes).zipIdx
  let u := ws.foldl (fun (u : URes) v => u.and (writeRef w x out (resolve w x out [(v.2 : Int)]) (leNat v.1) none)) reads
  if u.bad ≠ 0 then (w.readingTo x.part u.reads u.ecc).faultAt x [] u.bad 0
  else
    let w := w.commitUnit x false 0 u
    let w := match w.control? with
      | some s => w.sendMsg s.id (.census bytes)
      | none => w.devCtr 0x0690 1
    w.modFlight x.id fun y => { y with phase := .done, wm := 1, late := y.late || late, stamp := some w.now }

/-- Run a CENSUS. A limit faults it with nothing written (R315). -/
def doCensus (x : Flight) (limit : Option (Nat × Nat)) (w : Work) : Work :=
  let p := x.part
  let cfg := cfgOf x.cap
  let tok := w.img p (roIdx x.cmd 0)
  let T := tok.e 1
  let toks := (List.range T).map (tokenIn w x cfg tok (w.img p (roIdx x.cmd 1)))
  let reads := (toks.map (·.u)).foldl URes.and {}
  let s := x.shift.toNat
  let old := u32 (s + 2)
  let bm := w.book p cfg.layer old
  let valid := x.shift == w.curShift p && bm.toReport && bm.shift == u32 (s + 2 ^ 32 - 2)
  let choices := T * cfg.topK
  let at_ := (w.bookAddr p cfg.layer old + 12, 20)
  let bad := if valid then w.eccAt at_.1 at_.2 else none
  let reads := reads.and { bad := (bad.map (·.2)).getD 0, ecc := bad.map (fun _ => at_),
                           reads := if valid && bad.isNone then [at_] else [] }
  match limit with
  | some (_, code) => w.faultAt x [] code 0
  | none =>
    if reads.bad ≠ 0 then (w.readingTo p reads.reads reads.ecc).faultAt x [] reads.bad 0
    else if (w.part p).audit.pending && x.shift == w.curShift p then w
    else
      let closed := if valid then [12, 20, 24, 28].map (w.bookGet p cfg.layer old) else [0, 0, 0, 0]
      let w := w.galCtr (x.face / 12) 0x0100
        (ceilDiv (T * cfg.topK) 16 + (if cfg.mode = 1 then ceilDiv (T * cfg.experts) 64 else 0) + ceilDiv (32 + 4 * cfg.experts) 64)
      let w := w.censusSend x cfg (w.img p (roIdx x.cmd 3)) choices valid closed (demandOf cfg toks) reads
      let w := w.bookSet p cfg.layer s 4 choices
      if valid then w.openBook p cfg.layer old else w

/-- CENSUS (R294 to R298), on the skip engine of gallery `g`. -/
def execCensus (g : Nat) (s : State) : Host.Outcome State Fault Refusal :=
  runIf (g < Config.nGals) (fun w => match w.onSkip g 0x71 with
    | some x => doCensus x none w
    | none => w) s

/-- HOST_DEADLINE (R297): past the census deadline, every CENSUS of that layer and shift that has not retired is
late. -/
def Work.hostDeadline (w : Work) (p layer : Nat) : Work :=
  { w with flights := w.flights.map fun y =>
      if opOf y.cmd = 0x71 ∧ y.part = p ∧ y.phase ≠ .done ∧ (cfgOf y.cap).layer = layer
          ∧ w.bell.st.counts ∧ w.censusLate p layer y.shift then
        { y with late := true }
      else y }

/-! ## Grants (R301 to R305) -/

/-- The shift whose event at offset `off` was last passed, counted from `after` ticks after it; none before the
first that bell time has reached since it first counted (R387). -/
def Blk.lastShiftPast (b : Blk) (p off after : Nat) : Option Nat :=
  match b.struct.plan.mark p with
  | none => none
  | some (phase, period) =>
    if b.now < phase + off + after then none
    else
      let k := (b.now - phase - off - after) / period
      if phase + off + after + k * period > b.bell.loaded then some k else none

/-- What has become of a layer's grant for a shift (R302 to R305). -/
def Blk.grantLog (b : Blk) (p layer shift : Nat) : GrantLog :=
  ((b.grant p layer shift).log.find? (fun x => x.shift == shift)).getD { shift := shift }
/-- Something becomes of a layer's grant for a shift. What is half the shift numbers old is forgotten. -/
def Work.setGrantLog (w : Work) (p layer : Nat) (x : GrantLog) : Work :=
  w.modGrant p layer x.shift fun g => { g with
    log := if g.log.any (fun y => y.shift == x.shift) then g.log.map (fun y => if y.shift = x.shift then x else y)
      else x :: g.log.filter (fun y => decide ((x.shift + 2 ^ 32 - y.shift) % 2 ^ 32 < 2 ^ 31)) }

/-- The deadline test of a layer's grant for a shift has been made (R302, R303). -/
def Blk.grantTested (b : Blk) (p layer shift : Nat) : Bool := (b.grantLog p layer shift).tested

/-- The code with which a grant message is refused, or 0 (R302). -/
def Blk.grantCode (b : Blk) (p layer : Nat) (body : List Nat) : Nat :=
  let s := leAt body 4 4
  if !b.struct.plan.defines p || !b.inGrantArea p layer then 0x0514
  else if s ≠ (b.curShift p).toNat ∨ b.grantTested p layer s then 0x0512
  else if (match b.hostEvent p layer 1 with
      | some off => decide (b.now > b.markTick p (BitVec.ofNat 32 s) + off)
      | none => false) then 0x0512
  else if !grantBodyOk p layer body then 0x0514
  else if (b.grantLog p layer s).stage ≠ .none then 0x0513 else 0

/-- Take a grant message (R302). -/
def Work.takeGrant (w : Work) (p layer : Nat) (body : List Nat) : Work :=
  w.setGrantLog p layer { shift := leAt body 4 4, stage := .accepted, stamp := w.now, body := body }

/-- A default grant's body for a shift: its shift field set and its defaulted flag (R303). -/
def defaultBody (body : List Nat) (s : Nat) : List Nat :=
  body.take 4 ++ leBytes 4 s ++ [1] ++ body.drop 9

/-- GRANT_WAITs of a layer and shift (R305). -/
def Flight.waitsGrant (y : Flight) (p layer shift : Nat) : Bool :=
  opOf y.cmd == 0x72 && y.phase == .wait && y.part == p && cb y.cmd 4 1 == layer && y.shift.toNat == shift

/-- A waiting GRANT_WAIT whose grant is decided completes (R305). -/
def Work.grantDone (w : Work) (x : Flight) : Work :=
  let d := (w.grantLog x.part (cb x.cmd 4 1) x.shift.toNat).defaulted
  w.modFlight x.id fun y => { y with phase := .done, wm := 1, stamp := some w.now, status := if d then 4 else y.status }

/-- The deadline test of a layer at D + 1 (R303). -/
def Work.grantTest (w : Work) (p layer s : Nat) : Work :=
  let g := w.grantLog p layer s
  if g.stage ≠ .none then w.setGrantLog p layer { g with tested := true }
  else match w.struct.plan.defGrant p layer with
  | some body =>
    ((w.setGrantLog p layer { shift := s, stage := .accepted, stamp := w.now, defaulted := true, tested := true,
                              body := defaultBody body s }).devCtr 0x0680 1).raise 5 p 0 s [layer]
  | none =>
    let w := w.setGrantLog p layer { shift := s, stage := .refusedByTest, stamp := w.now, tested := true }
    w.each (w.flights.filter (fun y => y.waitsGrant p layer s)) fun w y => w.faultFlight y 0x0515 0

/-- GRANT_DEADLINE_TEST (R303), of the last shift whose tick D + 1 has come. -/
def execGrantDeadlineTest (p layer : Nat) (s : State) : Host.Outcome State Fault Refusal :=
  runIf (p < Config.nParts) (fun w =>
    match w.hostEvent p layer 1 with
    | none => w
    | some off => match w.lastShiftPast p off 1 with
      | none => w
      | some k =>
        if w.bell.st.counts && w.inGrantArea p layer && !w.grantTested p layer (u32 k) then w.grantTest p layer (u32 k) else w) s

/-- A ROUTE of a layer and shift has not retired (R304). -/
def Blk.routing (b : Blk) (p layer shift : Nat) : Bool :=
  b.flights.any (fun y => opOf y.cmd == 0x70 && y.part == p && y.shift.toNat == shift && (cfgOf y.cap).layer == layer)

/-- The oldest accepted grant of a layer and parity that is still to be written (R304). -/
def Grant.nextWrite (g : Grant) : Option GrantLog := (g.log.filter (fun x => x.stage == .accepted)).getLast?

/-- GRANT_INSTALL (R304): the write of an accepted grant is complete, and the GRANT_WAITs for it retire (R305). Grants of
one half are written in the order they were accepted. -/
def execGrantInstall (p layer shift : Nat) (s : State) : Host.Outcome State Fault Refusal :=
  runIf (p < Config.nParts) (fun w =>
    match (w.grant p layer shift).nextWrite with
    | none => w
    | some g =>
      if g.shift = shift ∧ w.inGrantArea p layer ∧ !w.ms.repairEn ∧ !w.routing p layer (u32 (shift + 2 ^ 32 - 2)) then
        let w := w.storeHfc (w.grantHalf p layer shift) g.body
        let w := (w.setGrantLog p layer { g with stage := .decided }).modGrant p layer shift fun y => { y with
          inArea := some shift }
        w.each (w.flights.filter (fun y => y.waitsGrant p layer shift)) fun w y => w.grantDone y
      else w) s

/-- The checks of GRANT_WAIT at issue (R305). -/
def grantWaitIssue (w : Work) (x : Flight) : Nat :=
  let layer := cb x.cmd 4 1
  let s := x.shift.toNat
  firstCode [codeUnless (w.hostEvent x.part layer 1).isSome 0x0510, codeUnless (w.inGrantArea x.part layer) 0x0505,
    codeUnless ((w.grantLog x.part layer s).stage != .refusedByTest) 0x0515]

/-- GRANT_WAIT (R305): it completes when the grant for its layer and shift is decided. -/
def execGrantWait (q : Nat) (s : State) : Host.Outcome State Fault Refusal :=
  runIf (q < Config.nCtxs) (fun w => match w.waiting q 0x72 with
    | some x => if (w.grantLog x.part (cb x.cmd 4 1) x.shift.toNat).stage = .decided then w.grantDone x else w
    | none => w) s

/-! ## ROUTE (R307 to R314) -/

/-- A place of a queue slot as the receiver's checks take it (R311): one on this device by its position, so that it is
refused there and does not fault under R432. -/
def Ref.atPos (r : Ref) (here : Nat) : Ref :=
  match r.loc with
  | .mem pos a sc => { r with loc := .mem (some (pos.getD here)) a sc }
  | _ => r

/-- One row of `src` written to a queue slot: its writes, and the code when the slot does not resolve (R311). -/
def rowOut (w : Work) (x : Flight) (src dst : DescImg) (t slot : Nat) : URes :=
  let d := { dst with fill_drop := true }
  let refs := (List.range (src.e 0)).map (fun (e : Nat) => (resolve w x d [(e : Int), (slot : Int)]).atPos w.ownPos)
  if refs.any (fun r => r.loc == .out) then { bad := 0x0516 }
  else copyRow w x (src.e 0) src (fun e => resolve w x src [(e : Int), (t : Int)]) d (fun e => refs.getD e { loc := .out })

/-- A pad row: dst's fill value in every element (R313). -/
def padOut (w : Work) (x : Flight) (dst : DescImg) (slot : Nat) : URes :=
  let d := { dst with fill_drop := true }
  (List.range (dst.e 0)).foldl (fun (u : URes) (e : Nat) =>
    let r := (resolve w x d [(e : Int), (slot : Int)]).atPos w.ownPos
    if r.loc == .out then u.and { bad := 0x0516 }
    else u.and (if dst.mx then writeRef w x d r (bits dst.fill 7 0 % 2 ^ elemBits dst.fmt) (some (bits dst.fill 15 8))
      else writeRef w x d r (dst.fill % 2 ^ elemBits dst.fmt) none)) {}

/-- A row's outcome: 0 accepted, none while a part of it is open, else the code of R312. -/
def rowOutcome (ts : List Txn) : Option Nat :=
  if ts.any (fun t => t.st == .opened) then none
  else match ts.find? (fun t => t.st != .accepted) with
    | none => some 0
    | some t => some (match t.st with | .lost => 0x0508 | .unreachable => 0x0610 | _ => 0x0507)

/-- The transactions of one row of a command. -/
def Blk.rowTxns (b : Blk) (id unit : Nat) : List Txn :=
  b.txns.filter (fun t => t.owner == id && t.unit == unit && (t.kind == .row || t.kind == .pad))

/-- A row that has just been opened has left: its destination was neither unreachable nor lost (R311, R372). -/
def Blk.rowLeft (b : Blk) (id unit : Nat) : Bool := (b.rowTxns id unit).all (fun t => t.st != .unreachable && t.st != .lost)

/-- Write a row out, one transaction for each run of addresses (R311). The first run carries the row's layer and
shift. -/
def Work.sendRow (w : Work) (x : Flight) (kind : TxnKind) (unit : Nat) (book : Option (Nat × Nat)) (u : URes) : Work :=
  let w := w.reading x.part u.reads
  let w := w.countUnit x.face { u with ctr := u.ctr.filter (fun c => c.1 == 0x0208) }
  w.each (remoteRuns w.dev.nextTxn u.wr).zipIdx fun w r =>
    w.openTxn { kind := kind, dst := r.1.1, part := x.part, owner := x.id, unit := unit, addr := r.1.2.1,
                data := r.1.2.2, len := r.1.2.2.length, book := if r.2 = 0 then book else none, src := x.part, shift := x.shift } false

/-- Count a token row just sent in its book (R317), and the rows this device has received itself. -/
def Work.countRow (w : Work) (x : Flight) (layer unit : Nat) : Work :=
  let s := x.shift.toNat
  let ts := w.rowTxns x.id unit
  let w := match ts.head? with
    | some t => if t.dst = w.ownPos ∧ t.st = TxnSt.accepted then w.rowReceived x.part layer s else w
    | none => w
  match rowOutcome ts with
  | none => w.bookAdd x.part layer s 16 1
  | some 0 => w.bookAdd x.part layer s 12 1
  | some _ => w.bookAdd x.part layer s 24 1

/-- A row has settled with outcome `c`: its book counts it (R317). -/
def Work.rowSettled (w : Work) (p c : Nat) (row : Option (Nat × Nat)) : Work :=
  match row with
  | none => w
  | some (layer, s) => (w.bookAdd p layer s 16 (-1)).bookAdd p layer s (if c = 0 then 12 else 24) 1

/-- What a reset has left of a command's transactions is forgotten once all of them have settled (R126, R317). -/
def Work.dropOrphans (w : Work) (owner : Nat) : Work :=
  if w.txns.any (fun t => t.owner == owner && t.st == .opened) then w
  else { w with txns := w.txns.filter (fun t => !(t.owner == owner && t.orphan)) }

/-- An answer to a transaction (R372), with the book of the row or tag signal it belongs to (R126), and the bytes of a
copy (R477). -/
def Work.answer (w : Work) (id : Nat) (st : TxnSt) : Work :=
  match w.txn? id with
  | none => w
  | some t =>
    if t.st ≠ .opened then w
    else
      let w := w.settleTxn id st
      let w := match t.kind with
        | .row =>
          let l := w.rowTxns t.owner t.unit
          match rowOutcome l with
          | none => w
          | some c => w.rowSettled t.src c (l.findSome? (·.book))
        | .tag => w.modPart t.src fun y => { y with tagAcked := y.tagAcked + 1 }
        | .secure => if st = .accepted then w.devCtr 0x0B00 t.len else w
        | _ => w
      if t.orphan then w.dropOrphans t.owner else w

/-- Answer every open transaction that meets a condition. -/
def Work.answerAll (w : Work) (c : Txn → Bool) (st : TxnSt) : Work :=
  w.each ((w.txns.filter (fun t => t.st == .opened && c t)).map (·.id)) fun w id => w.answer id st

/-- What ROUTE reads: descriptors, layer, grant. -/
structure RouteOps where
  src : DescImg
  dst : DescImg
  tok : DescImg
  rec_ : DescImg
  sc : DescImg
  cfg : RouteCfg
  entries : List (Nat × Nat)
  deriving DecidableEq, Repr

def routeOps (w : Work) (x : Flight) : RouteOps :=
  let i := fun n => w.img x.part (roIdx x.cmd n)
  let cfg := cfgOf x.cap
  ⟨i 0, i 1, i 2, i 3, i 4, cfg, (w.grantIn x.part cfg.layer x.shift.toNat).2⟩

/-- Where ROUTE's tokens stand: the part, the slots used, the stop. -/
structure RouteSt where
  w : Work
  used : List Nat
  stop : Option (Nat × Nat) := none

/-- The writes of a dispatch record row (R313). -/
def recRow (w : Work) (x : Flight) (o : RouteOps) (t : Nat) (cs : List (Option (Nat × Nat))) : URes :=
  cs.zipIdx.foldl (fun (u : URes) c =>
    let v := match c.1 with | some p => p | none => (0xFFFFFFFF, 0xFFFFFFFF)
    (u.and (writeRef w x o.rec_ (resolve w x o.rec_ [((2 * c.2 : Nat) : Int), (t : Int)]) v.1 none)).and
      (writeRef w x o.rec_ (resolve w x o.rec_ [((2 * c.2 + 1 : Nat) : Int), (t : Int)]) v.2 none)) {}

/-- The choices of one token, in order: rows sent, drops counted; stops at a row that does not resolve. -/
def routeSend (x : Flight) (o : RouteOps) (t : Nat) (r : RouteSt) (c : Option (Nat × Nat) × Nat) : RouteSt :=
  if r.stop.isSome then r
  else
    let s := x.shift.toNat
    match c.1 with
    | none => { r with w := ((r.w.bookAdd x.part o.cfg.layer s 8 1).bookAdd x.part o.cfg.layer s 20 1).galCtr (x.face / 12) 0x0118 1 }
    | some p =>
      let u := rowOut r.w x o.src o.dst t p.1
      if u.bad ≠ 0 then
        { r with stop := some (u.bad, t), w := r.w.readingTo x.part u.reads u.ecc }
      else
        let unit := 8 * t + c.2
        let w := r.w.sendRow x .row unit (some (o.cfg.layer, s)) u
        let left := b2n (w.rowLeft x.id unit)
        { r with w := ((w.bookAdd x.part o.cfg.layer s 8 1).countRow x o.cfg.layer unit).galCtr (x.face / 12) 0x0110 left }

/-- One token (R293, R311, R313). -/
def routeToken (x : Flight) (o : RouteOps) (r : RouteSt) (t : Nat) : RouteSt :=
  if r.stop.isSome then r
  else
    let i := tokenIn r.w x o.cfg o.tok o.sc t
    if i.u.bad ≠ 0 then
      { r with stop := some (i.u.bad, t), w := r.w.readingTo x.part i.u.reads i.u.ecc }
    else
      let rank := if o.cfg.mode = 1 then ranking i.row o.cfg.experts else []
      let cs := tokenChoices o.cfg o.entries rank i.tid i.pos o.cfg.topK 0 0 [] r.used
      let r' := cs.1.zipIdx.foldl (routeSend x o t) { r with w := r.w.reading x.part i.u.reads, used := cs.2 }
      if r'.stop.isSome then r'
      else
        let u := recRow r'.w x o t cs.1
        if u.bad ≠ 0 then { r' with stop := some (u.bad, t), w := r'.w.readingTo x.part u.reads u.ecc }
        else { r' with w := r'.w.commitUnit x false t u }

/-- What lies above the watermark after a fault is old or new, each byte by a free choice (R124, R314): of the bytes written, each
with its old and its new value, those that still hold the new one. -/
def Work.loosen (w : Work) (l : List (Nat × Nat × Nat)) : Work :=
  let k := w.fresh
  k.2.each l fun w e => if Config.torn k.1 e.1 || nth (w.bytes e.1 1) 0 != e.2.2 then w else w.putByte e.1 e.2.1

/-- The local bytes of accepted rows and of dispatch records of tokens `wm` to `n − 1`. -/
def routeAbove (w : Work) (x : Flight) (o : RouteOps) (wm n : Nat) : List Nat :=
  let rows := (w.txnsOf x.id).filter (fun t => t.kind == .row && t.st == .accepted && decide (t.unit / 8 ≥ wm) && t.dst == w.ownPos)
  let recs := (List.range (n - wm)).flatMap (fun i => (recRow w x o (wm + i) (List.replicate o.cfg.topK none)).wr)
  rows.flatMap (fun t => (List.range t.len).map (t.addr + ·))
    ++ recs.flatMap (fun p => (List.range 4).map (p.at_ / 8 + ·))

/-- The first failing row of a kind, by unit: its unit and code. -/
def firstFailing (w : Work) (x : Flight) (kind : TxnKind) : Option (Nat × Nat) :=
  let bad := (w.txnsOf x.id).filter (fun t => t.kind == kind && t.st != .accepted && t.st != .opened)
  match bad.map (·.unit) with
  | [] => none
  | u :: us => let m := minOf u us; (rowOutcome (w.rowTxns x.id m)).map (fun c => (m, c))

/-- Array cycles that the skip engine takes for `rows` rows of a ROUTE (R310, R316). -/
def RouteOps.cycles (o : RouteOps) (n rows : Nat) : Nat :=
  max (ceilDiv (n * o.cfg.topK) 16 + (if o.cfg.mode = 1 then ceilDiv (n * o.cfg.experts) 64 else 0))
    (ceilDiv (rowBytes o.src (o.src.e 0)) 512 * rows)
/-- The token rows, and the pad rows, that a ROUTE has opened. -/
def Blk.rowsOpened (b : Blk) (id : Nat) (kind : TxnKind) : Nat :=
  (((b.txnsOf id).filter (fun t => t.kind == kind)).map (·.unit)).eraseDups.length

/-- Send the pad rows of the granted slots that no token used (R313). -/
def Work.sendPads (w : Work) (x : Flight) (o : RouteOps) (used : List Nat) : Work :=
  let slots := (o.entries.zip used).flatMap (fun e => (List.range (e.1.2 - e.2)).map (e.1.1 + e.2 + ·))
  let rows := w.rowsOpened x.id .row
  let T := o.tok.e 1
  let w := w.galCtr (x.face / 12) 0x0100 (o.cycles T (rows + slots.length) - o.cycles T rows)
  w.each slots.zipIdx fun w s =>
    let u := padOut w x o.dst s.1
    if u.bad ≠ 0 then
      (w.readingTo x.part u.reads u.ecc).modFlight x.id fun y => { y with
        fault := if y.fault.isNone then some (u.bad, o.tok.e 1) else y.fault }
    else
      let unit := 8 * o.tok.e 1 + s.2
      let w := w.sendRow x .pad unit none u
      w.galCtr (x.face / 12) 0x0120 (b2n (w.rowLeft x.id unit))

/-- Once every row is settled: the pad rows, and the end (R312, R313). -/
def routeEnd (x : Flight) (o : RouteOps) (w : Work) : Work :=
  let T := o.tok.e 1
  let y := (w.flight? x.id).getD x
  if (w.txnsOf x.id).any (fun t => t.st == .opened) then w
  else if !y.coll.sentBlock then
    let decided := match y.coll.heldClose with | some n => n | none => T
    let stop := match firstFailing w x .row, y.fault with
      | some (u, c), some (fc, t) => if u / 8 ≤ t then some (c, u / 8) else some (fc, t)
      | some (u, c), none => some (c, u / 8)
      | none, f => f
    match stop with
    | some (code, wm) => 
      let above := routeAbove w x o wm decided
      ((w.loosen (y.coll.undo.filter (fun e => decide (e.1 ∈ above)))).faultFlight y code wm).dropTxns x.id
    | none =>
      let w := w.modFlight x.id fun y => { y with coll := { y.coll with sentBlock := true } }
      let w := w.sendPads x o y.coll.vec
      if (w.txnsOf x.id).any (fun t => t.st == .opened) then w
      else match ((w.flight? x.id).getD x).fault, firstFailing w x .pad with
        | some (code, _), _ => (w.faultFlight y code T).dropTxns x.id
        | none, some (_, code) => (w.faultFlight y code T).dropTxns x.id
        | none, none => (w.doneFlight x T).dropTxns x.id
  else match y.fault, firstFailing w x .pad with
    | some (code, wm), _ => (w.faultFlight y code wm).dropTxns x.id
    | none, some (_, code) => (w.faultFlight y code T).dropTxns x.id
    | none, none => (w.doneFlight x T).dropTxns x.id

/-- Run a ROUTE: its tokens when it starts, then its end as far as the answers allow. -/
def doRoute (x : Flight) (limit : Option (Nat × Nat)) (w : Work) : Work :=
  let o := routeOps w x
  let T := o.tok.e 1
  if x.coll.started then
    routeEnd x o (match limit with
      | some (n, code) => w.modFlight x.id fun y => { y with fault := if y.fault.isNone then some (code, min n T) else y.fault }
      | none => w)
  else
    let n := match limit with | some (n, _) => min n T | none => T
    let w := w.reading x.part (w.grantReads x.part o.cfg.layer x.shift.toNat).reads
    let r := (List.range n).foldl (routeToken x o) { w := w, used := List.replicate o.cfg.experts 0 }
    let stop := match r.stop, limit with
      | some s, _ => some s
      | none, some (_, code) => some (code, n)
      | none, none => none
    let decided := match r.stop with | some (_, t) => t + 1 | none => n
    let undo := (routeAbove r.w x o 0 decided).map fun a => (a, nth (w.bytes a 1) 0, nth (r.w.bytes a 1) 0)
    let w := r.w.modFlight x.id fun y => { y with
      fault := stop, coll := { y.coll with started := true, vec := r.used, heldClose := some decided, undo := undo } }
    routeEnd x o (w.galCtr (x.face / 12) 0x0100 (o.cycles n (w.rowsOpened x.id .row)))

/-- ROUTE (R307 to R314), on the skip engine of gallery `g`. -/
def execRoute (g : Nat) (s : State) : Host.Outcome State Fault Refusal :=
  runIf (g < Config.nGals) (fun w => match w.onSkip g 0x70 with
    | some x => doRoute x none w
    | none => w) s

end Sys2Proof.Machine
end

