-- ==== Sys2Proof/Machine/Vector.lean ====
section
/-! DEFINITION. The vector engine: VEC_OP, dropout and OPT_STEP (10_training_support.md). -/

namespace Sys2Proof.Machine

/-! ## FP32 functions of this chapter -/

/-- `fp32_fma` (R328). -/
def fpFma (a b c : Nat) : Nat :=
  match decode a 0, decode b 0, decode c 0 with
  | .fin sa ma ea, .fin sb mb eb, .fin sc mc ec =>
    if ma = 0 ∨ mb = 0 then fpAdd (Nat.xor a b / 2 ^ 31 % 2 * 2 ^ 31) c
    else
      let lo := min (ea + eb) ec
      roundInt (signed (Nat.xor sa sb) (shl (ma * mb) (ea + eb - lo)) + signed sc (shl mc (ec - lo))) lo
  | _, _, _ => fpAdd (fpMul a b) c

/-- The integer square root, rounded down, of a number below 2^96. -/
def isqrt (n : Nat) : Nat :=
  (List.range 48).foldl (fun r i => let t := r + 2 ^ (47 - i); if t * t ≤ n then t else r) 0

/-- `fp32_sqrt` (R337). -/
def fpSqrt (x : Nat) : Nat :=
  match decode x 0 with
  | .nan => NAN32
  | .inf s => if s = 0 then x else NAN32
  | .fin s m e =>
    if m = 0 then x
    else if s ≠ 0 then NAN32
    else
      let odd := e % 2 = 1
      let m' := if odd then 2 * m else m
      let e' := if odd then e - 1 else e
      let n := m' * 2 ^ 60
      let r := isqrt n
      roundFp32 0 (2 * r + (if n = r * r then 0 else 1)) 2 ((e' - 60) / 2)

/-- `row_dot` and `row_sum` (R337). -/
def rowDot (u v : List Nat) : Nat := refDot ((u.zip v).map (fun p => (decode p.1 0, decode p.2 0))) false
def rowSum (u : List Nat) : Nat := rowDot u (u.map (fun _ => ONE32))

/-! ## Elements by linear position (R327) -/

/-- Elements of a tensor. -/
def DescImg.count (d : DescImg) : Nat := ((List.range d.rank).map d.e).foldl (· * ·) 1
/-- Coordinates of a linear position, dimension 0 fastest. -/
def coordsOf (d : DescImg) (p : Nat) : List Nat :=
  ((List.range d.rank).foldl (fun (acc : List Nat × Nat) i => (acc.1 ++ [acc.2 % d.e i], acc.2 / d.e i)) ([], p)).1

/-- Read an element as FP32. -/
def readF (w : Work) (x : Flight) (d : DescImg) (c : List Nat) : Nat × URes :=
  let r := readRef w x d (resolve w x d (c.map Int.ofNat))
  (toFp32 r.1 d.fmt (if d.mx then r.2.1 else 0x7F), r.2.2)

/-- Read a list of coordinates as FP32. -/
def readFs (w : Work) (x : Flight) (d : DescImg) (cs : List (List Nat)) : List Nat × URes :=
  let r := readMany w x d (cs.map (·.map Int.ofNat))
  (r.1.map (fun e => toFp32 e.1 d.fmt (if d.mx then e.2 else 0x7F)), r.2)

/-- Add a unit's saturations to FACE_DRAIN_SAT (R322). -/
def URes.counted (u : URes) : URes := { u with ctr := u.ctr ++ (if u.sat = 0 then [] else [(0x0340, u.sat)]) }

/-- Write values at consecutive linear positions from `p0` (R327), an unpacked narrowing with the word of each
position (R220, R221), counted in FACE_NUM_SR (R228). -/
def writeGroup (w : Work) (x : Flight) (d : DescImg) (p0 : Nat) (vals : List Nat) (word : Nat → Option Nat) : URes :=
  if d.mx then
    let c := coordsOf d p0
    writeRun w x d (c.headD 0) (c.drop 1) vals
  else
    vals.zipIdx.foldl (fun (u : URes) v =>
      let c := if d.fmt = 0 then (v.1, 0) else narrow v.1 d.fmt (word (p0 + v.2))
      let e := writeRef w x d (resolve w x d ((coordsOf d (p0 + v.2)).map Int.ofNat)) c.1 none
      u.and { e with sat := c.2, ctr := e.ctr ++ (if isNan v.1 then [(0x0400, 1)] else [])
        ++ (if d.fmt ≠ 0 ∧ (word (p0 + v.2)).isSome then [(0x0418, 1)] else []) }) {}

/-- Groups of 256 positions of `n` elements: first position and length. -/
def groups256 (n : Nat) : List (Nat × Nat) := (List.range (ceilDiv n 256)).map (fun g => (256 * g, min 256 (n - 256 * g)))

/-- Formats a vector or row output may have (R326). -/
def vecOutOk (d : DescImg) : Bool := if d.mx then decide (d.fmt ≤ 7) else decide (d.fmt ≤ 4)
/-- The same place and shape: an output may overwrite such an input (R321). -/
def sameLayout (a b : DescImg) : Bool :=
  a.base == b.base && a.rank == b.rank && a.ext == b.ext && a.str == b.str && a.fmt == b.fmt && a.mx == b.mx
/-- R321's overlap rule. -/
def vecApart (outs ins : List DescImg) : Bool :=
  outs.all (fun o => ins.all (fun i => !reachMeets o i || sameLayout o i)) && allPairs (fun a b => !reachMeets a b) outs

/-- Kind, place and use of an operand of these commands (R321, R152). -/
def Blk.vecDesc (b : Blk) (p i : Nat) (rd wr : Bool) : Nat :=
  let d := b.img p i
  firstCode [codeUnless (d.kind == 0) 0x02E0, codeUnless ((!rd || d.canRead) && (!wr || d.canWrite)) 0x010F]

/-- Same rank and extents. -/
def sameShape (a b : DescImg) : Bool := a.rank == b.rank && (List.range a.rank).all (fun i => a.e i == b.e i)

/-! ## VEC_OP: operands and checks -/

def veDst (cmd : Nat) : Nat := bits (cb cmd 4 2) 11 0
def veA (cmd : Nat) : Nat := bits (cb cmd 6 2) 11 0
def veB (cmd : Nat) : Nat := bits (cb cmd 8 2) 11 0
def veC (cmd : Nat) : Nat := bits (cb cmd 10 2) 11 0
def veDraw (cmd : Nat) : Nat := bits (cb cmd 12 2) 11 0
def veOp (cmd : Nat) : Nat := cb cmd 14 1
def veRound (cmd : Nat) : Nat := bits (cb cmd 15 1) 1 0

/-- Reserved bits of R323. -/
def veReserved (cmd : Nat) : Bool :=
  (List.range 5).all (fun i => bits (cb cmd (4 + 2 * i) 2) 15 12 == 0) && bits (cb cmd 15 1) 7 2 == 0

/-- Inputs of an op (R324); 0 for a reserved one. -/
def veArity (op : Nat) : Nat :=
  if op = 4 then 3
  else if op = 1 ∨ op = 2 ∨ op = 3 ∨ op = 5 ∨ op = 6 ∨ (0x18 ≤ op ∧ op ≤ 0x1A) then 2
  else if op = 0 ∨ op = 7 ∨ op = 8 ∨ (0x10 ≤ op ∧ op ≤ 0x12) ∨ op = 0x20 ∨ op = 0x21 then 1 else 0
def veDrops (op : Nat) : Bool := op == 0x20 || op == 0x21

/-- Stochastic rounding applies to an output (R326). -/
def Blk.stochastic (b : Blk) (p round : Nat) (d : DescImg) : Bool :=
  !d.mx && decide (1 ≤ d.fmt) && decide (d.fmt ≤ 4) && (round == 2 || (round == 0 && (b.struct.plan.num p).round == 1))
/-- The draw record is needed (R325): with round 2 whatever dst is, as R326 makes that output stochastic (log entry 15). -/
def Blk.veNeedsDraw (b : Blk) (p cmd : Nat) : Bool :=
  veDrops (veOp cmd) || veRound cmd == 2 || b.stochastic p (veRound cmd) (b.img p (veDst cmd))

/-- The inputs of a VEC_OP. -/
def veIns (cmd : Nat) : List Nat := [veA cmd, veB cmd, veC cmd].take (veArity (veOp cmd))
def Blk.veDescs (b : Blk) (p cmd : Nat) : List Nat :=
  [veDst cmd] ++ veIns cmd ++ (if b.veNeedsDraw p cmd then [veDraw cmd] else [])

/-- The SK20 replay mode of a partition (R42, R331). -/
def Blk.sk20On (b : Blk) (p : Nat) : Bool := bit (((b.struct.plan.partRec p).map (·.flags)).getD 0) 1
def Blk.frozen (b : Blk) (p : Nat) : Bool := bit (((b.struct.plan.partRec p).map (·.flags)).getD 0) 0

/-- Shapes (R324). -/
def veShape (op : Nat) (d : DescImg) (ins : List DescImg) : Bool :=
  if op = 8 then ins.all (fun a => a.rank == d.rank + 1 && decide (1 ≤ d.rank) && decide (d.rank ≤ 3)
    && (List.range d.rank).all (fun i => a.e i == d.e i) && decide (1 ≤ a.e d.rank) && decide (a.e d.rank ≤ 64))
  else ins.all (fun a => sameShape a d)

/-- The checks of VEC_OP at issue, and what it keeps of its draw record: stream, the index base, drop_below,
keep_scale, the SK20 start state (R325, R331). -/
def vecIssue (w : Work) (x : Flight) : Nat × List Nat :=
  let p := x.part
  let cmd := x.cmd
  let op := veOp cmd
  let d := w.img p (veDst cmd)
  let ins := (veIns cmd).map (w.img p)
  let dr := w.img p (veDraw cmd)
  let needs := w.veNeedsDraw p cmd
  let skFwd := w.sk20On p && op == 0x20
  let rec_ := words32 w x dr ((List.range 8).map (fun i => [i]))
  let f := nth rec_.1
  let start := if skFwd then (w.face x.face).sk20.toNat else f 6 + 2 ^ 32 * f 7
  let code := firstCode ([codeUnless (decide (veArity op ≠ 0) && decide (veRound cmd ≤ 2)
        && (decide (veArity op ≥ 2) || veB cmd == 0) && (decide (veArity op ≥ 3) || veC cmd == 0)) 0x02E4]
    ++ (w.veDescs p cmd).map (fun n => codeUnless (w.descUsable p n) 0x0102)
    ++ [codeUnless (needs || veDraw cmd == 0) 0x02E4, w.vecDesc p (veDst cmd) false true]
    ++ (veIns cmd).map (fun n => w.vecDesc p n true false)
    ++ [if needs then w.vecDesc p (veDraw cmd) true skFwd else 0,
      codeUnless (veShape op d ins && (!needs || (dr.rank == 1 && dr.e 0 == 8))) 0x02E2,
      codeUnless (veRound cmd != 2 || w.stochastic p 2 d) 0x0402,
      codeUnless (vecOutOk d && ins.all (fun a => if op = 7 then isWord a else decide (a.fmt ≤ 7)) && (!needs || isWord dr)) 0x02E3,
      codeUnless (vecApart [d] (ins ++ (if needs then [dr] else []))) 0x02E5,
      if needs then firstCode [rec_.2.bad, codeUnless (bits (f 0) 31 28 == 0 && f 5 == 0) 0x02E1,
        codeUnless (!(w.sk20On p && veDrops op) || start != 0) 0x02EB] else 0])
  (code, if needs then [f 0, f 1, f 2, f 3, f 4, start] else [])

/-- What a VEC_OP reads at issue: its draw record (R325). -/
def vecIssueReads (w : Work) (x : Flight) : URes :=
  if w.veNeedsDraw x.part x.cmd then (words32 w x (w.img x.part (veDraw x.cmd)) ((List.range 8).map (fun i => [i]))).2 else {}

/-- At issue a DROP_FWD in SK20 mode writes the face state into its draw record (R331). -/
def Work.holdSk20 (w : Work) (x : Flight) : Work :=
  if opOf x.cmd = 0x60 ∧ veOp x.cmd = 0x20 ∧ w.sk20On x.part then
    let d := w.img x.part (veDraw x.cmd)
    let s := nth x.cap 5
    let u := (writeRef w x d (resolve w x d [6]) (u32 s) none).and (writeRef w x d (resolve w x d [7]) (s / 2 ^ 32) none)
    w.doWops u.wr
  else w

/-! ## VEC_OP: values (R324, R330, R331) -/

/-- `fp32_from_int` and the other ops. -/
def vecValue (op a b c : Nat) : Nat :=
  match op with
  | 0 => a
  | 1 => fpAdd a b
  | 2 => fpSub a b
  | 3 => fpMul a b
  | 4 => fpFma a b c
  | 5 => fmax a b
  | 6 => fmin a b
  | 7 => fpOfInt (s32 a)
  | _ => if 0x10 ≤ op ∧ op ≤ 0x12 then actForward (op - 0x0F) a else actBackward (op - 0x10) a b

/-- `xorshift_step` (R331). -/
def xorshift (x : Nat) : Nat :=
  let x := u64 (Nat.xor x (x * 2 ^ 13))
  let x := Nat.xor x (x / 2 ^ 7)
  u64 (Nat.xor x (x * 2 ^ 17))
/-- The states after each of `n` steps. -/
def xorshifts : Nat → Nat → List Nat
  | 0, _ => []
  | n + 1, x => let y := xorshift x; y :: xorshifts n y
/-- The state after `n` steps. -/
def xorshiftN : Nat → Nat → Nat
  | 0, x => x
  | n + 1, x => xorshiftN n (xorshift x)

/-- A dropped element gives +0, a kept one a × keep_scale (R330). -/
def dropValue (word below scale a : Nat) : Nat := if word ≥ below then fpMul a scale else 0

/-- What a VEC_OP keeps in mind while it runs. -/
structure VecOps where
  d : DescImg
  ins : List DescImg
  stoch : Bool
  trap : Bool
  sk20 : Bool
  seed : Nat
  deriving DecidableEq, Repr

/-- The word of a position (R222, R326, R330). -/
def drawAt (x : Flight) (seed purpose stream base p : Nat) : Nat := draw seed (u64 (base + p)) purpose (stream % 2 ^ 28) x.shift.toNat

/-- The value at a linear position, before conversion. `word` is the dropout word. -/
def vecElem (w : Work) (x : Flight) (o : VecOps) (p word : Nat) : Nat × URes :=
  let op := veOp x.cmd
  let c := coordsOf o.d p
  let a := o.ins.getD 0 {}
  if op = 8 then
    let r := readFs w x a ((List.range (a.e o.d.rank)).map (fun k => c ++ [k]))
    (combineSplits r.1, r.2)
  else if op = 7 then
    let r := word32 w x a c
    (vecValue 7 r.1 0 0, r.2)
  else
    let rs := o.ins.map (fun d => readF w x d c)
    let u := (rs.map (·.2)).foldl URes.and {}
    let v := fun i => (rs.getD i (0, {})).1
    if veDrops op then (dropValue word (nth x.cap 3) (nth x.cap 4) (v 0), u) else (vecValue op (v 0) (v 1) (v 2), u)

/-- One group of VEC_OP (R327). `start` is the SK20 state before the group. -/
def vecUnit (w : Work) (x : Flight) (o : VecOps) (start : Nat) (g : Nat × Nat) : URes :=
  let base := nth x.cap 1 + 2 ^ 32 * nth x.cap 2
  let stream := nth x.cap 0
  let sk := if o.sk20 then (xorshifts g.2 start).map (· / 2 ^ 32) else []
  let es := (List.range g.2).map fun i =>
    vecElem w x o (g.1 + i) (if o.sk20 then nth sk i else if veDrops (veOp x.cmd) then drawAt x o.seed 2 stream base (g.1 + i) else 0)
  let u := (es.map (·.2)).foldl URes.and {}
  let vals := es.map (·.1)
  let word := fun p => if o.stoch then some (drawAt x o.seed 0 stream base p) else none
  trapUnit o.trap vals (u.and (writeGroup w x o.d g.1 vals word).counted)

/-- The cycles of a VEC_OP of which `n` groups ran, with q and the packed surcharge of R329. -/
def vecCycles (cmd : Nat) (d : DescImg) (ins : List DescImg) (n : Nat) : Nat :=
  let op := veOp cmd
  let q := if op = 8 then (ins.getD 0 {}).e d.rank else if 0x10 ≤ op ∧ op ≤ 0x1A then 4 else 1
  24 + n * q + 8 + (if d.mx then 10 else 0)

/-- The groups of a VEC_OP with their SK20 start states. -/
def vecUnits (w : Work) (x : Flight) (o : VecOps) : Nat → List (Nat × Nat) → List URes
  | _, [] => []
  | s, g :: gs => vecUnit w x o s g :: vecUnits w x o (if o.sk20 then xorshiftN g.2 s else s) gs

/-- Elements of the committed groups. -/
def committed (us : List URes) (limit : Option (Nat × Nat)) (n : Nat) : Nat :=
  match stopAt us limit with
  | some (k, _) => min n (256 * k)
  | none => n

/-- The operands of a VEC_OP. -/
def vecOpsOf (w : Work) (x : Flight) : VecOps :=
  let p := x.part
  let d := w.img p (veDst x.cmd)
  ⟨d, (veIns x.cmd).map (w.img p), w.stochastic p (veRound x.cmd) d, w.trapsNan p x.cmd, w.sk20On p && veDrops (veOp x.cmd),
    (w.struct.plan.num p).seed⟩
/-- The units of a VEC_OP. -/
def vecOpUnits (w : Work) (x : Flight) : List URes :=
  let o := vecOpsOf w x
  vecUnits w x o (nth x.cap 5) (groups256 o.d.count)

/-- Run a VEC_OP. In SK20 mode a DROP_FWD keeps its end state for its retirement, and writes it at a fault (R332). -/
def doVecOp (x : Flight) (limit : Option (Nat × Nat)) (w : Work) : Work :=
  let o := vecOpsOf w x
  let d := o.d
  let us := vecOpUnits w x
  let n := committed us limit d.count
  let r := (w.runUnits x us us.length limit false true).engineEnds x us limit 0x0700 (vecCycles x.cmd d o.ins) 0
  if o.sk20 && veOp x.cmd == 0x20 then
    let st := xorshiftN n (nth x.cap 5)
    if (stopAt us limit).isSome then
      (if n = 0 then r else r.modFace x.face fun c => { c with sk20 := BitVec.ofNat 64 st })
    else r.modFlight x.id fun y => { y with cap := y.cap ++ [st] }
  else r

/-- When a DROP_FWD in SK20 mode retires, the face state is its end state (R332). -/
def Work.retireSk20 (w : Work) (x : Flight) : Work :=
  match opOf x.cmd == 0x60, x.cap.drop 6 with
  | true, st :: _ => w.modFace x.face fun c => { c with sk20 := BitVec.ofNat 64 st }
  | _, _ => w

/-- A DROP_FWD in SK20 mode that has run and then faults with watermark `wm` writes the state after its last committed
group, if it has one (R332). -/
def Work.faultSk20 (w : Work) (x : Flight) (wm : Nat) : Work :=
  if opOf x.cmd = 0x60 ∧ veOp x.cmd = 0x20 ∧ x.cap.length > 6 ∧ wm > 0 then
    let n := min (w.img x.part (veDst x.cmd)).count (256 * wm)
    w.modFace x.face fun c => { c with sk20 := BitVec.ofNat 64 (xorshiftN n (nth x.cap 5)) }
  else w

def vecOpRow (f u : Nat) (parity : Option Nat) (w : Work) : Work :=
  match w.runningOn f u 0x60 with
  | none => w
  | some x => doVecOp x (limitOf parity 0x02F0) w

/-- VEC_OP (R323 to R332). -/
def execVecOp (f u : Nat) (parity : Option Nat) (s : State) : Host.Outcome State Fault Refusal :=
  runIf (f < Config.nFaces && u < 1) (vecOpRow f u parity) s

/-! ## OPT_STEP (R341 to R347) -/

def osW (cmd : Nat) : Nat := veDst cmd
def osAlgo (cmd : Nat) : Nat := bits (cb cmd 4 2) 15 12
def osG (cmd : Nat) : Nat := veA cmd
def osM1 (cmd : Nat) : Nat := veB cmd
def osM2 (cmd : Nat) : Nat := veC cmd
def osWork (cmd : Nat) : Nat := veDraw cmd
def osHyper (cmd : Nat) : Nat := bits (cb cmd 14 2) 11 0

/-- Reserved bits of R341. -/
def osReserved (cmd : Nat) : Bool :=
  (List.range 4).all (fun i => bits (cb cmd (6 + 2 * i) 2) 15 12 == 0) && bits (cb cmd 14 2) 15 12 == 0

/-- The descriptors that an OPT_STEP names; the working copy is named by a non-zero field. -/
def osDescs (cmd : Nat) : List Nat :=
  [osW cmd, osG cmd, osM1 cmd] ++ (if osAlgo cmd = 0 then [osM2 cmd] else []) ++ [osHyper cmd]
    ++ (if osWork cmd ≠ 0 then [osWork cmd] else [])

/-- Fields of a hyperparameter record (R342). -/
def hyCopy (h : List Nat) : Bool := bit (nth h 14) 0
def hyRatio (h : List Nat) : Bool := bit (nth h 14) 1
def hyFinite (h : List Nat) : Bool := bit (nth h 14) 2
def hyRound (h : List Nat) : Nat := bits (nth h 14) 4 3
def hyLayer (h : List Nat) : Nat := bits (nth h 13) 11 0
def hyPart (h : List Nat) : Nat := bits (nth h 13) 17 12

/-- The checks of OPT_STEP at issue, and its hyperparameters. -/
def optIssue (w : Work) (x : Flight) : Nat × List Nat :=
  let p := x.part
  let cmd := x.cmd
  let i := fun n => w.img p n
  let adam := osAlgo cmd == 0
  let wd := i (osW cmd)
  let g := i (osG cmd)
  let ms := [i (osM1 cmd)] ++ (if adam then [i (osM2 cmd)] else [])
  let hy := i (osHyper cmd)
  let wk := i (osWork cmd)
  let base := [osW cmd, osG cmd, osM1 cmd] ++ (if adam then [osM2 cmd] else []) ++ [osHyper cmd]
  let h := words32 w x hy ((List.range 16).map (fun n => [n]))
  let r := (w.part p).ratioArea
  let code := firstCode ([codeUnless (decide (osAlgo cmd ≤ 1) && (adam || osM2 cmd == 0)) 0x02E4]
    ++ base.map (fun n => codeUnless (w.descUsable p n) 0x0102)
    ++ [w.vecDesc p (osW cmd) true true, w.vecDesc p (osG cmd) true false, w.vecDesc p (osM1 cmd) true true,
      if adam then w.vecDesc p (osM2 cmd) true true else 0, w.vecDesc p (osHyper cmd) true false,
      codeUnless (sameShape g wd && ms.all (fun m => sameShape m wd) && hy.rank == 1 && hy.e 0 == 16) 0x02E2,
      codeUnless (isWord wd && ms.all isWord && decide (g.fmt ≤ 1) && isWord hy) 0x02E3,
      codeUnless (allPairs (fun a b => !reachMeets a b) ([wd] ++ ms)
        && ([wd] ++ ms).all (fun o => !reachMeets o g && !reachMeets o hy) && !reachMeets g hy) 0x02E5,
      h.2.bad,
      codeUnless (bits (nth h.1 10) 31 28 == 0 && bits (nth h.1 13) 31 18 == 0 && bits (nth h.1 14) 31 5 == 0
        && nth h.1 15 == 0 && decide (hyRound h.1 ≤ 2)) 0x02E1]
    ++ (if hyCopy h.1 then
        [codeUnless (w.descUsable p (osWork cmd)) 0x0102, w.vecDesc p (osWork cmd) false true,
          codeUnless (sameShape wk wd) 0x02E2, codeUnless (hyRound h.1 != 2 || w.stochastic p 2 wk) 0x0402,
          codeUnless (vecOutOk wk && !isWord wk) 0x02E3,
          codeUnless (([wd, g, hy] ++ ms).all (fun o => !reachMeets wk o)) 0x02E5]
      else [codeUnless (osWork cmd == 0) 0x02E4])
    ++ [codeUnless (!w.frozen p) 0x02E8,
      codeUnless (!hyRatio h.1 || (r.enable && decide (hyLayer h.1 ≤ r.layersM1))) 0x02EC])
  (code, h.1)

/-- What an OPT_STEP reads at issue: its hyperparameter record (R341). -/
def optIssueReads (w : Work) (x : Flight) : URes :=
  (words32 w x (w.img x.part (osHyper x.cmd)) ((List.range 16).map (fun n => [n]))).2

/-- `opt_element` (R343), from a master, a gradient and moments: new master, moments, delta. -/
def optElement (adam : Bool) (h : List Nat) (w g m1 m2 : Nat) : Nat × Nat × Nat × Nat :=
  let H := nth h
  let g1 := fpMul g (H 9)
  let m1' := if adam then fpFma (H 1) m1 (fpMul (H 2) g1) else fpFma (H 1) m1 g1
  let m2' := if adam then fpFma (H 3) m2 (fpMul (H 4) (fpMul g1 g1)) else m2
  let upd := if adam then fpDiv (fpMul m1' (H 7)) (fpAdd (fpSqrt (fpMul m2' (H 8))) (H 5)) else m1'
  let w2 := fpFma (fpNeg (H 0)) (fpFma (H 6) w upd) w
  (w2, m1', m2', fpSub w2 w)

/-- One group's new values, with its reads. -/
structure OptGroup where
  old : List Nat
  out : List (Nat × Nat × Nat × Nat)
  u : URes
  deriving DecidableEq, Repr

def optGroup (w : Work) (x : Flight) (g : Nat × Nat) : OptGroup :=
  let i := fun n => w.img x.part n
  let adam := osAlgo x.cmd == 0
  let wd := i (osW x.cmd)
  let cs := (List.range g.2).map (fun k => coordsOf wd (g.1 + k))
  let a := readFs w x wd cs
  let b := readFs w x (i (osG x.cmd)) cs
  let c := readFs w x (i (osM1 x.cmd)) cs
  let d := if adam then readFs w x (i (osM2 x.cmd)) cs else ([], {})
  let out := (List.range g.2).map fun k => optElement adam x.cap (nth a.1 k) (nth b.1 k) (nth c.1 k) (nth d.1 k)
  ⟨a.1, out, ((a.2.and b.2).and c.2).and d.2⟩

/-- One group of OPT_STEP (R343, R345). -/
def optUnit (w : Work) (x : Flight) (g : Nat × Nat) (r : OptGroup) : URes :=
  let i := fun n => w.img x.part n
  let adam := osAlgo x.cmd == 0
  let wk := i (osWork x.cmd)
  let base := nth x.cap 11 + 2 ^ 32 * nth x.cap 12
  let stoch := w.stochastic x.part (hyRound x.cap) wk
  let word := fun p => if stoch then some (drawAt x (w.struct.plan.num x.part).seed 1 (nth x.cap 10) base p) else none
  let none_ := fun (_ : Nat) => (none : Option Nat)
  let a := writeGroup w x (i (osW x.cmd)) g.1 (r.out.map (·.1)) none_
  let b := writeGroup w x (i (osM1 x.cmd)) g.1 (r.out.map (·.2.1)) none_
  let c := if adam then writeGroup w x (i (osM2 x.cmd)) g.1 (r.out.map (·.2.2.1)) none_ else {}
  let d := if hyCopy x.cap then writeGroup w x wk g.1 (r.out.map (·.1)) word else {}
  let u := r.u.and (((a.and b).and c).and d).counted
  trapUnit (w.trapsNan x.part x.cmd) (r.out.flatMap (fun o => [o.1, o.2.1] ++ (if adam then [o.2.2.1] else [])))
    { u with ctr := u.ctr ++ [(0x0720, g.2)] }

/-- The gradient of an OPT_STEP holds a NaN or an infinity; the code of its reads (R344). -/
def optFinite (w : Work) (x : Flight) : Nat × URes :=
  let g := w.img x.part (osG x.cmd)
  let r := readFs w x g ((List.range g.count).map (coordsOf g))
  (if r.1.any (fun v => isNan v || isInf v) then 0x02E9 else 0, r.2)

/-- The groups of an OPT_STEP with what each computes, and its units. -/
def optParts (w : Work) (x : Flight) : List ((Nat × Nat) × OptGroup) × List URes :=
  let f := if hyFinite x.cap then optFinite w x else (0, {})
  let rs := (groups256 (w.img x.part (osW x.cmd)).count).map (fun g => (g, optGroup w x g))
  (rs, if f.2.bad ≠ 0 then [f.2] else if f.1 ≠ 0 then [{ bad := f.1 }] else rs.map (fun r => optUnit w x r.1 r.2))

/-- Run an OPT_STEP; its ratio figures are kept for its retirement (R346). -/
def doOptStep (x : Flight) (limit : Option (Nat × Nat)) (w : Work) : Work :=
  let wd := w.img x.part (osW x.cmd)
  let n := wd.count
  let rs := (optParts w x).1
  let us := (optParts w x).2
  let cycles := fun (k : Nat) => 24 + ceilDiv (min n (256 * k)) 64 + 8 + (if hyFinite x.cap then ceilDiv n 256 else 0)
  let r := (w.runUnits x us us.length limit false true).engineEnds x us limit 0x0700 cycles 0
  if (stopAt us limit).isNone && hyRatio x.cap then
    let delta := rs.flatMap (fun g => g.2.out.map (·.2.2.2))
    let old := rs.flatMap (fun g => g.2.old)
    r.modFlight x.id fun y => { y with cap := y.cap ++ [rowDot delta delta, rowDot old old, n] }
  else r

/-- `ratio_k` and `ratio_jump` (R455). -/
def ratioK (u s : Nat) : Option Int :=
  match decode (fpDiv u s) 0 with
  | .fin _ m e => some (if m = 0 then -150 else e + (bitLength m : Int) - 1)
  | _ => none
def ratioJump (u0 s0 u1 s1 : Nat) : Nat :=
  match ratioK u0 s0, ratioK u1 s1 with
  | some a, some b => min 65535 (8192 * (b - a).natAbs)
  | _, _ => 65535

/-- When an OPT_STEP with ratio retires it writes its part record (R346). -/
def Work.retireOpt (w : Work) (x : Flight) : Work :=
  match opOf x.cmd == 0x64, x.cap.drop 16 with
  | true, [u, s, n] =>
    let a := (w.part x.part).ratioArea.base + 1024 * hyLayer x.cap + 16 * hyPart x.cap
    let w := if w.num a 4 = (x.shift - 1).toNat ∧ w.num (a + 8) 4 ≠ 0 then
        let j := ratioJump (w.num (a + 4) 4) (w.num (a + 8) 4) u s
        w.canaryPost x.part 0 (max j)
      else w
    w.store x.part a (leBytes 4 x.shift.toNat ++ leBytes 4 u ++ leBytes 4 s ++ leBytes 4 n)
  | _, _ => w

def optStepRow (f u : Nat) (parity : Option Nat) (w : Work) : Work :=
  match w.runningOn f u 0x64 with
  | none => w
  | some x => doOptStep x (limitOf parity 0x02F0) w

/-- OPT_STEP (R341 to R347). -/
def execOptStep (f u : Nat) (parity : Option Nat) (s : State) : Host.Outcome State Fault Refusal :=
  runIf (f < Config.nFaces && u < 1) (optStepRow f u parity) s

end Sys2Proof.Machine
end

