-- ==== Sys2Proof/Machine/Rows.lean ====
section
/-! DEFINITION. The row engine and the statistics store: ROW_NORM, ROW_SOFTMAX and ROW_LOSS
(10_training_support.md). -/

namespace Sys2Proof.Machine

/-! ## Row functions (R337) -/

def LN2 : Nat := 0x3F317218
def TWO_LOG2E : Nat := 0x4038AA3B
def NEG_INF32 : Nat := 0xFF800000
/-- `div_n`. -/
def divN (x n : Nat) : Nat := fpDiv x (fpOfInt n)

/-- `log2_approx`; of +∞ or NaN a NaN. -/
def log2Approx (s : Nat) : Nat :=
  if isNan s || isInf s then NAN32
  else
    let d := finOf s
    let k := d.2.2 + bitLength d.2.1 - 1
    let f := fpScale s (-k)
    let t := fpDiv (fpSub f ONE32) (fpAdd f ONE32)
    let t2 := fpMul t t
    let p := fpFma t2 (fpFma t2 (fpFma t2 0x3E124925 0x3E4CCCCD) 0x3EAAAAAB) ONE32
    fpAdd (fpOfInt k) (fpMul TWO_LOG2E (fpMul t p))

/-- `soft_parts`: z, m, e (none where m is −∞), s. -/
def softParts (x : List Nat) (scale : Nat) : List Nat × Nat × Option (List Nat) × Nat :=
  let z := x.map (fpMul scale)
  let m := (z.drop 1).foldl fmax (nth z 0)
  if m = NEG_INF32 then (z, m, none, 0)
  else
    let e := z.map (fun zi => exp2Approx (fpMul (fpSub zi m) LOG2E32))
    (z, m, some e, rowSum e)

/-- The three figures of a statistics entry. -/
abbrev St3 := Nat × Nat × Nat

/-- `softmax_fwd`. -/
def softmaxFwd (x : List Nat) (scale : Nat) : List Nat × St3 :=
  let p := softParts x scale
  match p.2.2.1 with
  | none => (x.map (fun _ => 0), (p.2.1, 0, scale))
  | some e =>
    let r := fpDiv ONE32 p.2.2.2
    (e.map (fun ei => fpMul ei r), (p.2.1, r, scale))
/-- `softmax_from_stats`. -/
def softmaxFromStats (x : List Nat) (st : St3) : List Nat :=
  if st.1 = NEG_INF32 then x.map (fun _ => 0)
  else x.map (fun xi => fpMul (exp2Approx (fpMul (fpSub (fpMul st.2.2 xi) st.1) LOG2E32)) st.2.1)
/-- `softmax_bwd`. -/
def softmaxBwd (y dy : List Nat) (scale : Nat) : List Nat :=
  let d := rowDot dy y
  (y.zip dy).map (fun p => fpMul scale (fpMul p.1 (fpSub p.2 d)))

/-- `loss_fwd`: the loss and the statistics, none where the label faults. -/
def lossFwd (x : List Nat) (label : Int) (target : List Nat) (scale : Nat) (soft : Bool) : Option (Nat × St3) :=
  let p := softParts x scale
  let r := fpDiv ONE32 p.2.2.2
  let lse := fpAdd p.2.1 (fpMul (log2Approx p.2.2.2) LN2)
  let st : St3 := (p.2.1, r, scale)
  if soft then some (fpSub lse (rowDot target p.1), st)
  else if label < 0 then some (0, st)
  else if label ≥ x.length then none
  else some (fpSub lse (nth p.1 label.toNat), st)
/-- `loss_bwd`. -/
def lossBwd (x : List Nat) (label : Int) (target : List Nat) (g : Nat) (st : St3) (soft : Bool) : Option (List Nat) :=
  let q := softmaxFromStats x st
  let gs := fpMul g st.2.2
  if !soft && decide (label < 0) then some (x.map (fun _ => 0))
  else if !soft && decide (label ≥ x.length) then none
  else
    let t := if soft then target else (List.range x.length).map (fun (i : Nat) => if (i : Int) = label then ONE32 else 0)
    some ((q.zip t).map (fun p => fpMul gs (fpSub p.1 p.2)))

/-- Three lists side by side. -/
def zip3 (a b c : List Nat) : List (Nat × Nat × Nat) := a.zip (b.zip c)

/-- `norm_fwd`. -/
def normFwd (x gamma beta : List Nat) (eps : Nat) (rms : Bool) : List Nat × St3 :=
  let n := x.length
  let mean := if rms then 0 else divN (rowSum x) n
  let dev := x.map (fun xi => fpSub xi mean)
  let rstd := fpDiv ONE32 (fpSqrt (fpAdd (divN (rowDot dev dev) n) eps))
  ((zip3 dev gamma beta).map (fun p => fpFma (fpMul p.1 rstd) p.2.1 p.2.2), (mean, rstd, 0))
/-- `norm_bwd`: dx and xh. -/
def normBwd (x dy gamma : List Nat) (st : St3) (rms : Bool) : List Nat × List Nat :=
  let n := x.length
  let xh := x.map (fun xi => fpMul (fpSub xi st.1) st.2.1)
  let g := (dy.zip gamma).map (fun p => fpMul p.1 p.2)
  let a := divN (rowDot g xh) n
  let b := if rms then 0 else divN (rowSum g) n
  ((g.zip xh).map (fun p => fpMul st.2.1 (fpSub (fpSub p.1 b) (fpMul p.2 a))), xh)

/-! ## Operands and checks (R333, R336) -/

def roOp (cmd : Nat) : Nat := bits (cb cmd 4 2) 15 12
def roI (cmd i : Nat) : Nat := bits (cb cmd (4 + 2 * i) 2) 11 0
/-- The statistics base of each command. -/
def rowBase (cmd : Nat) : Nat := if opOf cmd = 0x61 then bits (cb cmd 14 2) 14 0 else bits (cb cmd 10 2) 14 0
def rowScale (cmd : Nat) : Nat := cb cmd 12 4

/-- Reserved bits of R336. -/
def rowReserved (cmd : Nat) : Bool :=
  if opOf cmd = 0x61 then (List.range 4).all (fun i => bits (cb cmd (6 + 2 * i) 2) 15 12 == 0) && !bit (cb cmd 14 2) 15
  else bits (cb cmd 6 2) 15 12 == 0 && bits (cb cmd 8 2) 15 12 == 0 && !bit (cb cmd 10 2) 15

/-- The op is a backward one (ROW_NORM), reads a dy. -/
def normBack (cmd : Nat) : Bool := decide (roOp cmd ≥ 2)
/-- The op of ROW_LOSS takes teacher probabilities, is a backward one. -/
def lossSoft (cmd : Nat) : Bool := decide (roOp cmd ≥ 2)
def lossBack (cmd : Nat) : Bool := roOp cmd % 2 == 1

/-- Input and output descriptors of a row command. -/
def rowIns (cmd : Nat) : List Nat :=
  match opOf cmd with
  | 0x61 => [roI cmd 0, roI cmd 2] ++ (if normBack cmd then [roI cmd 3] else [])
  | 0x62 => [roI cmd 0] ++ (if roOp cmd = 3 then [roI cmd 2] else [])
  | _ => [roI cmd 0, roI cmd 1]
def rowOuts (cmd : Nat) : List Nat :=
  match opOf cmd with
  | 0x61 => [roI cmd 1] ++ (if normBack cmd then [roI cmd 4] else [])
  | 0x62 => [roI cmd 1]
  | _ => [roI cmd 2]

/-- The kind of entry that an op reads, and the one it writes: 0 none (R338). -/
def rowReads (cmd : Nat) : Nat :=
  match opOf cmd with
  | 0x61 => if normBack cmd then roOp cmd - 1 else 0
  | 0x62 => if roOp cmd = 2 then 3 else 0
  | _ => if lossBack cmd then 4 else 0
def rowWrites (cmd : Nat) : Nat :=
  match opOf cmd with
  | 0x61 => if normBack cmd then 0 else roOp cmd + 1
  | 0x62 => if roOp cmd = 1 then 3 else 0
  | _ => if lossBack cmd then 0 else 4

/-- Fields that must be 0 (R336), and the op. -/
def rowFields (cmd : Nat) : Bool :=
  decide (roOp cmd ≤ 3) && match opOf cmd with
  | 0x61 => normBack cmd || (roI cmd 3 == 0 && roI cmd 4 == 0)
  | 0x62 => (roOp cmd == 3 || roI cmd 2 == 0) && (roOp cmd == 1 || roOp cmd == 2 || cb cmd 10 2 == 0)
      && (roOp cmd != 2 || rowScale cmd == 0)
  | _ => true

/-- Shapes of R336. -/
def rowShape (cmd : Nat) (i : Nat → DescImg) : Bool :=
  let x := i (roI cmd 0)
  let W := x.e 0
  let R := x.e 1
  let same := fun (d : DescImg) => d.rank == 2 && d.e 0 == W && d.e 1 == R
  let wide := fun (d : DescImg) n => d.rank == 2 && d.e 0 == W && d.e 1 == n
  let line := fun (d : DescImg) => d.rank == 1 && d.e 0 == R
  x.rank == 2 && decide (1 ≤ W) && decide (W ≤ 262144) && decide (1 ≤ R) && decide (R ≤ 32768)
    && match opOf cmd with
    | 0x61 => same (i (roI cmd 1)) && wide (i (roI cmd 2)) 3
        && (!normBack cmd || (same (i (roI cmd 3)) && wide (i (roI cmd 4)) 2))
    | 0x62 => same (i (roI cmd 1)) && (roOp cmd != 3 || same (i (roI cmd 2)))
    | _ => (if lossSoft cmd then same (i (roI cmd 1)) else line (i (roI cmd 1)))
        && (if lossBack cmd then same (i (roI cmd 2)) else line (i (roI cmd 2)))

/-- Formats of R336. -/
def rowFormats (cmd : Nat) (i : Nat → DescImg) : Bool :=
  let inOk := fun (d : DescImg) => decide (d.fmt ≤ 4)
  inOk (i (roI cmd 0)) && match opOf cmd with
  | 0x61 => vecOutOk (i (roI cmd 1)) && isWord (i (roI cmd 2))
      && (!normBack cmd || (inOk (i (roI cmd 3)) && isWord (i (roI cmd 4))))
  | 0x62 => vecOutOk (i (roI cmd 1)) && (roOp cmd != 3 || inOk (i (roI cmd 2)))
  | _ => (if lossSoft cmd then decide ((i (roI cmd 1)).fmt ≤ 1) && !(i (roI cmd 1)).mx else isWord (i (roI cmd 1)))
      && (if lossBack cmd then vecOutOk (i (roI cmd 2)) else isWord (i (roI cmd 2)))

/-- The checks of a row command at issue. -/
def rowIssue (w : Work) (p cmd : Nat) : Nat :=
  let i := fun n => w.img p n
  firstCode ([codeUnless (rowFields cmd) 0x02E4]
    ++ (rowIns cmd ++ rowOuts cmd).map (fun n => codeUnless (w.descUsable p n) 0x0102)
    ++ (rowIns cmd).map (fun n => w.vecDesc p n true false) ++ (rowOuts cmd).map (fun n => w.vecDesc p n false true)
    ++ [codeUnless (rowShape cmd i) 0x02E2, codeUnless (rowFormats cmd i) 0x02E3,
      codeUnless (vecApart ((rowOuts cmd).map i) ((rowIns cmd).map i)) 0x02E5,
      codeUnless ((rowReads cmd == 0 && rowWrites cmd == 0) || decide (rowBase cmd + (i (roI cmd 0)).e 1 ≤ 32768)) 0x02E7])

/-! ## Rows -/

/-- Read row `r` of a tensor as FP32. -/
def rowOf (w : Work) (x : Flight) (d : DescImg) (r : Nat) : List Nat × URes :=
  readFs w x d ((List.range (d.e 0)).map (fun e => [e, r]))

/-- The statistics entry of a row, if its key is right (R334). -/
def statOf (w : Work) (x : Flight) (r : Nat) : Option St3 :=
  let s := Tab.get ({} : Stat) (w.face x.face).stats (rowBase x.cmd + r)
  if s.kind = rowReads x.cmd ∧ s.shift = x.shift.toNat % 2 ^ 16 then some (s.s0, s.s1, s.s2) else none

/-- What one row does: its unit, and the figures its entry takes. -/
structure RowRes where
  u : URes
  st : St3 := (0, 0, 0)
  deriving DecidableEq, Repr

/-- Write a row of values, under the trap (R218). -/
def putRow (w : Work) (x : Flight) (d : DescImg) (r : Nat) (vals : List Nat) (reads : URes) : URes :=
  trapUnit (w.trapsNan x.part x.cmd) vals (reads.and (writeRun w x d 0 [r] vals).counted)

/-- ROW_NORM forward. -/
def normRowFwd (w : Work) (x : Flight) (r : Nat) : RowRes :=
  let i := fun n => w.img x.part (roI x.cmd n)
  let xs := rowOf w x (i 0) r
  let g := rowOf w x (i 2) 0
  let b := rowOf w x (i 2) 1
  let e := readF w x (i 2) [0, 2]
  let v := normFwd xs.1 g.1 b.1 e.1 (roOp x.cmd == 1)
  ⟨putRow w x (i 1) r v.1 (((xs.2.and g.2).and b.2).and e.2), v.2⟩

/-- dy and xh of a row of ROW_NORM backward, with dx (R337). -/
def normRowVals (w : Work) (x : Flight) (r : Nat) (st : St3) : List Nat × List Nat × List Nat × URes :=
  let i := fun n => w.img x.part (roI x.cmd n)
  let xs := rowOf w x (i 0) r
  let dy := rowOf w x (i 3) r
  let g := rowOf w x (i 2) 0
  let v := normBwd xs.1 dy.1 g.1 st (roOp x.cmd == 3)
  (v.1, dy.1, v.2, (xs.2.and dy.2).and g.2)

/-- The parameter gradients over all rows (R339). -/
def paramGrads (w : Work) (x : Flight) (R : Nat) : URes :=
  let pg := w.img x.part (roI x.cmd 4)
  let rows := (List.range R).map (fun r => normRowVals w x r ((statOf w x r).getD (0, 0, 0)))
  let col := fun (j : Nat) (f : List Nat × List Nat × List Nat × URes → List Nat) => rows.map (fun r => nth (f r) j)
  let n := pg.e 0
  let g := (List.range n).map (fun j => rowDot (col j (·.2.1)) (col j (·.2.2.1)))
  let b := (List.range n).map (fun j => rowSum (col j (·.2.1)))
  trapUnit (w.trapsNan x.part x.cmd) (g ++ b) ((writeRun w x pg 0 [0] g).and (writeRun w x pg 0 [1] b)).counted

/-- ROW_NORM backward. -/
def normRowBwd (w : Work) (x : Flight) (r : Nat) : RowRes :=
  match statOf w x r with
  | none => ⟨{ bad := 0x02E6 }, (0, 0, 0)⟩
  | some st =>
    let i := fun n => w.img x.part (roI x.cmd n)
    let v := normRowVals w x r st
    let u := putRow w x (i 1) r v.1 v.2.2.2
    let R := (i 0).e 1
    if r + 1 = R then
      let q := paramGrads w x R
      ⟨if u.bad = 0 ∧ q.bad ≠ 0 then { u with bad := q.bad, wr := [] } else u.and q, st⟩
    else ⟨u, st⟩

/-- ROW_SOFTMAX. -/
def softRow (w : Work) (x : Flight) (r : Nat) : RowRes :=
  let i := fun n => w.img x.part (roI x.cmd n)
  let scale := rowScale x.cmd
  let xs := rowOf w x (i 0) r
  match roOp x.cmd with
  | 2 => match statOf w x r with
    | none => ⟨{ bad := 0x02E6 }, (0, 0, 0)⟩
    | some st => ⟨putRow w x (i 1) r (softmaxFromStats xs.1 st) xs.2, st⟩
  | 3 =>
    let dy := rowOf w x (i 2) r
    ⟨putRow w x (i 1) r (softmaxBwd xs.1 dy.1 scale) (xs.2.and dy.2), (0, 0, 0)⟩
  | _ =>
    let v := softmaxFwd xs.1 scale
    ⟨putRow w x (i 1) r v.1 xs.2, v.2⟩

/-- ROW_LOSS. -/
def lossRow (w : Work) (x : Flight) (r : Nat) : RowRes :=
  let i := fun n => w.img x.part (roI x.cmd n)
  let soft := lossSoft x.cmd
  let xs := rowOf w x (i 0) r
  let t := if soft then rowOf w x (i 1) r else words32 w x (i 1) [[r]]
  let label := s32 (nth t.1 0)
  let reads := xs.2.and t.2
  let bad : RowRes := ⟨if reads.bad ≠ 0 then reads else { reads with bad := 0x02EA }, (0, 0, 0)⟩
  if lossBack x.cmd then
    match statOf w x r with
    | none => ⟨{ bad := 0x02E6 }, (0, 0, 0)⟩
    | some st => match lossBwd xs.1 label t.1 (rowScale x.cmd) st soft with
      | none => bad
      | some v => ⟨putRow w x (i 2) r v reads, st⟩
  else match lossFwd xs.1 label t.1 (rowScale x.cmd) soft with
    | none => bad
    | some v =>
      let u := writeGroup w x (i 2) r [v.1] (fun _ => none)
      ⟨trapUnit (w.trapsNan x.part x.cmd) [v.1] (reads.and u), v.2⟩

/-- One row of a row command. -/
def rowUnit (w : Work) (x : Flight) (r : Nat) : RowRes :=
  match opOf x.cmd with
  | 0x61 => if normBack x.cmd then normRowBwd w x r else normRowFwd w x r
  | 0x62 => softRow w x r
  | _ => lossRow w x r

/-- The statistics entries of committed rows are written; those above the watermark may be (R124, R340). -/
def Work.putStats (w : Work) (x : Flight) (n : Nat) (rs : List RowRes) : Work :=
  let kind := rowWrites x.cmd
  if kind = 0 then w
  else
    let k := w.fresh
    k.2.each rs.zipIdx fun w r =>
      let e := rowBase x.cmd + r.2
      let st := r.1.st
      if r.2 < n || (r.1.u.bad == 0 && Config.torn k.1 e) then
        w.modFace x.face fun c => { c with
          stats := c.stats.set {} e ⟨st.1, st.2.1, st.2.2, x.shift.toNat % 2 ^ 16, kind⟩ }
      else w

/-- Passes of R340. -/
def rowPasses (cmd : Nat) : Nat :=
  match opOf cmd, roOp cmd with
  | 0x61, 0 => 3 | 0x61, 2 => 3 | 0x61, _ => 2
  | 0x62, 0 => 3 | 0x62, 1 => 3 | 0x62, 2 => 1 | 0x62, _ => 2
  | _, o => if o % 2 = 1 then 1 else 2

/-- The rows of a row command. -/
def rowsOf (w : Work) (x : Flight) : List RowRes := (List.range ((w.img x.part (roI x.cmd 0)).e 1)).map (rowUnit w x)

/-- Run a row command. -/
def doRow (x : Flight) (limit : Option (Nat × Nat)) (w : Work) : Work :=
  let d := w.img x.part (roI x.cmd 0)
  let rs := rowsOf w x
  let us := rs.map (·.u)
  let stop := stopAt us limit
  let n := match stop with | some (n, _) => n | none => us.length
  let w := if (us.take n).any (fun u => !u.needs.isEmpty || u.waits) then w else w.putStats x n rs
  let r := (w.runUnits x us us.length limit false true).engineEnds x us limit 0x0708
    (fun n => 32 + n * rowPasses x.cmd * ceilDiv (d.e 0) 64 + 16) 0
  match stop with
  | some (_, code) => if code = 0x02E6 then r.faceCtr x.face 0x0710 1 else r
  | none => r

/-- Run the row command with opcode `op` on unit `u` of face `f`. -/
def rowRow (f u op : Nat) (parity : Option Nat) (w : Work) : Work :=
  match w.runningOn f u op with
  | none => w
  | some x => doRow x (limitOf parity 0x02F1) w

/-- ROW_NORM (R336 to R340). -/
def execRowNorm (f u : Nat) (parity : Option Nat) (s : State) : Host.Outcome State Fault Refusal :=
  runIf (f < Config.nFaces && u < 1) (rowRow f u 0x61 parity) s
/-- ROW_SOFTMAX (R336 to R340). -/
def execRowSoftmax (f u : Nat) (parity : Option Nat) (s : State) : Host.Outcome State Fault Refusal :=
  runIf (f < Config.nFaces && u < 1) (rowRow f u 0x62 parity) s
/-- ROW_LOSS (R336 to R340). -/
def execRowLoss (f u : Nat) (parity : Option Nat) (s : State) : Host.Outcome State Fault Refusal :=
  runIf (f < Config.nFaces && u < 1) (rowRow f u 0x63 parity) s

end Sys2Proof.Machine
end

