-- ==== Sys2Proof/Machine/Collective.lean ====
section
/-! DEFINITION. Collectives (12_collectives_and_parallelism.md): AMAX_ROUND, COLL_BUCKET and KV_PASS, their flits, and
what becomes of a ring that loses a member. A ring flit carries the ring_id of the command it belongs to (log
entry 30). -/

namespace Sys2Proof.Machine

/-! ## Operand fields (R400, R405, R419) -/

def isColl (cmd : Nat) : Bool := decide (0x80 ≤ opOf cmd) && decide (opOf cmd ≤ 0x82)
def collSrc (cmd : Nat) : Nat := bits (cb cmd 4 2) 11 0
def collDst (cmd : Nat) : Nat := bits (cb cmd 6 2) 11 0
def collAgr (cmd : Nat) : Nat := if opOf cmd = 0x80 then bits (cb cmd 6 2) 11 0 else bits (cb cmd 8 2) 11 0
def collRing (cmd : Nat) : Nat := if opOf cmd = 0x81 then bits (cb cmd 10 1) 2 0 else bits (cb cmd 8 1) 2 0
def collPhase (cmd : Nat) : Nat := if opOf cmd = 0x80 then cb cmd 11 1 else cb cmd 12 1
def collContrib (cmd : Nat) : Bool := if opOf cmd = 0x80 then bit (cb cmd 10 1) 0 else bit (cb cmd 11 1) 0
def collBucketOf (cmd : Nat) : Nat := if opOf cmd = 0x80 then cb cmd 12 2 else cb cmd 14 2
def amaxWire (cmd : Nat) : Nat := cb cmd 9 1
def bucketOp (cmd : Nat) : Nat := bits (cb cmd 4 2) 15 12
def bucketRecovery (cmd : Nat) : Bool := bit (cb cmd 10 1) 3
def bucketAvg (cmd : Nat) : Bool := bit (cb cmd 11 1) 1
def kvReverse (cmd : Nat) : Bool := bit (cb cmd 9 1) 0
def kvStep (cmd : Nat) : Nat := cb cmd 10 2
def isAmax (cmd : Nat) : Bool := opOf cmd == 0x80
def isKv (cmd : Nat) : Bool := opOf cmd == 0x82
def isAll (cmd : Nat) : Bool := opOf cmd == 0x81 && bucketOp cmd == 0
def isScatter (cmd : Nat) : Bool := opOf cmd == 0x81 && bucketOp cmd == 1
def isGather (cmd : Nat) : Bool := opOf cmd == 0x81 && bucketOp cmd == 2
def isRecovery (cmd : Nat) : Bool := isAll cmd && bucketRecovery cmd

/-- Reserved bits are zero. -/
def collReserved (cmd : Nat) : Bool :=
  let idx := fun i => bits (cb cmd i 2) 15 12 == 0
  if opOf cmd = 0x80 then idx 4 && idx 6 && bits (cb cmd 8 1) 7 3 == 0 && bits (cb cmd 10 1) 7 1 == 0 && cb cmd 14 2 == 0
  else if opOf cmd = 0x81 then idx 6 && idx 8 && bits (cb cmd 10 1) 7 4 == 0 && bits (cb cmd 11 1) 7 2 == 0 && cb cmd 13 1 == 0
  else idx 4 && idx 6 && bits (cb cmd 8 1) 7 3 == 0 && bits (cb cmd 9 1) 7 1 == 0 && cb cmd 13 3 == 0

/-- The descriptors that a collective names. -/
def collDescs (cmd : Nat) : List Nat :=
  if opOf cmd = 0x80 then [collSrc cmd, collAgr cmd]
  else if isGather cmd ∨ opOf cmd = 0x82 then [collSrc cmd, collDst cmd]
  else [collSrc cmd, collDst cmd, collAgr cmd]

/-- A descriptor as the device's own shard (R406): its elements lie here. -/
def DescImg.own (d : DescImg) : DescImg := { d with kind := 0 }

/-! ## Rings -/

/-- The ports of a mask. -/
def portsOf (mask : Nat) : List Nat := (List.range Config.nPorts).filter (bit mask)

/-- A ring as a member runs it: size, rank, ports, and the positions and nodes by rank. -/
structure View where
  n : Nat := 0
  rank : Nat := 0
  tx : List Nat := []
  rx : List Nat := []
  pos : List Nat := []
  node : List Nat := []
  lr : Option Nat := none
  deriving DecidableEq, Repr, Inhabited

/-- The bypass record that a member uses (R414): kind 1 with the lost member downstream, kind 2 with it upstream. -/
def Blk.bypassRec (b : Blk) (p : Nat) (r : RingRec) (lr : Nat) : Option RingRec :=
  let kind := if lr = (r.rank + 1) % r.size then 1 else 2
  (b.struct.plan.bypassOf p r.ring).find? (fun y => y.kind == kind)
/-- A member stands next to the rank that is left out. -/
def nextTo (r : RingRec) (lr : Nat) : Bool := lr == (r.rank + 1) % r.size || lr == (r.rank + r.size - 1) % r.size
/-- A member's rank on the bypass ring (R414). -/
def bypassRank (r : RingRec) (lr : Nat) : Nat := if r.rank > lr then r.rank - 1 else r.rank

/-- The ring as it runs now, with the roster given. -/
def Blk.view (b : Blk) (p ring : Nat) (pos node : List Nat) : View :=
  match b.struct.plan.ringRec p ring with
  | none => {}
  | some r =>
    let pos := pos.take r.size
    let node := node.take r.size
    let rg := b.ring p ring
    match rg.onBypass, rg.lost with
    | true, some l =>
      let lr := pos.findIdx (· == l)
      let m := if nextTo r lr then (b.bypassRec p r lr).getD r else r
      ⟨r.size - 1, bypassRank r lr, portsOf m.tx, portsOf m.rx, pos.eraseIdx lr, node.eraseIdx lr, some lr⟩
    | _, _ => ⟨r.size, r.rank, portsOf r.tx, portsOf r.rx, pos, node, none⟩

/-- The ring by the roster as it stands in memory. -/
def Work.viewNow (w : Work) (p ring : Nat) : View := w.view p ring (w.rosterPos p ring) (w.rosterNode p ring)
/-- The ring of a command, by the roster read at its issue (positions under the ring's number, nodes under 8 more). -/
def Blk.viewOf (b : Blk) (x : Flight) : View :=
  let ring := collRing x.cmd
  let get := fun k => ((x.rosters.find? (fun e => e.1 = k)).map (·.2)).getD []
  b.view x.part ring (get ring) (get (ring + 8))

/-- The open collective commands of a ring. -/
def Blk.openColl (b : Blk) (p ring : Nat) : List Flight :=
  b.flights.filter (fun x => isColl x.cmd && x.part == p && collRing x.cmd == ring)
/-- The open command with a ring sequence number (its low 24 bits, R398). -/
def Blk.collOf (b : Blk) (p ring seq : Nat) : Option Flight :=
  (b.openColl p ring).find? (fun x => x.coll.ringSeq % 2 ^ 24 = seq % 2 ^ 24)

/-! ## Sending (R394, R398, R414) -/

/-- The port that the next flit leaves by: the ring's UP ports in turn, or the egress of FAB_ROUTE. -/
def Blk.collPort (b : Blk) (p ring : Nat) (o : CollOut) : Option Nat :=
  match o.ports with
  | some l => match l.filter (fun k => (b.port k).upData) with
    | [] => none
    | u =>
      let r := b.ring p ring
      some (u.getD ((if o.back then r.sentBack else r.sent) % u.length) 0)
  | none => b.egress o.dst

/-- A collective flit goes to a port: bytes 8 to 11 hold its offset, bytes 12 and 13 the ring, the stage and last. -/
def Work.putColl (w : Work) (p ring port : Nat) (o : CollOut) : Work :=
  let own := (w.txns.find? (fun t => t.kind == .coll && t.owner == o.owner && o.stage == 4 + t.unit)).map (·.id)
  let w := w.modRing p ring fun r =>
    if o.ports.isNone then r else if o.back then { r with sentBack := r.sentBack + 1 } else { r with sent := r.sent + 1 }
  w.sendFlit port { type := 1, vc := 1, dst := o.dst, part := p, txn := o.txn
                    addr := o.off + 2 ^ 32 * (ring + 8 * o.stage) + 2 ^ 40 * b2n o.last, data := o.data, own := own
                    coll := some (8 * p + ring, o.owner) }

/-- The owner that the resolve flits of a ring have (R415): no command. -/
def noFlight : Nat := 2 ^ 64
/-- The flits of a ring that wait for a credit are not sent, but for its resolve flits (R414). -/
def Work.quietHeld (w : Work) (p ring : Nat) : Work :=
  w.dropHeld fun f => match f.coll with
    | some (k, id) => k == 8 * p + ring && id != noFlight
    | none => false

/-- A broken ring sends nothing but its resolve flits (R414). -/
def Ring.quiet (r : Ring) : Bool := r.dead != 0 || (r.lost.isSome && (!r.onBypass || r.resolving))

/-- Send a flit, or queue it while no port is UP. -/
def Work.ringSend (w : Work) (p ring : Nat) (o : CollOut) : Work :=
  let r := w.ring p ring
  if r.quiet ∧ o.stage ≠ 6 then w
  else match (if r.txq.isEmpty then w.collPort p ring o else none) with
    | some k => w.putColl p ring k o
    | none => w.modRing p ring fun r => { r with txq := r.txq ++ [o] }

/-- Send what a ring holds for a port that is UP now. -/
def Work.drainRing (w : Work) (p ring : Nat) : Work :=
  let q := (w.ring p ring).txq
  (w.modRing p ring fun r => { r with txq := [] }).each q fun w o => w.ringSend p ring o
/-- The same for every ring (a port has come UP). -/
def Work.drainRings (w : Work) : Work :=
  w.each (w.rings.filter (fun e => !e.2.txq.isEmpty)) fun w e => w.drainRing (e.1 / 8) (e.1 % 8)

/-- Open the transaction of a KV_PASS's block (`unit` 0) or of its ready flit (1), which the receiver acknowledges (R420). -/
def Work.kvTxn (w : Work) (x : Flight) (unit dst : Nat) : Work :=
  w.addTxn { kind := .coll, dst := dst, part := x.part, owner := x.id, unit := unit, addr := x.coll.ringSeq, sentAt := w.clk.span,
             src := x.part, shift := x.shift }
/-- The ports and the rank of the member that a KV_PASS sends its block to, and of the one that sends to it (R420). -/
def View.kvTo (v : View) (rev : Bool) : List Nat × Nat :=
  if rev then (v.rx, (v.rank + v.n - 1) % v.n) else (v.tx, (v.rank + 1) % v.n)
def View.kvFrom (v : View) (rev : Bool) : List Nat × Nat := v.kvTo (!rev)

/-- Send a command's flit downstream. -/
def Work.sendDown (w : Work) (x : Flight) (v : View) (stage off : Nat) (data : List Nat) : Work :=
  w.ringSend x.part (collRing x.cmd)
    { stage := stage, ports := some v.tx, dst := nth v.pos ((v.rank + 1) % v.n), txn := x.coll.ringSeq, off := off,
      data := data, owner := x.id }
/-- Send a command's flit to a rank by FAB_ROUTE (R417). -/
def Work.sendRank (w : Work) (x : Flight) (v : View) (rank stage off : Nat) (data : List Nat) : Work :=
  w.ringSend x.part (collRing x.cmd)
    { stage := stage, ports := none, dst := nth v.pos rank, txn := x.coll.ringSeq, off := off, data := data, owner := x.id }

/-! ## The agreement record (R401) -/

/-- Address of byte `o` of a record. -/
def agrAddr (d : DescImg) (o : Nat) : Nat := (elementAddress d.own d.base [o]).1.toNat / 8
def Work.agrNum (w : Work) (d : DescImg) (o n : Nat) : Nat :=
  leNat ((List.range n).map (fun i => w.byte (agrAddr d (o + i))))
/-- Writes of a record's bytes from an offset. -/
def agrWops (d : DescImg) (o : Nat) (l : List Nat) : List Wop :=
  l.zipIdx.map (fun e => ⟨none, 8 * agrAddr d (o + e.2), 8, e.1⟩)
/-- What a bucket keeps of its record from issue: n, wire, the 32 contributor bytes, the exponents. -/
def Work.agrCap (w : Work) (d : DescImg) (l : Nat) : List Nat :=
  [w.agrNum d 6 2, w.agrNum d 5 1] ++ (List.range (32 + l / 32)).map (fun i => w.byte (agrAddr d (32 + i)))
/-- A contributor bit of a kept record. -/
def capBit (cap : List Nat) (r : Nat) : Bool := bit (nth cap (2 + r / 8)) (r % 8)

/-- The place in the record of the member at rank `r` of the ring that the bucket runs on (R406). -/
def agrRank (nAgr size : Nat) (lr : Option Nat) (r : Nat) : Option Nat :=
  match lr with
  | none => if nAgr = size then some r else none
  | some l => if nAgr = size then some (if r ≥ l then r + 1 else r) else if nAgr + 1 = size then some r else none
/-- c[r] of R407. -/
def memberBit (cap : List Nat) (size : Nat) (lr : Option Nat) (r : Nat) : Bool :=
  match agrRank (nth cap 0) size lr r with
  | some i => capBit cap i
  | none => false

/-! ## Checks at issue (R559) -/

/-- The offset of a phase's event from the shift mark (R399). -/
def Blk.phaseOff (b : Blk) (p ring phase : Nat) : Option Nat :=
  (b.struct.plan.bell.find? (fun e => e.kind == 2 && e.part == p && e.arg0 == ring && e.arg1 == phase)).map (·.off)
/-- The tick at which a command's phase comes. -/
def Blk.phaseTick (b : Blk) (x : Flight) : Option Nat :=
  (b.phaseOff x.part (collRing x.cmd) (collPhase x.cmd)).map (b.markTick x.part x.shift + ·)

/-- Step 2 (R395); a ring that is out of use gives its own code (R414, R416). -/
def Blk.ringCode (b : Blk) (p ring : Nat) : Nat :=
  match b.struct.plan.ringRec p ring with
  | none => 0x0620
  | some r =>
    let rg := b.ring p ring
    let up := fun m => (portsOf m).any (fun k => (b.port k).upData)
    if r.kind ≠ 0 then 0x0620
    else if rg.dead ≠ 0 then rg.dead
    else if rg.lost.isSome then 0
    else codeUnless (up r.tx && up r.rx) 0x0620

/-- Largest number of members of one node. -/
def biggestNode (node : List Nat) : Nat := (node.map (fun a => (node.filter (· == a)).length)).foldl max 0

/-- A local gradient (R400). -/
def gradOk (ring : Nat) (d : DescImg) : Bool :=
  decide (d.fmt ≤ 1) && !d.mx && d.rank == 1 && d.e 0 % 256 == 0 && decide (256 ≤ d.e 0) && decide (d.e 0 ≤ 2 ^ 28)
    && (d.kind == 0 || d.viewArg == ring)
/-- An agreement record for L elements. -/
def agrOk (ring l : Nat) (d : DescImg) : Bool :=
  d.fmt == 8 && d.rank == 1 && d.e 0 == 64 + l / 32 && (d.kind == 0 || d.viewArg == ring)
/-- A result vector of n elements. -/
def resOk (ring n : Nat) (d : DescImg) : Bool :=
  d.fmt == 0 && d.rank == 1 && d.e 0 == n && (d.kind == 0 || d.viewArg == ring)

/-- First element of chunk `j` of `n` over `total` elements in units of `unit` (R402, R404). -/
def chunkLo (unit total n j : Nat) : Nat := unit * (j * (total / unit) / n)

/-- Step 6. -/
def Blk.collShape (b : Blk) (x : Flight) (size rank : Nat) : Bool :=
  let cmd := x.cmd
  let ring := collRing cmd
  let s := b.img x.part (collSrc cmd)
  let d := b.img x.part (collDst cmd)
  let a := b.img x.part (collAgr cmd)
  let l := s.e 0
  if isAmax cmd then gradOk ring s && agrOk ring l a && (amaxWire cmd == 3 || amaxWire cmd == 4)
  else if isKv cmd then
    s.fmt == d.fmt && s.mx == d.mx && s.zp == d.zp && sameShape s d && !reachMeets s.own d.own
      && (s.kind == 0 || s.viewArg == ring) && (d.kind == 0 || d.viewArg == ring)
  else if isAll cmd then
    gradOk ring s && agrOk ring l a && resOk ring l d && !reachMeets d.own s.own && !reachMeets d.own a.own
  else if isScatter cmd then
    gradOk ring s && agrOk ring l a && resOk ring (chunkLo 256 l size (rank + 1) - chunkLo 256 l size rank) d
      && !bucketRecovery cmd && !reachMeets d.own s.own && !reachMeets d.own a.own
  else if isGather cmd then
    !bucketRecovery cmd && !collContrib cmd && !bucketAvg cmd && collAgr cmd == 0 && s.rank == 1 && d.rank == 1
      && s.fmt == d.fmt && s.mx == d.mx && d.e 0 % (256 * size) == 0 && size * s.e 0 == d.e 0
      && (s.kind == 0 || s.viewArg == ring) && (d.kind == 0 || d.viewArg == ring) && !reachMeets d.own s.own
  else false

/-- The contribute in force (R475). -/
def Work.collContribute (w : Work) (x : Flight) (own : Bool) : Bool :=
  if !(w.part x.part).dropGate then collContrib x.cmd
  else if isAmax x.cmd then collContrib x.cmd && !bit (w.part x.part).dropped (x.shift.toNat % 4)
  else if isAll x.cmd || isScatter x.cmd then own
  else collContrib x.cmd

/-- The bytes of a descriptor's own elements. -/
def DescImg.range (d : DescImg) : Nat × Nat :=
  let r := reachOf d.own
  (r.1.toNat, (r.2 - r.1 + 1).toNat)

/-- What a collective reads at issue: its ring's roster, and a bucket's agreement record (R396, R406). -/
def collIssueReads (w : Work) (x : Flight) : URes :=
  let u := w.rosterReads x.part [collRing x.cmd]
  if isAll x.cmd || isScatter x.cmd then
    let r := (w.img x.part (collAgr x.cmd)).range
    let bad := w.eccAt r.1 r.2
    u.and { bad := (bad.map (·.2)).getD 0, ecc := bad.map (fun _ => r), reads := if bad.isNone then [r] else [] }
  else u

/-- Step 7 (R406): the code, what is kept of the record, and the contribute in force. -/
def Work.collAgree (w : Work) (x : Flight) (r : RingRec) (v : View) : Nat × List Nat × Bool :=
  if isAll x.cmd || isScatter x.cmd then
    let d := w.img x.part (collAgr x.cmd)
    let l := (w.img x.part (collSrc x.cmd)).e 0
    let cap := w.agrCap d l
    let own := memberBit cap r.size v.lr v.rank
    let c := w.collContribute x own
    match w.readCode x.part d.range.1 d.range.2 with
    | 0 => (codeUnless (w.agrNum d 15 1 == 1 && w.agrNum d 0 4 == l && w.agrNum d 4 1 == collRing x.cmd
        && w.agrNum d 8 4 == x.shift.toNat && w.agrNum d 12 2 == collBucketOf x.cmd
        && (agrRank (nth cap 0) r.size v.lr v.rank).isSome && own == c) 0x0624, cap, c)
    | code => (code, cap, c)
  else (0, [], w.collContribute x false)

/-- The checks at issue from step 2 on: the code, what the command keeps, its contribute. -/
def collIssue (w : Work) (x : Flight) : Nat × List Nat × Bool :=
  let cmd := x.cmd
  let p := x.part
  let ring := collRing cmd
  match w.struct.plan.ringRec p ring with
  | none => (0x0620, [], false)
  | some r =>
    let uses := if isAmax cmd then [w.descCode p (collSrc cmd) [0, 1] true false, w.descCode p (collAgr cmd) [0, 1] true true]
      else if isGather cmd || isKv cmd then
        [w.descCode p (collSrc cmd) [0, 1] true false, w.descCode p (collDst cmd) [0, 1] false true]
      else [w.descCode p (collSrc cmd) [0, 1] true false, w.descCode p (collDst cmd) [0, 1] false true,
        w.descCode p (collAgr cmd) [0, 1] true true]
    let node := (w.rosterNode p ring).take r.size
    let code := firstCode ([w.ringCode p ring,
      codeUnless (collPhase cmd == 0xFF || (w.phaseOff p ring (collPhase cmd)).isSome) 0x0621]
      ++ uses ++ [w.rostersCode p ((collDescs cmd).filter (fun i => decide ((w.img p i).kind = 1))),
        (w.rosterReads p [ring]).bad, codeUnless (w.rosterOk p ring && (!isRecovery cmd || decide (biggestNode node ≤ 8))) 0x0623,
        codeUnless (w.collShape x r.size r.rank) 0x0622])
    if code ≠ 0 then (code, [], false) else w.collAgree x r (w.viewNow p ring)

/-! ## Wire arithmetic (R402, R407) -/

/-- `local_exp`. -/
def localExp (l : List Nat) : Nat :=
  if l.any (fun v => isNan v || isInf v) then 0xFF
  else
    let es := l.filterMap (fun v => match decode v 0 with
      | .fin _ m e => if m = 0 then none else some (e + (bitLength m : Int) - 1)
      | _ => none)
    match es with
    | [] => 0
    | e :: t => (max 1 (t.foldl max e + 127)).toNat

def emaxW (fmt : Nat) : Int := if fmt = 3 then 8 else 15
/-- `wire_scale`. -/
def wireScale (x n fmt : Nat) : Nat :=
  if x = 0 ∨ x = 0xFF then x
  else (max 0 (min 254 ((x : Int) + ceilLog2 n + 1 - emaxW fmt))).toNat
/-- `wire_code`: the code and whether it saturates. -/
def wireCode (v wsc fmt : Nat) : Nat × Nat :=
  if wsc = 0xFF then (qnan fmt, 0)
  else match decode v 0 with
    | .fin s m e =>
      if m = 0 then (128 * s, 0)
      else
        let r := roundSig m 1 (e - ((wsc : Int) - 127)) fmt
        if exceeds fmt r.1 r.2 then (128 * s + maxCode fmt, 1) else (encodeNum fmt s r.1 r.2, 0)
    | _ => narrow v fmt none
/-- `wire_value`. -/
def wireValue (code wsc fmt : Nat) : Nat :=
  match decode code fmt wsc with
  | .nan => NAN32
  | .inf s => s * 2 ^ 31 + 0x7F800000
  | .fin s m e => roundFp32 s m 1 e

/-- `tree_sum` (R417); the first argument bounds the rounds. -/
def treePairs : List Nat → List Nat
  | a :: b :: t => fpAdd a b :: treePairs t
  | l => l
def treeSum : Nat → List Nat → Nat
  | 0, l => l.headD 0
  | n + 1, l => match l with
    | [a] => a
    | _ => treeSum n (treePairs l)

/-! ## What a command exchanges -/

/-- Elements exchanged: bytes of V, elements of the bucket. -/
def Blk.collTotal (b : Blk) (x : Flight) : Nat :=
  let s := b.img x.part (collSrc x.cmd)
  if isAmax x.cmd then 32 + s.e 0 / 32
  else if isGather x.cmd then (b.img x.part (collDst x.cmd)).e 0 else s.e 0
def collUnit (cmd : Nat) : Nat := if isAmax cmd then 1 else 256
/-- Bounds of chunk `j`. -/
def Blk.chunk (b : Blk) (x : Flight) (j : Nat) : Nat × Nat :=
  let f := chunkLo (collUnit x.cmd) (b.collTotal x) x.coll.n
  (f j, f (j + 1))
/-- The chunk that holds an element. -/
def Blk.chunkAt (b : Blk) (x : Flight) (e : Nat) : Option Nat :=
  (List.range x.coll.n).find? (fun j => decide ((b.chunk x j).1 ≤ e) && decide (e < (b.chunk x j).2))

/-- Elements that one flit carries. -/
def collPer (cmd : Nat) (dst : DescImg) : Nat :=
  if isGather cmd then
    if dst.mx then 224 / (1 + 4 * elemBits dst.fmt) * 32 else 224 / (elemBits dst.fmt / 8)
  else if isRecovery cmd then 56 else 224
/-- Elements of a packed run as bytes: each block's scale, then its codes (log entry 31). -/
def packBlocks (b : Nat) : Nat → List Nat → List Nat
  | 0, _ => []
  | n + 1, l =>
    if l.isEmpty then []
    else
      let k := l.take 32
      (nth k 0 / 2 ^ 32) :: leBytes (4 * b) ((k.zipIdx.map (fun e => e.1 % 2 ^ 32 * 2 ^ (b * e.2))).sum) ++ packBlocks b n (l.drop 32)
def unpackBlocks (b : Nat) : Nat → List Nat → List Nat
  | 0, _ => []
  | n + 1, l =>
    if l.isEmpty then []
    else
      let v := leNat ((l.drop 1).take (4 * b))
      (List.range 32).map (fun i => v / 2 ^ (b * i) % 2 ^ b + 2 ^ 32 * nth l 0) ++ unpackBlocks b n (l.drop (1 + 4 * b))
/-- Payload bytes of elements. -/
def collData (cmd : Nat) (dst : DescImg) (vals : List Nat) : List Nat :=
  if isGather cmd then
    if dst.mx then packBlocks (elemBits dst.fmt) vals.length vals
    else vals.flatMap (fun v => leBytes (elemBits dst.fmt / 8) v)
  else if isRecovery cmd then vals.flatMap (leBytes 4) else vals
/-- Elements of payload bytes; none where the length spells no whole number of them. -/
def collVals (cmd : Nat) (dst : DescImg) (data : List Nat) : Option (List Nat) :=
  let size := if isGather cmd then (if dst.mx then 1 + 4 * elemBits dst.fmt else elemBits dst.fmt / 8)
    else if isRecovery cmd then 4 else 1
  if data.length % size ≠ 0 ∨ data.length > 224 then none
  else if isGather cmd && dst.mx then some (unpackBlocks (elemBits dst.fmt) data.length data)
  else some ((List.range (data.length / size)).map (fun i => leAt data (size * i) size))
/-- Cut elements into flits. -/
def cutVals (per off : Nat) (vals : List Nat) : List (Nat × List Nat) :=
  (pieces vals.length per vals).zipIdx.map (fun e => (off + per * e.2, e.1))

/-- Exponent byte of an element's block. -/
def Flight.expAt (x : Flight) (e : Nat) : Nat := nth x.cap (34 + e / 32)
/-- Wire scale of an element. -/
def Flight.scaleAt (x : Flight) (e : Nat) : Nat := wireScale (x.expAt e) (nth x.cap 0) (nth x.cap 1)

/-- The code that starts an element round the ring: this member's own, or +0 (R407). -/
def Flight.startCode (x : Flight) (e : Nat) : Nat × Nat :=
  if isAmax x.cmd || isGather x.cmd then (nth x.coll.vec e, 0) else wireCode (nth x.coll.vec e) (x.scaleAt e) (nth x.cap 1)
/-- What a member makes of a received reduce code. -/
def Flight.mixCode (x : Flight) (e code : Nat) : Nat × Nat :=
  if isAmax x.cmd then (if e < 32 then Nat.lor code (nth x.coll.vec e) else max code (nth x.coll.vec e), 0)
  else wireCode (fpAdd (wireValue code (x.scaleAt e) (nth x.cap 1)) (nth x.coll.vec e)) (x.scaleAt e) (nth x.cap 1)
/-- The value that a final code stands for. -/
def Flight.finalOf (x : Flight) (e code : Nat) : Nat :=
  if isAmax x.cmd || isGather x.cmd || isRecovery x.cmd then code else wireValue code (x.scaleAt e) (nth x.cap 1)

/-! ## Commit and completion (R403, R410, R411) -/

/-- Results known for elements from `lo` to `hi`. -/
def finIn (x : Flight) (lo hi : Nat) : List (Nat × Nat) :=
  (x.coll.fin.flatMap (fun f => f.2.zipIdx.map (fun e => (f.1 + e.2, e.1)))).filter (fun e => decide (lo ≤ e.1) && decide (e.1 < hi))
def finFull (x : Flight) (c : Nat × Nat) : Bool := decide ((finIn x c.1 c.2).length ≥ c.2 - c.1)

/-- Members of the ring a bucket runs on that contribute (R408). -/
def Flight.contributors (x : Flight) (size : Nat) : Nat :=
  ((List.range x.coll.n).filter (memberBit x.cap size x.coll.lr)).length
/-- The primary ring's size. -/
def Blk.ringSize (b : Blk) (p ring : Nat) : Nat := ((b.struct.plan.ringRec p ring).map (·.size)).getD 0

/-- The writes of results from `lo` to `hi` (R407 to R409); SCATTER's go to the start of its own shard. -/
def resultUnit (w : Work) (x : Flight) (lo hi : Nat) : URes :=
  if isAmax x.cmd then
    let a := w.img x.part (collAgr x.cmd)
    let l := (w.img x.part (collSrc x.cmd)).e 0
    let head := leBytes 4 l ++ [collRing x.cmd, amaxWire x.cmd] ++ leBytes 2 x.coll.n ++ leBytes 4 x.shift.toNat
      ++ leBytes 2 (collBucketOf x.cmd) ++ [0]
    { wr := agrWops a 0 head ++ (finIn x lo hi).flatMap (fun e => agrWops a (32 + e.1) [e.2]) ++ agrWops a 15 [1] }
  else
    let d := (w.img x.part (collDst x.cmd)).own
    let base := if isScatter x.cmd then lo else 0
    let n := x.contributors (w.ringSize x.part (collRing x.cmd))
    let val := fun v => if isGather x.cmd ∨ !bucketAvg x.cmd then v else if n = 0 then 0 else fpDiv v (fpOfInt n)
    (finIn x lo hi).foldl (fun (u : URes) e =>
      let v := val e.2
      u.and (writeRef w x d (resolve w x d [((e.1 - base : Nat) : Int)]) (v % 2 ^ 32)
        (if d.mx then some (v / 2 ^ 32) else none))) {}

/-- What a fault may have left above the watermark (R124): the results not yet committed. -/
def unitsAbove (w : Work) (x : Flight) : List URes :=
  x.coll.fin.map (fun f =>
    if isAmax x.cmd then { wr := (f.2.zipIdx.flatMap (fun e => agrWops (w.img x.part (collAgr x.cmd)) (32 + f.1 + e.2) [e.1])) }
    else if isKv x.cmd then
      { wr := f.2.zipIdx.map (fun e => ⟨none, 8 * ((reachOf (w.img x.part (collDst x.cmd)).own).1.toNat + f.1 + e.2), 8, e.1⟩) }
    else resultUnit w x f.1 (f.1 + f.2.length))

/-- A collective command faults: its queued flits go with it. AMAX_ROUND's watermark is 0 at a fault (R403). -/
def Work.collFault (w : Work) (x : Flight) (code : Nat) : Work :=
  let w := (w.modRing x.part (collRing x.cmd) fun r => { r with txq := r.txq.filter (fun o => o.owner ≠ x.id) }).dropHeld
    fun f => f.coll.any (fun c => c.2 == x.id)
  let above := if x.coll.complete then [] else unitsAbove w x
  let k := w.fresh
  let w := k.2.tornWops k.1 (above.flatMap (·.wr))
  (w.faultFlight x code (if isAmax x.cmd then 0 else x.wm)).dropTxns x.id

/-- A complete member handles a close (R410). -/
def Work.closeAt (w : Work) (x : Flight) (count : Nat) : Work :=
  if count + 1 ≥ x.coll.n then w.modFlight x.id fun y => { y with phase := .done }
  else w.sendDown x (w.viewOf x) 3 0 (leBytes 2 (count + 1))

/-- A member becomes complete: its own close, then those that waited. -/
def Work.collComplete (w : Work) (x : Flight) : Work :=
  let w := w.modFlight x.id fun y => { y with coll := { y.coll with complete := true } }
  if x.coll.n ≤ 1 then w.modFlight x.id fun y => { y with phase := .done }
  else (w.closeAt x 0).each x.coll.closes fun w c => w.closeAt x c

/-- Chunks in commit order (R411). -/
def commitOrder (n rank : Nat) : List Nat := (List.range n).map (fun i => (rank + n - i) % n)
/-- The leading entries of a list that meet a condition. -/
def leading {α : Type} (f : α → Bool) : List α → List α
  | [] => []
  | a :: t => if f a then a :: leading f t else []

/-- Commit what has become final. -/
def Work.collCommit (w : Work) (id : Nat) : Work :=
  match w.flight? id with
  | none => w
  | some x =>
    if x.coll.complete then w
    else if isAll x.cmd then
      let full := leading (fun j => finFull x (w.chunk x j)) (commitOrder x.coll.n x.coll.rank)
      let w := w.each (full.drop x.wm) fun w j => w.commitUnit x false 0 (resultUnit w x (w.chunk x j).1 (w.chunk x j).2)
      let w := w.modFlight id fun y => { y with wm := max y.wm full.length }
      if full.length ≥ x.coll.n then w.collComplete x else w
    else
      let c := if isScatter x.cmd then w.chunk x x.coll.rank else (0, w.collTotal x)
      if finFull x c then
        let w := w.commitUnit x false 0 (resultUnit w x c.1 c.2)
        let w := w.modFlight id fun y => { y with wm := 1 }
        w.collComplete x
      else w

/-! ## Start -/

/-- Record results. -/
def Work.addFin (w : Work) (id off : Nat) (vals : List Nat) : Work :=
  w.modFlight id fun y => { y with coll := { y.coll with fin := y.coll.fin ++ [(off, vals)] } }
/-- Codes of a run of elements, with the saturations counted (R407). -/
def Work.satCount (w : Work) (l : List (Nat × Nat)) : Work := w.devCtr 0x0810 ((l.map (·.2)).sum)

/-- Ranks of a node, ascending; the root of a node; the nodes, ascending (R417). -/
def nodeRanks (v : View) (nd : Nat) : List Nat := (List.range v.n).filter (fun r => nth v.node r == nd)
def nodesOf (v : View) : List Nat :=
  (v.node.eraseDups.foldl (fun acc a => (acc.filter (· < a)) ++ [a] ++ acc.filter (· > a)) [])
def rootOf (v : View) (nd : Nat) : Nat := (nodeRanks v nd).headD 0
def topRoot (v : View) : Nat := rootOf v ((nodesOf v).headD 0)

/-- A recovery root adds what it has for the elements at `off`, if all is there, and passes it on (R417, R560). -/
def Work.recoverTry (w : Work) (id off len : Nat) : Work :=
  match w.flight? id with
  | none => w
  | some x =>
    let v := w.viewOf x
    let me := v.rank
    let nd := nth v.node me
    if rootOf v nd ≠ me then w
    else
      let from_ := fun r => if r = me then some ((x.coll.vec.drop off).take len)
        else ((x.coll.rx.find? (fun e => e.1 = r ∧ e.2.1 = off)).map (·.2.2))
      let col := fun (ls : List (List Nat)) i => ls.map (fun l => nth l i)
      let mine := (nodeRanks v nd).map from_
      let d := w.img x.part (collDst x.cmd)
      if mine.any (·.isNone) then w
      else
        let sums := (List.range len).map (fun i => treeSum 8 (col (mine.filterMap (fun o => o)) i))
        if topRoot v ≠ me then w.sendRank x v (topRoot v) 0 off (collData x.cmd d sums)
        else
          let others := ((nodesOf v).drop 1).map (fun n => from_ (rootOf v n))
          if others.any (·.isNone) then w
          else
            let tot := (others.filterMap (fun o => o)).foldl (fun acc l => (acc.zip l).map (fun e => fpAdd e.1 e.2)) sums
            let w := w.addFin id off tot
            let tos := ((nodeRanks v nd).filter (· ≠ me)) ++ ((nodesOf v).drop 1).map (rootOf v)
            w.each tos fun w r => w.sendRank x v r 1 off (collData x.cmd d tot)

/-- The blocks of a KV_PASS: runs of bytes of dst's reach with the values of src (R419, R420). -/
def kvRuns (w : Work) (x : Flight) : List (Nat × List Nat) × URes :=
  let s := (w.img x.part (collSrc x.cmd)).own
  let d := (w.img x.part (collDst x.cmd)).own
  let base := (reachOf d).1.toNat
  let cs := (List.range d.count).map (coordsOf d)
  let r := readMany w x s (cs.map (·.map Int.ofNat))
  let ws := (cs.zip r.1).flatMap (fun e =>
    let a := elementAddress d d.base e.1
    (⟨some 0, a.1.toNat - 8 * base, elemBits d.fmt, e.2.1⟩ : Wop) ::
      (match a.2 with | some sc => [⟨some 0, 8 * (sc.toNat - base), 8, e.2.2⟩] | none => []))
  (runsOf ((remoteBytes w.dev.nextTxn ws []).foldl (fun acc e => insBy e acc) []), r.2)

/-- Send the block once it may go (R399, R420). -/
def Work.kvSend (w : Work) (id : Nat) : Work :=
  match w.flight? id with
  | none => w
  | some x =>
    let ring := collRing x.cmd
    if !x.coll.started || !x.coll.ready || x.coll.sentBlock || (w.ring x.part ring).quiet then w
    else
      let v := w.viewOf x
      let k := kvRuns w x
      if k.2.bad ≠ 0 then (w.readingTo x.part k.2.reads k.2.ecc).collFault x k.2.bad
      else
        let fl := k.1.flatMap (fun r => flitsOf (r.2.length / 224 + 1) r.1 r.2)
        let dest := v.kvTo (kvReverse x.cmd)
        let pos := nth v.pos dest.2
        let w := (w.reading x.part k.2.reads).kvTxn x 0 pos
        let w := w.each fl.zipIdx fun w f => w.ringSend x.part ring
          { stage := 4, last := f.2 + 1 == fl.length, ports := some dest.1, dst := pos, txn := x.coll.ringSeq,
            off := f.1.1, data := f.1.2, owner := x.id, back := kvReverse x.cmd }
        w.modFlight id fun y => { y with coll := { y.coll with sentBlock := true }
                                         phase := if y.coll.complete then .done else y.phase }

/-- The member's own values: AMAX_ROUND's V, a bucket's contribution as FP32 or zeros, GATHER's chunk. -/
def collOwn (w : Work) (x : Flight) (v : View) : List Nat × URes :=
  let s := (w.img x.part (collSrc x.cmd)).own
  let l := s.e 0
  let rd := readMany w x s ((List.range l).map (fun (i : Nat) => [(i : Int)]))
  if isGather x.cmd then (rd.1.map (fun e => if s.mx then e.1 + 2 ^ 32 * e.2 else e.1), rd.2)
  else if isAmax x.cmd then
    let head := (List.range 32).map (fun i => if x.contribute ∧ v.rank / 8 = i then 2 ^ (v.rank % 8) else 0)
    if x.contribute then
      (head ++ (pieces l 32 (rd.1.map (fun e => toFp32 e.1 s.fmt))).map localExp, rd.2)
    else (head ++ List.replicate (l / 32) 0, {})
  else if x.contribute then (rd.1.map (fun e => toFp32 e.1 s.fmt), rd.2)
  else (List.replicate l 0, {})

/-- A command starts (R399, R402, R404, R409, R417). -/
def Work.collStart (w : Work) (x : Flight) : Work :=
  let v := w.viewOf x
  if isKv x.cmd then
    (w.modFlight x.id fun y => { y with coll := { y.coll with started := true, n := v.n, rank := v.rank, lr := v.lr } }).kvSend x.id
  else
    let own := collOwn w x v
    if own.2.bad ≠ 0 then (w.readingTo x.part own.2.reads own.2.ecc).collFault x own.2.bad
    else
      let shard := isGather x.cmd
      let c : Coll := { x.coll with started := true, bypass := v.lr.isSome, n := v.n, rank := v.rank, lr := v.lr, vec := own.1 }
      let y := { x with coll := c }
      let w := (w.reading x.part own.2.reads).modFlight x.id fun _ => y
      let d := w.img x.part (collDst x.cmd)
      let per := collPer x.cmd d
      let w :=
        if isRecovery x.cmd then
          let me := v.rank
          let rt := rootOf v (nth v.node me)
          w.each (cutVals per 0 own.1) fun w f =>
            if rt = me then w.recoverTry x.id f.1 f.2.length else w.sendRank y v rt 0 f.1 (collData x.cmd d f.2)
        else
          let j := if shard ∨ v.n ≤ 1 then v.rank else (v.rank + v.n - 1) % v.n
          let b := w.chunk y j
          let es := (List.range (b.2 - b.1)).map (b.1 + ·)
          let codes := es.map (fun e => if shard then (nth own.1 (e - b.1), 0) else y.startCode e)
          let w := w.satCount codes
          let w := if shard ∨ v.n ≤ 1 then
              w.addFin x.id b.1 ((es.zip codes).map (fun e => y.finalOf e.1 e.2.1)) else w
          if v.n ≤ 1 then w
          else w.each (cutVals per b.1 (codes.map (·.1))) fun w f =>
            w.sendDown y v (if isAmax x.cmd then 2 else if shard then 1 else 0) f.1 (collData x.cmd d f.2)
      w.collCommit x.id

/-- The event of a ring's phase has acted on this tick (R53). -/
def Blk.phaseActed (b : Blk) (p ring phase : Nat) : Bool :=
  b.dev.firedAt == b.now && b.struct.plan.bell.zipIdx.any (fun e => e.1.kind == 2 && e.1.part == p && e.1.arg0 == ring
    && e.1.arg1 == phase && decide (e.2 ∈ b.dev.fired))
/-- A command may start: its ring is live, and its phase has come (R399), on the phase's own tick once its event has had its
turn (R53); on a bypass ring phases do not gate. -/
def Blk.collMay (b : Blk) (x : Flight) : Bool :=
  let r := b.ring x.part (collRing x.cmd)
  !r.quiet && (collPhase x.cmd == 0xFF || r.onBypass
    || (b.bell.st.counts && (match b.phaseTick x with
      | some t => decide (b.now > t) || (b.now == t && b.phaseActed x.part (collRing x.cmd) (collPhase x.cmd))
      | none => false)))

/-! ## Flits received (R398) -/

/-- A flit waits in its channel-1 buffer. -/
def Work.holdIn (w : Work) (c : CollIn) : Work := { w with collIn := w.collIn ++ [c] }
/-- A number that has been used up: the command it named has ended. -/
def Blk.collPast (b : Blk) (p ring seq : Nat) : Bool :=
  let k := ((b.ring p ring).nextSeq + 2 ^ 24 - seq % 2 ^ 24) % 2 ^ 24
  decide (1 ≤ k) && decide (k < 2 ^ 23)

/-- A received reduce run. -/
def Work.takeReduce (w : Work) (x : Flight) (v : View) (j off : Nat) (vals : List Nat) : Work :=
  let d := w.img x.part (collDst x.cmd)
  let codes := vals.zipIdx.map (fun e => x.mixCode (off + e.2) e.1)
  let w := w.satCount codes
  let out := collData x.cmd d (codes.map (·.1))
  if j = v.rank then
    let w := w.addFin x.id off (codes.zipIdx.map (fun e => x.finalOf (off + e.2) e.1.1))
    if isScatter x.cmd then w else w.sendDown x v (if isAmax x.cmd then 2 else 1) off out
  else w.sendDown x v (if isAmax x.cmd then 2 else 0) off out

/-- A received gather run: kept, and passed on unless the next member is where it began. -/
def Work.takeGather (w : Work) (x : Flight) (v : View) (j off : Nat) (vals data : List Nat) : Work :=
  let w := w.addFin x.id off (vals.zipIdx.map (fun e => x.finalOf (off + e.2) e.1))
  if (v.rank + 1) % v.n = j then w else w.sendDown x v (if isAmax x.cmd then 2 else 1) off data

/-- The pass that a ring flit belongs to: reduce or gather; none where the command expects neither (R398). -/
def passOf (x : Flight) (rank j stage off : Nat) : Option Bool :=
  let n := x.coll.n
  let first := decide (n > 1) && j != (rank + n - 1) % n
  if isAmax x.cmd then
    if stage ≠ 2 then none
    else if j = rank then some false
    else if first ∧ Tab.get 0 x.coll.got (2 * off) = 0 then some false else some true
  else if stage = 0 then (if isGather x.cmd ∨ !first then none else some false)
  else if stage = 1 then (if isScatter x.cmd ∨ j = rank then none else some true)
  else none

/-- A recovery flit (R417). -/
def Work.takeRecovery (w : Work) (x : Flight) (fl : CollFlit) (vals : List Nat) : Work :=
  let v := w.viewOf x
  let from_ := v.pos.findIdx (· == fl.src)
  let nd := nth v.node v.rank
  let root := rootOf v nd
  let top := topRoot v
  if fl.stage = 0 then
    let ok := root == v.rank && decide (from_ < v.n) && from_ != v.rank
      && (nth v.node from_ == nd || (top == v.rank && rootOf v (nth v.node from_) == from_))
      && !(x.coll.rx.any (fun e => e.1 == from_ && e.2.1 == fl.off))
    if !ok then w.collFault x 0x0627
    else (w.modFlight x.id fun y => { y with coll := { y.coll with rx := y.coll.rx ++ [(from_, fl.off, vals)] } }).recoverTry
      x.id fl.off vals.length
  else if fl.stage = 1 then
    if top = v.rank ∨ x.coll.fin.any (fun f => f.1 = fl.off) then w.collFault x 0x0627
    else
      let w := w.addFin x.id fl.off vals
      if root = v.rank then
        w.each ((nodeRanks v nd).filter (· ≠ v.rank)) fun w r => w.sendRank x v r 1 fl.off fl.data
      else w
  else w.collFault x 0x0627

/-- KV data that came in by port `n`: written when all of it has come (R420). -/
def Work.takeKv (w : Work) (n : Nat) (x : Flight) (fl : CollFlit) : Work :=
  let d := (w.img x.part (collDst x.cmd)).own
  let r := reachOf d
  if fl.stage ≠ 4 ∨ fl.off + fl.data.length > (r.2 - r.1 + 1).toNat ∨ fl.data.length > 224 then w.collFault x 0x0627
  else
    let w := w.modFlight x.id fun y => { y with coll := { y.coll with
      fin := y.coll.fin ++ [(fl.off, fl.data)], gotLast := y.coll.gotLast || fl.last } }
    match w.flight? x.id with
    | none => w
    | some y =>
      let all := ((List.range d.count).flatMap (fun i =>
        let a := elementAddress d d.base (coordsOf d i)
        let sp := bitSpan a.1.toNat (elemBits d.fmt)
        (List.range sp.2).map (sp.1 + ·) ++ (a.2.map Int.toNat).toList)).eraseDups.length
      if y.coll.gotLast ∧ ((y.coll.fin.map (·.2.length)).sum ≥ all) then
        let wr : List Wop := y.coll.fin.flatMap (fun f => f.2.zipIdx.map (fun e => ⟨none, 8 * (r.1.toNat + f.1 + e.2), 8, e.1⟩))
        let w := w.commitUnit y false 0 { wr := wr }
        let w := w.modFlight x.id fun y => { y with wm := 1
                                                    phase := if y.coll.sentBlock then .done else y.phase
                                                    coll := { y.coll with complete := true, fin := [] } }
        w.ctlBy n 4 fl.src fl.part fl.seq []
      else w

/-- A collective flit for an open command that can take it now. -/
def Work.takeColl (w : Work) (n : Nat) (x : Flight) (fl : CollFlit) : Work :=
  if isKv x.cmd then w.takeKv n x fl
  else
    let v := w.viewOf x
    match collVals x.cmd (w.img x.part (collDst x.cmd)) fl.data with
    | none => w.collFault x 0x0627
    | some vals =>
      if isRecovery x.cmd then
        if fl.off + vals.length > w.collTotal x ∨ fl.off % 56 ≠ 0 then w.collFault x 0x0627
        else (w.takeRecovery x fl vals).collCommit x.id
      else match w.chunkAt x fl.off with
        | none => w.collFault x 0x0627
        | some j =>
          if fl.off + vals.length > (w.chunk x j).2 then w.collFault x 0x0627
          else match passOf x v.rank j fl.stage fl.off with
            | none => w.collFault x 0x0627
            | some g =>
              let key := 2 * fl.off + b2n g
              if Tab.get 0 x.coll.got key ≠ 0 ∨ vals.isEmpty then w.collFault x 0x0627
              else
                let w := w.modFlight x.id fun y => { y with coll := { y.coll with got := y.coll.got.set 0 key vals.length } }
                let w := if g then w.takeGather x v j fl.off vals fl.data else w.takeReduce x v j fl.off vals
                w.collCommit x.id

/-- The port that a waiting flit came in by. -/
def CollIn.port : CollIn → Nat
  | .data n _ | .close n .. | .ready n .. | .resolve n .. => n
/-- A flit that holds no buffer of its port any more. -/
def CollIn.free : CollIn → CollIn
  | .data _ fl => .data Config.nPorts fl
  | .close _ p r s k => .close Config.nPorts p r s k
  | .ready _ src p r s k => .ready Config.nPorts src p r s k
  | .resolve _ p r a q => .resolve Config.nPorts p r a q
/-- Whether a waiting flit belongs to a ring. -/
def CollIn.ofRing (p r : Nat) : CollIn → Bool
  | .data _ fl => fl.part == p && fl.ring == r
  | .close _ q s _ _ | .ready _ _ q s _ _ | .resolve _ q s _ _ => q == p && s == r
/-- Whether a waiting flit is a resolve flit. -/
def CollIn.isResolve : CollIn → Bool
  | .resolve .. => true
  | _ => false
/-- The ring sequence number that a waiting flit names; none for a resolve flit. -/
def CollIn.seq? : CollIn → Option Nat
  | .data _ fl => some fl.seq
  | .close _ _ _ s _ | .ready _ _ _ _ s _ => some s
  | .resolve .. => none
/-- Waiting flits that meet a condition are discarded, and their buffers are free. -/
def Work.dropIn (w : Work) (c : CollIn → Bool) : Work :=
  ({ w with collIn := w.collIn.filter (fun x => !c x) } : Work).each (w.collIn.filter c) fun w x => w.owe x.port 1 1

/-- A command has received a flit (R422). -/
def Work.collHeard (w : Work) (id : Nat) : Work :=
  w.modFlight id fun y => { y with coll := { y.coll with lastIo := w.clk.span } }
/-- The flits of a ring go unheard: its partition is not defined or under reset. -/
def Blk.collShut (b : Blk) (p : Nat) : Bool := !b.struct.plan.defines p || (b.part p).resetting
/-- A collective flit by port `n` that is refused (R131, R371). -/
def Work.collRefuse (w : Work) (n src p txn : Nat) : Work := (w.owe n 1 1).refuse n src p txn (w.part p).resetting

/-- A collective flit arrives by port `n` (R398): it joins its open command, or waits in its buffer until that issues. One that
comes before its command has started has joined it, and is looked at when it starts (log entry 39). One that the command cannot
take any more does not fit it. -/
def Work.collFlit (w : Work) (n : Nat) (fl : CollFlit) : Work :=
  let r := w.ring fl.part fl.ring
  if w.collShut fl.part then w.collRefuse n fl.src fl.part fl.seq
  else if r.dead != 0 then w.owe n 1 1
  else match w.collOf fl.part fl.ring fl.seq with
    | some x =>
      let w := w.collHeard x.id
      if r.resolving || (!isKv x.cmd && !x.coll.started) then (w.owe n 1 1).holdIn (.data Config.nPorts fl)
      else if x.phase == .done then (w.owe n 1 1).collFault x 0x0627
      else (w.owe n 1 1).takeColl n x fl
    | none => if w.collPast fl.part fl.ring fl.seq then w.owe n 1 1 else w.holdIn (.data n fl)

/-- A close flit arrives (R410). Its source, as that of a ready flit, is the far end of the port. A complete member that has
kept its close forwards the closes that come after it. -/
def Work.closeFlit (w : Work) (n p ring seq count : Nat) : Work :=
  let r := w.ring p ring
  if w.collShut p then w.collRefuse n (w.port n).peerPos p seq
  else if r.dead ≠ 0 then w.owe n 1 1
  else match w.collOf p ring seq with
    | some x =>
      let w := w.collHeard x.id
      let w := w.owe n 1 1
      if r.resolving then w.holdIn (.close Config.nPorts p ring seq count)
      else
        if isKv x.cmd || (x.phase == .done && decide (count + 1 ≥ x.coll.n)) then w.collFault x 0x0627
        else if x.coll.complete then w.closeAt x count
        else w.modFlight x.id fun y => { y with coll := { y.coll with closes := y.coll.closes ++ [count] } }
    | none => if w.collPast p ring seq then w.owe n 1 1 else w.holdIn (.close n p ring seq count)

/-- A ready flit arrives from position `src` (R420): it fits when it comes from the member that the command sends to, and is
acknowledged. -/
def Work.readyFlit (w : Work) (n src p ring seq step : Nat) : Work :=
  let r := w.ring p ring
  if w.collShut p then w.collRefuse n src p seq
  else if r.dead ≠ 0 then w.owe n 1 1
  else match w.collOf p ring seq with
    | some x =>
      let w := (w.collHeard x.id).owe n 1 1
      let v := w.viewOf x
      if !isKv x.cmd || kvStep x.cmd != step || x.coll.ready || src != nth v.pos (v.kvTo (kvReverse x.cmd)).2 then
        w.collFault x 0x0627
      else ((w.ctlBy n 4 src p seq []).modFlight x.id fun y => { y with coll := { y.coll with ready := true } }).kvSend x.id
    | none => if w.collPast p ring seq then w.owe n 1 1 else w.holdIn (.ready n src p ring seq step)

/-- Whether a waiting flit belongs to a command. -/
def CollIn.isFor (x : Flight) (c : CollIn) : Bool :=
  c.ofRing x.part (collRing x.cmd) && c.seq?.any (fun s => s % 2 ^ 24 == x.coll.ringSeq % 2 ^ 24)

/-- The flits that waited for a command are taken from their buffers. -/
def Work.drainIn (w : Work) (x : Flight) : Work :=
  let l := w.collIn.filter (CollIn.isFor x)
  ({ w with collIn := w.collIn.filter (fun c => !CollIn.isFor x c) } : Work).each l fun w c => match c with
    | .data n fl => w.collFlit n fl
    | .close n p r s k => w.closeFlit n p r s k
    | .ready n src p r s k => w.readyFlit n src p r s k
    | .resolve .. => w

/-- The flits that waited for a command join it as it issues: their buffers are free (R398). -/
def Work.joinIn (w : Work) (x : Flight) : Work :=
  let l := w.collIn.filter (CollIn.isFor x)
  ({ w with collIn := w.collIn.map (fun c => if CollIn.isFor x c then c.free else c) } : Work).each l fun w c => w.owe c.port 1 1

/-- Start a command on a collective unit, if it may, and take what waited for it. -/
def Work.collGo (w : Work) (x : Flight) : Work :=
  if x.coll.started || !w.collMay x then w else (w.collStart x).drainIn x

/-! ## Rings that lose a member (R414 to R416) -/

/-- Fault the open commands of a ring. -/
def Work.faultRing (w : Work) (p ring code : Nat) : Work :=
  let w := (w.modRing p ring fun r => { r with dead := code, txq := [] }).quietHeld p ring
  w.each (w.openColl p ring) fun w x => w.collFault x code

/-- Position `l` has been declared lost: a ring whose roster holds it is broken. -/
def Work.breakRing (w : Work) (p ring l : Nat) : Work :=
  match w.struct.plan.ringRec p ring with
  | none => w
  | some r =>
    let rg := w.ring p ring
    let w := w.rosterMet p ring
    if r.kind ≠ 0 ∨ !(w.part p).rosterArea.enable ∨ l ∉ w.rosterSeen p ring r.size ∨ rg.dead ≠ 0 then w
    else match rg.lost with
      | some q => if q = l then w else w.faultRing p ring 0x0625
      | none =>
        if !(w.struct.plan.bell.any (fun e => e.kind == 5)) then
          (w.modRing p ring fun r => { r with lost := some l }).faultRing p ring 0x0625
        else (w.modRing p ring fun r => { r with lost := some l, txq := [] }).quietHeld p ring
/-- The same for every ring. -/
def Work.breakRings (w : Work) (l : Nat) : Work :=
  w.each w.struct.plan.rings fun w r => w.breakRing r.part r.ring l
/-- The positions marked lost in FAB_LOST break a ring whose roster names them. -/
def Work.breakByRoster (w : Work) (p ring : Nat) : Work :=
  w.each ((List.range 256).filter w.isLost) fun w l => w.breakRing p ring l

/-- A command that a bypass ring runs again (R415). -/
def canRerun (cmd : Nat) : Bool := isAmax cmd || isAll cmd

/-- The lowest open ring sequence number, which is the retired count; and Q (R415). -/
def Blk.ringRetired (b : Blk) (p ring : Nat) : Nat :=
  minOf (b.ring p ring).nextSeq ((b.openColl p ring).map (·.coll.ringSeq))
def qFrom (l : List Flight) : Nat → Nat → Nat
  | 0, q => q
  | n + 1, q => if l.any (fun x => x.coll.ringSeq = q ∧ !isKv x.cmd ∧ x.coll.complete) then qFrom l n (q + 1) else q
def Blk.ringQ (b : Blk) (p ring : Nat) : Nat :=
  let l := b.openColl p ring
  qFrom l l.length (b.ringRetired p ring)

/-- A resolve flit goes on round the bypass ring. -/
def Work.sendResolve (w : Work) (p ring pass q : Nat) : Work :=
  let v := w.viewNow p ring
  w.ringSend p ring { stage := 6, ports := some v.tx, dst := nth v.pos ((v.rank + 1) % v.n), txn := 0,
                      data := [pass] ++ leBytes 4 q, owner := noFlight }

/-- One open command once Qmin is known. -/
def Work.resolveOne (w : Work) (q id : Nat) : Work :=
  match w.flight? id with
  | none => w
  | some x =>
    if x.coll.ringSeq < q then w.modFlight id fun y => { y with phase := .done }
    else if !canRerun x.cmd then w.collFault x 0x0625
    else
      let w := (w.modFlight id fun y => { y with
        wm := 0, phase := (if y.phase = .done then .running y.unit else y.phase),
        coll := { ringSeq := y.coll.ringSeq, lastIo := w.clk.span } }).devCtr 0x0800 1
      match w.flight? id with
      | some y => (match y.phase with | .running _ => w.collGo y | _ => w)
      | none => w

/-- Qmin is known (R415): the flits that waited for a command numbered below it are discarded, those for one that runs again
have come early and wait on. -/
def Work.resolved (w : Work) (p ring q : Nat) : Work :=
  let l := ((w.ring p ring).lost).getD 0
  let w := w.modRing p ring fun r => { r with resolving := false }
  let w := w.modDev fun d => { d with resolveLost := l, resolvePart := p, resolveRing := ring, resolveQ := q % 2 ^ 32 }
  let w := w.dropIn fun c => c.ofRing p ring && c.seq?.any (fun k => w.collPast p ring k
    || (w.collOf p ring k).any (fun x => decide (x.coll.ringSeq < q)))
  w.each ((w.openColl p ring).map (·.id)) fun w id => w.resolveOne q id

/-- A resolve flit arrives (R415). -/
def Work.resolveFlit (w : Work) (n p ring pass q : Nat) : Work :=
  let r := w.ring p ring
  if w.collShut p then w.collRefuse n (w.port n).peerPos p 0
  else if r.lost.isSome ∧ !r.onBypass ∧ r.dead = 0 then w.holdIn (.resolve n p ring pass q)
  else if r.dead ≠ 0 ∨ !r.resolving then w.owe n 1 1
  else
    let w := w.owe n 1 1
    let first := (w.viewNow p ring).rank == 0
    if pass = 1 then
      let m := min q r.qB
      if first then (w.sendResolve p ring 2 m).resolved p ring m else w.sendResolve p ring 1 m
    else if first then w else (w.sendResolve p ring 2 q).resolved p ring q

/-- The boundary B of a broken ring (R414, R415): the flits of the primary ring that wait are of no use any more. -/
def Work.ringBoundary (w : Work) (p ring l : Nat) : Work :=
  match w.struct.plan.ringRec p ring with
  | none => w
  | some r =>
    let lr := ((w.rosterPos p ring).take r.size).findIdx (· == l)
    let code := if nextTo r lr then (match w.bypassRec p r lr with
        | none => 0x0625
        | some m => codeUnless (m.rank == bypassRank r lr) 0x0628)
      else 0
    let q := w.ringQ p ring
    let w := w.modRing p ring fun g => { g with onBypass := true, resolving := true, qB := q, txq := [] }
    let w := w.dropIn fun c => c.ofRing p ring && !c.isResolve
    if code ≠ 0 then (w.modRing p ring fun g => { g with resolving := false }).faultRing p ring code
    else if r.size ≤ 2 then w.resolved p ring q
    else
      let held := w.collIn.filter (CollIn.ofRing p ring)
      let w : Work := { w with collIn := w.collIn.filter (fun c => !c.ofRing p ring) }
      let w := if bypassRank r lr = 0 then w.sendResolve p ring 1 q else w
      w.each held fun w c => match c with | .resolve n a b k m => w.resolveFlit n a b k m | _ => w

/-- The rings whose boundary has come, at a RECONFIG_BOUNDARY event of tick `t` (R379); under repair access their rosters are
out of reach (R447, log entry 136). -/
def Work.ringBoundaries (w : Work) (t : Nat) : Work :=
  if w.ms.repairEn then w
  else w.each w.struct.plan.rings fun w r =>
    let g := w.ring r.part r.ring
    match g.lost with
    | some l =>
      if r.kind = 0 ∧ !g.onBypass ∧ g.dead = 0 ∧ t ≥ Tab.get 0 w.fab.tLoss l + 8192 then w.ringBoundary r.part r.ring l else w
    | none => w

/-! ## Issue and retirement -/

/-- What a collective does as it issues (R395 to R399, R420): its number, its roster, its ready flit. -/
def Work.holdColl (w : Work) (x : Flight) : Work :=
  let ring := collRing x.cmd
  let r := w.ring x.part ring
  let late := collPhase x.cmd != 0xFF && (match w.phaseTick x with | some t => decide (w.now > t) | none => false)
  let pos := w.rosterPos x.part ring
  let node := w.rosterNode x.part ring
  let w := w.modRing x.part ring fun r => { r with nextSeq := r.nextSeq + 1 }
  let w := if late then w.devCtr 0x0808 1 else w
  let w := w.modFlight x.id fun y => { y with
    rosters := (y.rosters.filter (fun e => e.1 ≠ ring)) ++ [(ring, pos), (ring + 8, node)],
    coll := { y.coll with ringSeq := r.nextSeq, lastIo := w.clk.span } }
  match w.flight? x.id with
  | none => w
  | some y =>
    if r.dead ≠ 0 then w.collFault y r.dead
    else if r.onBypass ∧ !r.resolving ∧ !canRerun y.cmd then w.collFault y 0x0625
    else if isKv y.cmd then
      let v := w.viewOf y
      let dest := v.kvFrom (kvReverse y.cmd)
      let pos := nth v.pos dest.2
      let w := (w.kvTxn y 1 pos).ringSend y.part ring { stage := 5, ports := some dest.1, dst := pos, txn := y.coll.ringSeq,
                                                        data := leBytes 2 (kvStep y.cmd), owner := y.id, back := !kvReverse y.cmd }
      w.drainIn y
    else w.joinIn y

/-- A collective may retire (R397, R410, R414): its ring is live and every earlier command of it has ended. -/
def Blk.collRetires (b : Blk) (x : Flight) : Bool :=
  let ring := collRing x.cmd
  let r := b.ring x.part ring
  !(r.lost.isSome && (!r.onBypass || r.resolving)) && (b.openColl x.part ring).all (fun y => decide (x.coll.ringSeq ≤ y.coll.ringSeq))

/-- What COLL_BUCKET writes as it retires (R408). -/
def Work.retireColl (w : Work) (x : Flight) : Work :=
  if isAll x.cmd || isScatter x.cmd then
    let a := w.img x.part (collAgr x.cmd)
    w.commitUnit x false 0
      { wr := agrWops a 16 (leBytes 4 (x.contributors (w.ringSize x.part (collRing x.cmd)))
          ++ [collRing x.cmd + (if x.coll.bypass then 128 else 0)]) }
  else w

/-! ## Rows -/

/-- A collective command on a unit of a face. -/
def collRow (f u op : Nat) (s : State) : Host.Outcome State Fault Refusal :=
  runIf (f < Config.nFaces) (fun w => match w.runningOn f u op with
    | some x => w.collGo x
    | none => w) s

/-- AMAX_ROUND (R402). -/
def execAmaxRound (f u : Nat) (s : State) : Host.Outcome State Fault Refusal := collRow f u 0x80 s
/-- COLL_BUCKET (R407). -/
def execCollBucket (f u : Nat) (s : State) : Host.Outcome State Fault Refusal := collRow f u 0x81 s
/-- KV_PASS (R420). -/
def execKvPass (f u : Nat) (s : State) : Host.Outcome State Fault Refusal := collRow f u 0x82 s

/-- COLLECTIVE_PHASE (R399): the commands of the ring and phase whose tick has come start. -/
def Work.phaseStarts (w : Work) (p ring phase : Nat) : Work :=
  let l := (w.openColl p ring).filter (fun x => collPhase x.cmd == phase && phase != 0xFF
    && (match x.phase with | .running _ => true | _ => false))
  w.each (l.map (·.id)) fun w id => match w.flight? id with
    | some x => w.collGo x
    | none => w

/-- A collective flit comes in by port `n`, and may wait in its buffer (R398). -/
def collIn (n : Nat) (l : LinkIn) (f : Work → Work) (s : State) : Host.Outcome State Fault Refusal := onUp n 1 1 1 l f s true

/-- COLLECTIVE_FLIT_RECEIVE (R398). -/
def execCollectiveFlitReceive (n : Nat) (l : LinkIn) (fl : CollFlit) (s : State) : Host.Outcome State Fault Refusal :=
  collIn n l (fun w => w.collFlit n fl) s
/-- CLOSE_FLIT_RECEIVE (R410). -/
def execCloseFlitReceive (n : Nat) (l : LinkIn) (part ring seq count : Nat) (s : State) : Host.Outcome State Fault Refusal :=
  collIn n l (fun w => w.closeFlit n part ring seq count) s
/-- RESOLVE_FLIT_RECEIVE (R415). -/
def execResolveFlitReceive (n : Nat) (l : LinkIn) (part ring pass qmin : Nat) (s : State) : Host.Outcome State Fault Refusal :=
  collIn n l (fun w => w.resolveFlit n part ring pass qmin) s
/-- KV_READY_RECEIVE (R420). -/
def execKvReadyReceive (n : Nat) (l : LinkIn) (part ring seq step : Nat) (s : State) : Host.Outcome State Fault Refusal :=
  collIn n l (fun w => w.readyFlit n (w.port n).peerPos part ring seq step) s

/-- COLLECTIVE_IDLE_TIMEOUT (R422): an open command that has neither sent nor received for 16,777,216 ticks faults. -/
def execCollectiveIdleTimeout (q id : Nat) (s : State) : Host.Outcome State Fault Refusal :=
  runIf (q < Config.nCtxs) (fun w => match w.flight? id with
    | some x => if x.q = q ∧ isColl x.cmd ∧ w.clk.span ≥ x.coll.lastIo + 16777216 then w.collFault x 0x0626 else w
    | none => w) s

end Sys2Proof.Machine
end

