-- ==== Sys2Proof/Machine/Resilience.lean ====
section
/-! DEFINITION. The canary, SECURE and DIGEST (14_resilience.md). -/

namespace Sys2Proof.Machine

/-! ## Images and their digest (R463, R471) -/

/-- Address ranges of a descriptor's image, in order. -/
def imageRanges (d : DescImg) : List (Nat × Nat) :=
  if d.mx then
    let e := { d with ext := updAt d.ext 0 (fun _ => d.e 0 / 256) }
    (List.range e.count).map fun i =>
      let c := coordsOf e i
      ((((elementAddress d d.base (updAt c 0 (· * 256))).2).getD 0).toNat, slabBytes d.fmt)
  else (List.range d.count).map fun i => ((elementAddress d d.base (coordsOf d i)).1.toNat / 8, elemBits d.fmt / 8)

/-- The image up to its first unreadable range: its bytes, and that range with its code. -/
def imageUpTo (w : Work) (p : Nat) : List (Nat × Nat) → List Nat × Option (Nat × Nat × Nat)
  | [] => ([], none)
  | r :: t =>
    match w.readCode p r.1 r.2 with
    | 0 =>
      let k := imageUpTo w p t
      (w.bytes r.1 r.2 ++ k.1, k.2)
    | c => ([], some (c, r))

/-- The ranges of an image that are read: up to the first unreadable one, which is read itself where it meets an
uncorrectable error. -/
def imageReads (w : Work) (p : Nat) (rs : List (Nat × Nat)) : List (Nat × Nat) × Option (Nat × Nat) :=
  let ok := fun (r : Nat × Nat) => w.readCode p r.1 r.2 == 0
  (rs.takeWhile ok, (rs.find? (fun r => !ok r)).bind (fun r => eccRange (w.readCode p r.1 r.2) r))

/-- `crc64`. -/
def crc64Bit (c : Nat) : Nat :=
  let d := u64 (2 * c)
  if c / 2 ^ 63 % 2 = 1 then Nat.xor d 0x42F0E1EBA9EA3693 else d
def crc64Byte (c b : Nat) : Nat := (List.range 8).foldl (fun c _ => crc64Bit c) (Nat.xor c (b % 256 * 2 ^ 56))
def crc64 (l : List Nat) (c : Nat) : Nat := l.foldl crc64Byte c

/-! ## SECURE (R464 to R470) -/

def seSrc (cmd : Nat) : Nat := bits (cb cmd 4 2) 11 0
def sePart (cmd : Nat) : Nat := bits (cb cmd 6 1) 3 0
def seForce (cmd : Nat) : Bool := bit (cb cmd 7 1) 0
def seClose (cmd : Nat) : Bool := bit (cb cmd 7 1) 1
def seDst (cmd : Nat) : Nat := cb cmd 8 6
def seCount (cmd : Nat) : Nat := cb cmd 14 2
/-- Reserved bits, src in a close, set_count. -/
def secureReserved (cmd : Nat) : Bool :=
  bits (cb cmd 4 2) 15 12 == 0 && bits (cb cmd 6 1) 7 4 == 0 && bits (cb cmd 7 1) 7 2 == 0 && bits (cb cmd 8 1) 7 0 == 0
    && (if seClose cmd then seSrc cmd == 0 && decide (1 ≤ seCount cmd) else seCount cmd == 0)
def secureDescs (cmd : Nat) : List Nat := if seClose cmd then [] else [seSrc cmd]

/-- Armed at the bell tick before (R465). -/
def Blk.wasArmed (b : Blk) (p : Nat) : Bool :=
  let c := (b.part p).canary
  if c.armedAt = some b.now then !c.armed else c.armed

/-- The checks at issue (R470) and what is kept: whether the command copies. -/
def secureIssue (w : Work) (x : Flight) : Nat × List Nat :=
  let code := firstCode [if seClose x.cmd then 0 else w.descCode x.part (seSrc x.cmd) [0] true false,
    match w.struct.plan.buddy x.part with
    | none => 0x0610
    | some y => codeUnless (w.reachable y.pos) 0x0610]
  (code, [b2n (seForce x.cmd || w.wasArmed x.part)])

/-- Open a copy's transaction; one that is accepted at once counts its bytes. -/
def Work.openCopy (w : Work) (t : Txn) : Work :=
  let id := w.dev.nextTxn
  let w := w.openTxn t true
  match w.txn? id with
  | some y => if y.st = .accepted then w.devCtr 0x0B00 y.len else w
  | none => w

/-- The point record of a close (R466). -/
def pointRecord (b : Blk) (x : Flight) : List Nat :=
  let s := (b.ctx x.q).secSet
  leBytes 4 x.shift.toNat ++ [b.ownPos, x.part, b2n (s.complete && decide (s.copies ≥ 1)) + 2 * b2n s.forced, 0]
    ++ leBytes 2 (seCount x.cmd) ++ leBytes 2 x.q ++ leBytes 4 s.copies ++ leBytes 8 s.bytes ++ leBytes 8 s.crc

/-- SECURE on its unit: a copy's flits go to the egress queue, where they wait for a window (R465). -/
def doSecure (x : Flight) (w : Work) : Work :=
  let buddy := ((w.struct.plan.buddy x.part).map (·.pos)).getD 0
  if seClose x.cmd then
    let r := pointRecord w.toBlk x
    ((w.openTxn { kind := .write, dst := buddy, part := sePart x.cmd, owner := x.id, addr := seDst x.cmd, data := r, len := 32,
                  src := x.part, shift := x.shift } true).modFlight x.id fun y => { y with coll := { y.coll with vec := r } }).doneFlight
      x 1
  else if x.cap ≠ [1] then w.doneFlight x 0
  else
    let d := w.img x.part (seSrc x.cmd)
    let rs := imageRanges d
    let k := imageUpTo w x.part rs
    let total := (rs.map (·.2)).sum
    let full := match k.2 with | none => k.1 | some _ => k.1.take (k.1.length / 4096 * 4096)
    let units := pieces full.length 4096 full
    let rd := imageReads w x.part rs
    let w := w.readingTo x.part rd.1 rd.2
    let w := w.modFlight x.id fun y => { y with coll := { y.coll with vec := k.1 } }
    let w := w.each units.zipIdx fun w u =>
      w.openCopy { kind := .secure, dst := buddy, part := sePart x.cmd, owner := x.id, unit := u.2,
                   addr := seDst x.cmd + 4096 * u.2, data := u.1, len := u.1.length, src := x.part, shift := x.shift }
    match k.2 with
    | none => w.doneFlight x (ceilDiv total 4096)
    | some (code, _) =>
      w.modFlight x.id fun y => { y with phase := .done, wm := units.length, fault := some (code, units.length) }

/-- A close counts toward the secure point, or does not (R467). -/
def Work.closePoint (w : Work) (p : Nat) (s : W32) (count : Nat) (complete : Bool) : Work :=
  let c := (w.part p).secure
  let reach := fun (pend : Nat) (n set : Nat) =>
    if n ≥ set then { c with point := s.toNat, valid := true, pend := none, pendCount := 0, pendSet := 0 }
    else { c with pend := some pend, pendCount := n, pendSet := set }
  let new : Option Secure :=
    if !complete then none
    else match c.pend with
      | none => some (reach s.toNat 1 count)
      | some q =>
        let q32 := BitVec.ofNat 32 q
        if shiftAhead q32 s then none
        else if shiftAhead s q32 then some (reach s.toNat 1 count)
        else if count ≠ c.pendSet then none
        else some (reach q (c.pendCount + 1) c.pendSet)
  match new with
  | some d => w.modPart p fun y => { y with secure := d }
  | none => w.devCtr 0x0B10 1

/-- What a SECURE does to its context's set, and a close to the secure point, as it retires (R465 to R467): a close counts by
the complete bit of the record that it wrote. -/
def Work.retireSecure (w : Work) (x : Flight) : Work :=
  if opOf x.cmd ≠ 0xA0 then w
  else
    let s := (w.ctx x.q).secSet
    if seClose x.cmd then
      (w.closePoint x.part x.shift (seCount x.cmd) (bit (nth x.coll.vec 6) 0)).modCtx x.q fun c => { c with secSet := {} }
    else w.modCtx x.q fun c => { c with secSet :=
      if x.cap = [1] then { s with copies := s.copies + 1, bytes := s.bytes + x.coll.vec.length,
                                   crc := crc64 x.coll.vec s.crc, forced := s.forced || seForce x.cmd }
      else { s with complete := false } }

/-- The command with opcode `op` on the resilience unit of face `f` that has still to be run. -/
def Blk.onResil (b : Blk) (f op : Nat) : Option Flight := b.runningOn f 0 op

/-- SECURE (R464 to R469). -/
def execSecure (f : Nat) (s : State) : Host.Outcome State Fault Refusal :=
  runIf (f < Config.nFaces) (fun w => match w.onResil f 0xA0 with
    | some x => doSecure x w
    | none => w) s

/-! ## Windows (R465) -/

/-- Where the windows of a partition that are open now end; none while none is. -/
def Blk.windowEnd (b : Blk) (p : Nat) : Option Nat :=
  match b.struct.plan.mark p with
  | none => none
  | some (phase, period) =>
    let ends := (b.struct.plan.bell.filter (fun e => e.kind == 6 && e.part == p)).filterMap fun e =>
      if b.now < phase + e.off then none
      else
        let t := b.now - (b.now - phase - e.off) % period
        if b.now < t + e.arg1 ∧ t > b.bell.loaded then some (t + e.arg1) else none
    match ends with
    | [] => none
    | a :: l => some (l.foldl max a)

/-- The flits that wait in the egress queues go as far as they may. -/
def Work.flushAll (w : Work) : Work :=
  w.each ((w.ports.filter (fun e => !e.2.held.isEmpty || !e.2.transit.isEmpty)).map (·.1)) Work.flushPort

/-- SECURE_WINDOW_OPEN (R465): waiting copies may go. -/
def Work.windowOpens (w : Work) (p : Nat) : Work :=
  match w.bell.st.counts, w.windowEnd p with
  | true, some t =>
    (w.modPart p fun y => { y with secureOpen := true, secureUntil := t }).flushAll
  | _, _ => w

/-- SECURE_WINDOW_CLOSE (R465). -/
def execSecureWindowClose (p : Nat) (s : State) : Host.Outcome State Fault Refusal :=
  runIf (p < Config.nParts) (fun w =>
    if (w.part p).secureOpen ∧ w.now ≥ (w.part p).secureUntil then w.modPart p fun y => { y with secureOpen := false } else w) s

/-- Copy flits wait for a window now. -/
def Blk.copyWaits (b : Blk) : Bool :=
  b.ports.any (fun e => e.2.held.any b.windowShut)

/-! ## DIGEST (R471, R472) -/

def dgOut (cmd : Nat) : Nat := cb cmd 8 6
/-- Reserved bits. -/
def digestReserved (cmd : Nat) : Bool :=
  bits (cb cmd 4 2) 15 12 == 0 && bits (cb cmd 6 1) 7 1 == 0 && cb cmd 7 1 == 0 && bits (cb cmd 8 1) 3 0 == 0 && cb cmd 14 2 == 0
def digestDescs (cmd : Nat) : List Nat := [seSrc cmd]
def digestIssue (w : Work) (x : Flight) : Nat := w.descCode x.part (seSrc x.cmd) [0] true false

def doDigest (x : Flight) (w : Work) : Work :=
  let chain := bit (cb x.cmd 6 1) 0
  let a := dgOut x.cmd
  let rs := imageRanges (w.img x.part (seSrc x.cmd))
  let k := imageUpTo w x.part rs
  let out := codeUnless (w.inPart x.part a 16) 0x0703
  let code := firstCode [out, if chain then w.readCode x.part a 16 else 0]
  if code ≠ 0 then (w.readingTo x.part [] (eccRange code (a, 16))).faultFlight x code 0
  else match k.2 with
    | some (c, _) =>
      let rd := imageReads w x.part rs
      (w.readingTo x.part rd.1 rd.2).faultFlight x c 0
    | none =>
      let n0 := if chain then w.num (a + 12) 4 else 0
      let c0 := if chain then w.num a 8 else 0
      let w := w.reading x.part (if chain then rs ++ [(a, 16)] else rs)
      (w.store x.part a (leBytes 8 (crc64 k.1 c0) ++ leBytes 4 x.shift.toNat ++ leBytes 4 (u32 (n0 + k.1.length)))).doneFlight x 1

/-- DIGEST (R471). -/
def execDigest (f : Nat) (s : State) : Host.Outcome State Fault Refusal :=
  runIf (f < Config.nFaces) (fun w => match w.onResil f 0xA1 with
    | some x => doDigest x w
    | none => w) s

/-! ## The canary (R454 to R460, R468) -/

/-- Input 5: the buddy or a ring member is lost. -/
def Work.peersLost (w : Work) (p : Nat) : Bool :=
  ((w.struct.plan.buddy p).map (fun y => w.isLost y.pos)).getD false
    || ((w.part p).rosterArea.enable && (w.struct.plan.ringsOf p).any (fun r => r.kind == 0
          && (w.rosterSeen p r.ring r.size).any w.isLost))

/-- The levels of R454 from what was posted. -/
def canaryLevels (acc : List Nat) (peers : Bool) : List Nat :=
  ([nth acc 0, 8192 * nth acc 1, nth acc 2 / 4 + 16384 * nth acc 3, 32768 * nth acc 4, 256 * nth acc 5 + nth acc 6 / 16,
    if peers then 65535 else 0, 16384 * nth acc 7, 32768 * nth acc 8]).map (min 65535)

/-- `canary_score` (R457): raw and score. -/
def canaryScore (prev : Nat) (wt lv : List Nat) : Nat × Nat :=
  let raw := min 65534 (((wt.zip lv).map (fun e => e.1 * e.2)).sum / 256)
  (raw, max raw (prev - prev / 16))
/-- R458. -/
def canaryStateOf (r : CanaryRec) (score : Nat) : Nat :=
  if score ≥ r.evac then 3 else if score ≥ r.secure then 2 else if score ≥ r.watch then 1 else 0

/-- One partition's evaluation (R457, R458, R468). Copies whose windows no longer hold them back go. -/
def Work.canaryEval (w : Work) (p : Nat) : Work :=
  let r := w.struct.plan.canary p
  let w := w.each ((w.struct.plan.ringsOf p).filter (fun r => r.kind == 0)) fun w r => w.rosterMet p r.ring
  let c := (w.part p).canary
  let lv := canaryLevels c.acc (w.peersLost p)
  let k := canaryScore c.score r.weights lv
  let st := canaryStateOf r k.2
  let sec := (w.part p).secure
  let after := sec.valid && !shiftAhead (BitVec.ofNat 32 c.armShift) (BitVec.ofNat 32 sec.point)
  let armed := decide (st ≥ 2) || (c.armed && !after)
  let w := w.modPart p fun y => { y with canary :=
    { score := k.2, raw := k.1, state := st, levels := lv, armed := armed
      armedAt := if armed = c.armed then c.armedAt else some w.now
      armShift := if st ≥ 2 then (w.curShift p).toNat else c.armShift
      eval := some { tick := w.now, score := c.score, state := c.state, armed := c.armed, armedAt := c.armedAt,
                     armShift := c.armShift, acc := c.acc } } }
  if st = c.state then w else w.flushAll

/-- A canary as it stood before its last evaluation, with what has been posted on that tick since. -/
def Canary.undo (c : Canary) (e : CanaryEval) : Canary :=
  { c with score := e.score, state := e.state, armed := e.armed, armedAt := e.armedAt, armShift := e.armShift, acc := e.acc
           eval := none }

/-- A canary has changed its state from `old`: the change is counted and told (R459, R477, R501). -/
def Work.canaryEvent (w : Work) (p old : Nat) : Work :=
  let c := (w.part p).canary
  if c.state = old then w
  else (w.devCtr 0x0B20 1).raise 4 p 0 (w.curShift p).toNat
    ([old, c.state] ++ leBytes 2 c.score ++ [0, 0, 0, 0] ++ c.levels.flatMap (leBytes 2))

/-- The tick of an evaluation ends: the evaluation is made again, where an event of the tick has been posted after it, and a
change of state is told (R456, R459). -/
def Work.canaryEnds (w : Work) (p : Nat) : Work :=
  match (w.part p).canary.eval with
  | some e =>
    if e.told then w
    else
      let w := if e.more then (w.modPart p fun x => { x with canary := x.canary.undo e }).canaryEval p else w
      (w.modPart p fun x => { x with canary := { x.canary with eval := some { e with more := false, told := true } } }).canaryEvent
        p e.state
  | none => w

/-- CANARY_EVALUATION (R456): every 16,384 bell ticks while bell time counts, once on a tick. -/
def execCanaryEvaluation (s : State) : Host.Outcome State Fault Refusal :=
  run (fun w =>
    if w.bell.st.counts ∧ w.now % 16384 = 0 then
      w.each (w.struct.plan.parts.filter (fun r => (w.part r.part).canary.eval.all (fun e => e.tick != w.now))) fun w r =>
        w.canaryEval r.part
    else w) s

end Sys2Proof.Machine
end

