-- ==== Sys2Proof/Machine/Sequencer.lean ====
section
/-! DEFINITION. The control and tag commands of a face's sequencer (R99 to R118), each run by its row once it has
issued. A context's sequencer and tag commands run in the order in which they issued. -/

namespace Sys2Proof.Machine

/-! ## Control flow state of a context (R101, R102) -/

/-- The next command to issue, if it has been fetched. -/
def Ctx.next? (c : Ctx) : Option Fetched := if c.calls.isEmpty then c.buf.head? else c.subBuf.head?
/-- The address of the next command of a subroutine. -/
def Ctx.nextAddr (c : Ctx) : Nat := match c.subBuf.head? with | some f => f.pos | none => c.pc
/-- The sub_index that the next command carries (R119). -/
def Ctx.subIndex (c : Ctx) : Nat := if c.calls.isEmpty then 0 else min (c.subCount + 1) 0xFFFF
/-- The ring position count that the next command carries (R119). -/
def Ctx.seqOf (c : Ctx) (f : Fetched) : Nat := if c.calls.isEmpty then f.pos else c.subSeq
/-- The next command is taken. -/
def Ctx.pop (c : Ctx) : Ctx :=
  if c.calls.isEmpty then { c with buf := c.buf.drop 1 } else { c with subBuf := c.subBuf.drop 1, subCount := c.subCount + 1 }
/-- Continue in a subroutine. -/
def Ctx.goto (c : Ctx) (a : Nat) : Ctx := { c with pc := a, subBuf := [] }
/-- Enter a subroutine from the command with ring position count `seq`. -/
def Ctx.enter (c : Ctx) (seq a : Nat) : Ctx :=
  let d := { c with calls := (if c.calls.isEmpty then none else some c.nextAddr) :: c.calls }
  (if c.calls.isEmpty then { d with subSeq := seq, subCount := 0 } else d).goto a
/-- Skip `n` commands. -/
def Ctx.skipBy (c : Ctx) (n : Int) : Ctx :=
  if c.calls.isEmpty then
    let k := n.toNat
    { c with buf := c.buf.drop k, skip := c.skip + (k - c.buf.length) }
  else c.goto ((c.nextAddr : Int) + 16 * n).toNat

/-- A context asks for a fetch slot of its face (R89). -/
def Work.wantFetch (w : Work) (q : Nat) : Work :=
  w.modFace (w.ctx q).face fun f =>
    if q ∈ f.slots ∨ q ∈ f.waiting then f else { f with waiting := f.waiting ++ [q] }

/-! ## Bounds that have passed (R109, R110) -/

/-- The tick that a bound's offset names. -/
def Blk.boundTick (b : Blk) (p : Nat) (s : W32) (o : Option Nat) : Option Nat := o.map (b.markTick p s + ·)

/-- The deadline of a context's next command has passed. -/
def Blk.boundPast (b : Blk) (q : Nat) : Bool :=
  match b.boundTick (b.partOf q) (b.ctx q).shift ((b.ctx q).bound.bind (·.deadline)) with
  | some d => b.bell.st.counts && decide (b.now > d)
  | none => false

/-- A command that has not issued by bell D + 1 misses its deadline: late_flag is set, once (R103, R110). The bound of a
command that has not issued when its context is disarmed stays with the context, and misses all the same: the spec does not
say whether it does (log entry 132). -/
def Work.missBound (w : Work) (q : Nat) : Work :=
  match (w.ctx q).bound with
  | some d => if w.boundPast q ∧ !d.missed then
      w.modCtx q fun c => { c with lateFlag := true, bound := some { d with missed := true } } else w
  | none => w
/-- The same for every context. -/
def Work.missBounds (w : Work) : Work := w.each w.ctxs fun w e => w.missBound e.1

/-! ## Which command a row runs -/

/-- The oldest sequencer or tag command of a context that has issued and not been run. -/
def Blk.seqNext (b : Blk) (q op : Nat) : Option Flight :=
  match b.flights.find? (fun x => x.q == q && (x.cls == .seq || x.cls == .tag) && x.phase == .wait) with
  | some x => if opOf x.cmd = op then some x else none
  | none => none

/-- Run the waiting command of context `q` with opcode `op`. -/
def seqRow (q op : Nat) (f : Flight → Work → Work) (s : State) : Host.Outcome State Fault Refusal :=
  runIf (q < Config.nCtxs) (fun w => match w.seqNext q op with
    | some x => f x w
    | none => w) s

/-- NOP (R99). -/
def execNop (q : Nat) (s : State) : Host.Outcome State Fault Refusal := seqRow q 0x00 (fun x w => w.doneFlight x 1) s

/-- No earlier command of the context is unretired. -/
def Blk.alone (b : Blk) (x : Flight) : Bool := b.flights.all (fun y => y.q != x.q || decide (x.id ≤ y.id))
/-- FENCE (R100). A command has not retired before its remote writes and signals are acknowledged, so both scopes
wait for the same. -/
def execFence (q : Nat) (s : State) : Host.Outcome State Fault Refusal :=
  seqRow q 0x01 (fun x w => if w.alone x then w.doneFlight x 1 else w) s

/-- Whether a BRANCH_IF is taken (R99, R103). -/
def branchTaken (c : Ctx) (cond : Nat) : Bool :=
  if cond = 0 then true else if cond = 1 then c.satFlag else if cond = 2 then c.lateFlag else c.grantFlag
/-- The flags that a BRANCH_IF clears. -/
def Ctx.clearFlags (c : Ctx) (m : Nat) : Ctx :=
  { c with satFlag := c.satFlag && !bit m 0, lateFlag := c.lateFlag && !bit m 1, grantFlag := c.grantFlag && !bit m 2 }
/-- A call target (R101). -/
def Blk.targetOk (b : Blk) (p a : Nat) : Bool := a % 16 == 0 && b.inHbmPart p a 16
/-- The code of a call (R101). -/
def Blk.callCode (b : Blk) (x : Flight) (a : Nat) : Nat :=
  firstCode [codeUnless (decide ((b.ctx x.q).calls.length < 4)) 0x0207, codeUnless (b.targetOk x.part a) 0x0208]

/-- BRANCH_IF. The count or target of one that is not taken is not checked (log entry 107). -/
def doBranch (x : Flight) (w : Work) : Work :=
  let c := w.ctx x.q
  let cond := cb x.cmd 4 1
  let taken := branchTaken c cond
  let call := cb x.cmd 5 1 = 1
  let a := cb x.cmd 8 6
  let n := s32 (cb x.cmd 8 4)
  let code := if !taken then 0
    else if call then w.callCode x a
    else codeUnless (if c.calls.isEmpty then decide (0 ≤ n) else n != -1) 0x0209
  if code ≠ 0 then w.faultFlight x code 0
  else
    let w := w.modCtx x.q fun c =>
      (if !taken then c else if call then c.enter x.seq a else c.skipBy n).clearFlags (cb x.cmd 6 1)
    let w := if taken then w.wantFetch x.q else w
    if taken ∧ cond = 1 then
      w.modFlight x.id fun y => { y with phase := .done, status := 2, wm := min c.satCount 0xFFFFFFFF }
    else w.doneFlight x 1

/-- BRANCH_IF (R102, R104). -/
def execBranchIf (q : Nat) (s : State) : Host.Outcome State Fault Refusal := seqRow q 0x02 doBranch s

/-- CALL (R101). -/
def execCall (q : Nat) (s : State) : Host.Outcome State Fault Refusal :=
  seqRow q 0x03 (fun x w =>
    let a := cb x.cmd 4 6
    let code := w.callCode x a
    if code ≠ 0 then w.faultFlight x code 0
    else ((w.modCtx x.q fun c => c.enter x.seq a).wantFetch x.q).doneFlight x 1) s

/-- RET (R101). -/
def execRet (q : Nat) (s : State) : Host.Outcome State Fault Refusal :=
  seqRow q 0x04 (fun x w =>
    match (w.ctx x.q).calls with
    | [] => w.faultFlight x 0x0206 0
    | none :: _ => (w.modCtx x.q fun c => { c with calls := [], subBuf := [] }).doneFlight x 1
    | some a :: t => ((w.modCtx x.q fun c => ({ c with calls := t } : Ctx).goto a).wantFetch x.q).doneFlight x 1) s

/-- The tick that a WAIT_BELL waits for (R99). -/
def Blk.waitTick (b : Blk) (x : Flight) : Nat :=
  let t := cb x.cmd 4 8
  if cb x.cmd 12 1 = 0 then t else b.markTick x.part x.shift + t
/-- WAIT_BELL (R99): it ends when bell time has reached its tick. -/
def execWaitBell (q : Nat) (s : State) : Host.Outcome State Fault Refusal :=
  seqRow q 0x05 (fun x w => if w.bell.st.counts ∧ w.now ≥ w.waitTick x then w.doneFlight x 1 else w) s

/-- The bounds that a BOUNDS gives. -/
def boundOf (cmd : Nat) : Bound :=
  let f := fun v => if v = 0xFFFFFFFF then none else some v
  ⟨f (cb cmd 4 4), f (cb cmd 8 4), cb cmd 12 1 == 1, false⟩
/-- BOUNDS (R108): it applies to the next command, which it waits for. A next command in an uncorrectable sector has no
opcode that could be read: it counts as one below 0x10, and the BOUNDS faults (log entry 133). -/
def execBounds (q : Nat) (s : State) : Host.Outcome State Fault Refusal :=
  seqRow q 0x06 (fun x w =>
    match (w.ctx x.q).next? with
    | none => w
    | some f =>
      if opOf f.cmd < 0x10 then w.faultFlight x 0x020A 0
      else ((w.modCtx x.q fun c => { c with bound := some (boundOf x.cmd) }).missBound x.q).doneFlight x 1) s

/-- SHIFT (R99, R106). -/
def execShift (q : Nat) (s : State) : Host.Outcome State Fault Refusal :=
  seqRow q 0x07 (fun x w =>
    let v : W32 := BitVec.ofNat 32 (cb x.cmd 4 4)
    let mode := cb x.cmd 8 1
    (w.modCtx x.q fun c => { c with
      shift := if mode = 0 then v else if mode = 1 then c.shift + v else w.curShift x.part }).doneFlight x 1) s

/-! ## Tags (R112 to R116) -/

/-- TAG_SIGNAL (R114). -/
def execTagSignal (q : Nat) (s : State) : Host.Outcome State Fault Refusal :=
  seqRow q 0x10 (fun x w => (w.tagAdd (tagOf x.cmd) (cb x.cmd 4 4)).doneFlight x 1) s
/-- TAG_WAIT (R113): it is over once a value has satisfied it: that which the counter had at issue, and whose stamp it then
has, or the present one. Later values are tested as they come. -/
def execTagWait (q : Nat) (s : State) : Host.Outcome State Fault Refusal :=
  seqRow q 0x11 (fun x w =>
    if x.stamp.isSome ∨ waitMet (w.tag (tagOf x.cmd)) (BitVec.ofNat 32 (cb x.cmd 4 4)) then
      w.modFlight x.id fun y => { y with phase := .done, wm := 1, stamp := some (x.stamp.getD w.now) }
    else w) s
/-- TAG_SET (R114). -/
def execTagSet (q : Nat) (s : State) : Host.Outcome State Fault Refusal :=
  seqRow q 0x12 (fun x w => (w.tagTo (tagOf x.cmd) (BitVec.ofNat 32 (cb x.cmd 4 4))).doneFlight x 1) s

/-- Count a remote tag signal as issued, and as answered when its transaction is settled at once (R126). -/
def Work.tagBook (w : Work) (p id : Nat) : Work :=
  let done := match w.txn? id with | some t => t.st != .opened | none => false
  w.modPart p fun y => { y with tagIssued := y.tagIssued + 1, tagAcked := y.tagAcked + b2n done }
/-- TAG_REMOTE (R114, R115): the signal leaves; the command retires when it is acknowledged. -/
def execTagRemote (q : Nat) (s : State) : Host.Outcome State Fault Refusal :=
  seqRow q 0x13 (fun x w =>
    let id := w.dev.nextTxn
    let w := w.openTxn { kind := .tag, dst := cb x.cmd 8 1, part := cb x.cmd 9 1, owner := x.id, addr := tagOf x.cmd,
                         len := cb x.cmd 4 4, src := x.part, shift := x.shift } false
    (w.tagBook x.part id).doneFlight x 1) s

/-! ## DESC_DROP (R147) -/

/-- The descriptors that a command names. -/
def Blk.descsOf (b : Blk) (p cmd : Nat) : List Nat :=
  let op := opOf cmd
  if 0x20 ≤ op ∧ op ≤ 0x23 then [moveSrc cmd, moveDst cmd]
  else if op = 0x30 ∨ op = 0x31 then mmDescs cmd
  else if op = 0x40 then spDescs cmd
  else if op = 0x41 then (if mrOp cmd = 2 then [] else [mrRows cmd, mrCols cmd])
  else if op = 0x50 then gaDescs cmd
  else if op = 0x51 then meDescs cmd
  else if op = 0x52 then [gaSrc cmd, gaDst cmd]
  else if op = 0x60 then b.veDescs p cmd
  else if op = 0x64 then osDescs cmd
  else if 0x61 ≤ op ∧ op ≤ 0x63 then rowIns cmd ++ rowOuts cmd
  else if op = 0x70 then roDescs cmd
  else if op = 0x71 then ceDescs cmd
  else if isColl cmd then collDescs cmd
  else if op = 0xA0 then secureDescs cmd
  else if op = 0xA1 then digestDescs cmd
  else []

/-- The checks of DESC_DROP at issue (R146, R147). -/
def dropIssue (b : Blk) (p cmd : Nat) : Nat :=
  let i := descIdx cmd
  if i ≥ (b.struct.plan.bud p).descs then 0x0102
  else match (b.desc p i).st with
    | .free | .held => 0x0114
    | .dropping => 0x0102
    | .created => 0
/-- At issue the entry is marked dropping. -/
def Work.holdDrop (w : Work) (x : Flight) : Work :=
  if opOf x.cmd = 0x91 then w.setDesc x.part (descIdx x.cmd) { w.desc x.part (descIdx x.cmd) with st := .dropping } else w
/-- A DESC_DROP that faults after its issue leaves the entry created. -/
def Work.unholdDrop (w : Work) (x : Flight) : Work :=
  if opOf x.cmd = 0x91 then w.setDesc x.part (descIdx x.cmd) { w.desc x.part (descIdx x.cmd) with st := .created } else w
/-- When it retires the entry is free. -/
def Work.retireDrop (w : Work) (x : Flight) : Work :=
  if opOf x.cmd = 0x91 then w.setDesc x.part (descIdx x.cmd) {} else w

/-- DESC_DROP (R147): it is done when no command that issued earlier holds the descriptor. -/
def execDescDrop (q : Nat) (s : State) : Host.Outcome State Fault Refusal :=
  runIf (q < Config.nCtxs) (fun w => match w.runningOf q 0x91 with
    | some x =>
      if w.flights.any (fun y => decide (y.id < x.id) && y.part == x.part && decide (descIdx x.cmd ∈ w.descsOf y.part y.cmd)) then w
      else w.doneFlight x 1
    | none => w) s

/-- What a command had taken hold of at issue goes back as it ends in a fault (R146, R147, R239, R241). -/
def Work.unhold (w : Work) (x : Flight) : Work := ((w.unholdDesc x).unholdDrop x).unholdMask x

/-- A command ends in a fault after it has issued. -/
def Work.endFlight (w : Work) (x : Flight) (code wm : Nat) : Work :=
  if isColl x.cmd then w.collFault x code else (((w.faultFlight x code wm).dropTxns x.id).faultSk20 x wm).unhold x

end Sys2Proof.Machine
end

