-- ==== Sys2Proof/Machine/Issue.lean ====
section
/-! DEFINITION. Issue (R90, R91, R94): the checks of a command's encoding, the conditions of issue, what the engines
check at issue, and what a command takes hold of as it issues. -/

namespace Sys2Proof.Machine

/-! ## Opcodes (R98) -/

/-- The engine class of an opcode; none for a reserved one. -/
def clsOf (op : Nat) : Option Cls :=
  if op ≤ 0x07 ∨ op = 0x72 then some .seq
  else if 0x10 ≤ op ∧ op ≤ 0x13 then some .tag
  else if 0x20 ≤ op ∧ op ≤ 0x23 then some .data
  else if op = 0x30 then some .stope
  else if op = 0x31 then some .drift
  else if op = 0x40 ∨ op = 0x41 then some .riffle
  else if 0x50 ≤ op ∧ op ≤ 0x52 then some .tram
  else if op = 0x60 ∨ op = 0x64 then some .vector
  else if 0x61 ≤ op ∧ op ≤ 0x63 then some .row
  else if op = 0x70 ∨ op = 0x71 then some .skip
  else if 0x80 ≤ op ∧ op ≤ 0x82 then some .coll
  else if op = 0x90 ∨ op = 0x91 then some .desc
  else if op = 0xA0 ∨ op = 0xA1 then some .resil
  else none

/-- Commands that honour the nan field (R177, R218, R250, R272, R282, R322); the tram engine makes its own check of
it (0x02C3). -/
def honoursNan (op : Nat) : Bool :=
  op == 0x30 || op == 0x31 || op == 0x40 || (decide (0x50 ≤ op) && decide (op ≤ 0x52)) || (decide (0x60 ≤ op) && decide (op ≤ 0x64))

/-- Reserved flag bits and the rules of R97. -/
def flagsOk (cmd : Nat) : Bool :=
  let op := opOf cmd
  bits (cb cmd 1 1) 7 6 == 0 && fNan cmd != 3
    && (if clsOf op = some .tag then !fSig cmd else fSig cmd || tagOf cmd == 0)
    && (honoursNan op || (fNan cmd == 0 && !fSatWatch cmd))

/-- The operand bytes of a control, tag or descriptor command (R99, R114, R144, R305). -/
def plainOperands (cmd : Nat) : Bool :=
  let z := fun lo n => cb cmd lo n == 0
  match opOf cmd with
  | 0x00 | 0x04 => z 4 12
  | 0x01 => decide (cb cmd 4 1 ≤ 1) && z 5 11
  | 0x02 => decide (cb cmd 4 1 ≤ 3) && decide (cb cmd 5 1 ≤ 1) && bits (cb cmd 6 1) 7 3 == 0 && z 7 1
      && (if cb cmd 5 1 = 0 then z 12 4 else z 14 2)
  | 0x03 => z 10 6
  | 0x05 => decide (cb cmd 12 1 ≤ 1) && z 13 3
  | 0x06 => decide (cb cmd 12 1 ≤ 1) && z 13 3
  | 0x07 => decide (cb cmd 8 1 ≤ 2) && (cb cmd 8 1 != 2 || z 4 4) && z 9 7
  | 0x10 | 0x11 | 0x12 => z 8 8
  | 0x13 => z 10 6
  | 0x72 => z 5 11
  | 0x90 => bits (cb cmd 4 2) 15 12 == 0 && z 6 2 && z 14 2
  | 0x91 => bits (cb cmd 4 2) 15 12 == 0 && z 6 10
  | _ => true

/-- Reserved operand bits of every command. -/
def operandsOk (cmd : Nat) : Bool :=
  match opOf cmd with
  | 0x20 | 0x21 | 0x22 | 0x23 => bits (cb cmd 4 2) 15 12 == 0 && bits (cb cmd 6 2) 15 12 == 0
  | 0x30 | 0x31 => mmReserved cmd
  | 0x40 => spReserved cmd
  | 0x41 => mrReserved cmd
  | 0x50 => gaReserved cmd
  | 0x51 => meReserved cmd
  | 0x52 => soReserved cmd
  | 0x60 => veReserved cmd
  | 0x61 | 0x62 | 0x63 => rowReserved cmd
  | 0x64 => osReserved cmd
  | 0x70 => roReserved cmd
  | 0x71 => ceReserved cmd
  | 0x80 | 0x81 | 0x82 => collReserved cmd
  | 0xA0 => secureReserved cmd
  | 0xA1 => digestReserved cmd
  | _ => plainOperands cmd

/-- The faults that are raised before issue (R98, R97, R112): 0x0201, 0x0202, 0x0203, or 0. -/
def encCode (b : Blk) (p cmd : Nat) : Nat :=
  let op := opOf cmd
  let tagged := fSig cmd || (decide (0x10 ≤ op) && decide (op ≤ 0x12))
  firstCode [codeUnless (clsOf op).isSome 0x0201, codeUnless (flagsOk cmd && operandsOk cmd) 0x0202,
    codeUnless (!tagged || b.struct.plan.partOfTag (tagOf cmd) == some p) 0x0203]

/-! ## What the engines check at issue -/

/-- The code of an engine's checks at issue, what the command keeps, and its contribute. -/
def engineIssue (w : Work) (x : Flight) : Nat × List Nat × Bool :=
  let p := x.part
  let cmd := x.cmd
  let one := fun (c : Nat) => (c, ([] : List Nat), false)
  let two := fun (c : Nat × List Nat) => (c.1, c.2, false)
  match opOf cmd with
  | 0x13 => one (codeUnless (w.reachable (cb cmd 8 1)) 0x0213)
  | 0x20 | 0x21 | 0x22 | 0x23 => one (moveIssue w p cmd)
  | 0x30 => two (mmIssue w x false)
  | 0x31 => two (mmIssue w x true)
  | 0x40 => two (spIssue w x)
  | 0x41 => one (maskIssue w x)
  | 0x50 => one (gatherIssue w p cmd)
  | 0x51 => one (mergeIssue w p cmd)
  | 0x52 => one (segsortIssue w p cmd)
  | 0x60 => two (vecIssue w x)
  | 0x61 | 0x62 | 0x63 => one (rowIssue w p cmd)
  | 0x64 => two (optIssue w x)
  | 0x70 => two (routeIssue w x)
  | 0x71 => two (censusIssue w x)
  | 0x72 => one (grantWaitIssue w x)
  | 0x80 | 0x81 | 0x82 => collIssue w x
  | 0x90 =>
    let i := descIdx cmd
    (codeUnless (decide (i < (w.struct.plan.bud p).descs)) 0x0102, if (w.desc p i).st == .free then [1] else [], false)
  | 0x91 => one (dropIssue w.toBlk p cmd)
  | 0xA0 => two (secureIssue w x)
  | 0xA1 => one (digestIssue w x)
  | _ => (0, [], false)

/-- What a command has read at issue when its checks end in a code: nothing before its descriptors have passed, and a ROUTE's
grant only once the checks before it have (R309). -/
def issueReadTo (w : Work) (x : Flight) (code : Nat) (u : URes) : List (Nat × Nat) :=
  if code = 0 ∨ code = 0x0704 ∨ code = 0x0705 ∨ code = 0x0623 ∨ code = 0x0624 ∨ code = 0x0506 ∨ code = 0x0509 then u.reads
  else if opOf x.cmd = 0x70 ∧ (0x0501 ≤ code ∧ code ≤ 0x0511) then
    (words32 w x (w.img x.part (roIdx x.cmd 5)) ((List.range 8).map (fun i => [i]))).2.reads
  else if opOf x.cmd = 0x71 ∧ (0x0501 ≤ code ∧ code ≤ 0x0505) then u.reads
  else []

/-- What a command reads at issue: its rosters (R149), a tensor scale (R199), a hyperparameter record (R341). -/
def issueReads (w : Work) (x : Flight) : URes :=
  let el := fun (i : Nat) => (w.elem0 x (w.img x.part i)).2
  let u : URes := match opOf x.cmd with
    | 0x30 | 0x31 => if mmXRole x.cmd = 3 then el (mmX x.cmd) else {}
    | 0x40 => if spXRole x.cmd = 3 then el (spX x.cmd) else {}
    | 0x60 => vecIssueReads w x
    | 0x64 => optIssueReads w x
    | 0x70 | 0x71 => routeIssueReads w x
    | 0x80 | 0x81 | 0x82 => collIssueReads w x
    | _ => {}
  (w.rosterReads x.part (w.ringsOf x.part (w.descsOf x.part x.cmd))).and u

/-! ## Conditions of issue (R90) -/

/-- What a context's next command can do: nothing to try, wait for a reason (the n of FACE_STALL_n, or none that is
counted), fault, or issue. -/
inductive Try where
  | nothing
  | stall (n : Option Nat)
  | fault (code : Nat) (late : Bool)
  | issue
  deriving DecidableEq, Repr

/-- Commands of a context that have issued and not retired. -/
def Blk.flightsOf (b : Blk) (q : Nat) : List Flight := b.flights.filter (fun x => x.q = q)

/-- Why later commands of a context wait for one that has issued (R99, R114, R305); `some none` where no counter
counts it. -/
def Flight.blocks (x : Flight) : Option (Option Nat) :=
  if opOf x.cmd = 0x11 then some (some 0)
  else if opOf x.cmd = 0x05 then some (some 1)
  else if opOf x.cmd = 0x72 then some none
  else if x.cls = .seq ∧ x.phase = .wait then some (if opOf x.cmd = 0x01 then some 6 else none)
  else none
def Blk.blockedBy (b : Blk) (q : Nat) : Option (Option Nat) := ((b.flightsOf q).filterMap Flight.blocks).head?

/-- Every earlier command must have retired (R90, R115, R466). -/
def needsAlone (cmd : Nat) : Bool :=
  let op := opOf cmd
  fOrd cmd || op == 0x01 || op == 0x13 || (op == 0x02 && cb cmd 4 1 != 0) || (op == 0xA0 && seClose cmd)

/-- Deadline comparators of a partition that are held (R109, R111). -/
def Blk.compsHeld (b : Blk) (p : Nat) : Nat := (b.flights.filter (fun x => x.part = p ∧ x.comp)).length

/-- Tally records a command may write (R90). -/
def recsOf (cmd : Nat) : Nat := if opOf cmd = 0x30 ∧ mmSplit cmd then 2 else 1

/-- Both bounds are given and the first lies after the second (R108). -/
def Bound.crossed (d : Bound) : Bool :=
  match d.notBefore, d.deadline with
  | some a, some e => decide (a > e)
  | _, _ => false

/-- The next command of a context, as R90 tests it, up to the checks of its engine. -/
def Blk.tryIssue (b : Blk) (q : Nat) : Try :=
  let c := b.ctx q
  let p := b.partOf q
  match c.next? with
  | none => .nothing
  | some f =>
    if (b.part p).st ≠ .running ∨ c.st ≠ .active ∨ (b.part p).resetting ∨ (b.face c.face).resetting then .nothing
    else match b.blockedBy q with
      | some n => .stall n
      | none =>
        let cmd := f.cmd
        let enc := encCode b p cmd
        let bd := c.bound.getD {}
        let dl := b.boundTick p c.shift bd.deadline
        let past := b.boundPast q
        let cls := (clsOf (opOf cmd)).getD .seq
        if f.bad ≠ 0 then .fault f.bad false
        else if enc ≠ 0 then .fault enc false
        else if bd.crossed then .fault 0x020B false
        else if past && bd.abort then .fault 0x0210 true
        else if needsAlone cmd && !(b.flightsOf q).isEmpty then .stall (some 6)
        else if shiftAhead c.shift (b.curShift p) then .stall (some 2)
        else if (match b.boundTick p c.shift bd.notBefore with
            | some t => !b.bell.st.counts || decide (b.now < t)
            | none => false) then .stall (some 1)
        else if dl.isSome && !past && decide (b.compsHeld p ≥ (b.struct.plan.bud p).comps) then .stall (some 3)
        else if c.tallyFree < b.reserved q + recsOf cmd ∨ !c.owed.isEmpty then .stall (some 4)
        else if cls ≠ .seq ∧ cls ≠ .tag
            ∧ (b.flights.filter (fun x => x.face = c.face ∧ x.cls = cls ∧ x.phase = .queued)).length ≥ 16 then .stall (some 5)
        else if (b.flights.filter (fun x => x.face = c.face)).length ≥ 64 ∨ (b.flightsOf q).length ≥ 32 then .stall none
        else .issue

/-- The contexts of a face in the order of R89: priority first, then number. -/
def Blk.issueOrder (b : Blk) (f : Nat) : List Nat :=
  let l := (b.ctxs.filter (fun e => e.2.face = f ∧ e.2.st ≠ .idle)).map (fun e => (e.1, e.2.prio))
  [3, 2, 1, 0].flatMap (fun p => (l.filter (fun e => e.2 = p)).map (·.1))

/-! ## Issuing -/

/-- The command as it would stand issued. -/
def Blk.asFlight (b : Blk) (q : Nat) (f : Fetched) : Flight :=
  let c := b.ctx q
  let p := b.partOf q
  let bd := c.bound.getD {}
  let dl := b.boundTick p c.shift bd.deadline
  let past := b.boundPast q
  let cls := (clsOf (opOf f.cmd)).getD .seq
  { id := b.dev.nextFlight, q := q, part := p, face := c.face, cmd := f.cmd, seq := c.seqOf f, sub := c.subIndex,
    shift := c.shift, cls := cls, phase := if cls = .seq ∨ cls = .tag then .wait else .queued, deadline := dl,
    abort := bd.abort, comp := dl.isSome && !past, late := past, recs := recsOf f.cmd, cycle := b.dev.cycle }

/-- The next command is taken, with its bound; late_flag is set where it is late and the miss has not been seen. -/
def Ctx.take (c : Ctx) (late : Bool) : Ctx :=
  { c.pop with bound := none, lateFlag := c.lateFlag || (late && !(c.bound.any (·.missed))) }

/-- A command faults before or at its issue (R121): it is taken, and its records written or owed. -/
def Work.issueFault (w : Work) (q : Nat) (f : Fetched) (code : Nat) (late : Bool) : Work :=
  let x := w.asFlight q f
  let w := (w.modCtx q fun c => c.take late).faultCtx q (opOf x.cmd) x.seq code
  let w := w.each (faultRecs w.toBlk x code 0) fun w r => w.oweRec q r
  w.faultMarks q x.part (opOf x.cmd) [code] x.shift

/-- The wait of a TAG_WAIT is evaluated against the value that its tag has as it issues (R113): one that is satisfied has its
stamp from here. -/
def Work.holdTag (w : Work) (x : Flight) : Work :=
  if opOf x.cmd = 0x11 ∧ waitMet (w.tag (tagOf x.cmd)) (BitVec.ofNat 32 (cb x.cmd 4 4)) then
    w.modFlight x.id fun y => { y with stamp := some w.now }
  else w

/-- Commands of other contexts that issued in the array cycle of `x`. -/
def Flight.besides (x y : Flight) : Bool := y.cycle == x.cycle && y.q != x.q && (y.phase == .queued || y.phase == .wait)
/-- A DESC_DROP or a release issues: a command of another context that names its descriptor or slot and issued in the same
array cycle faults as at issue (R147, R241). -/
def Work.issueClash (w : Work) (x : Flight) : Work :=
  if opOf x.cmd = 0x91 then
    w.each (w.flights.filter (fun y => x.besides y && y.part == x.part && decide (descIdx x.cmd ∈ w.descsOf y.part y.cmd)))
      fun w y => w.endFlight y 0x0102 0
  else if opOf x.cmd = 0x41 ∧ mrOp x.cmd = 2 then
    w.each (w.flights.filter (fun y => x.besides y && y.face == x.face && spNames y.cmd (mrSlot x.cmd))) fun w y =>
      w.endFlight y 0x02A5 0
  else w

/-- A command issues: it is taken, and takes hold of what it needs. -/
def Work.issueNow (w : Work) (q : Nat) (f : Fetched) (cap : List Nat) (contribute : Bool) : Work :=
  let x := { w.asFlight q f with cap := cap, contribute := contribute }
  let x := { x with rosters := w.rostersOf x.part (w.descsOf x.part x.cmd) }
  let w := w.modCtx q fun c => c.take x.late
  let w : Work := { w with flights := w.flights ++ [x], dev := { w.dev with nextFlight := w.dev.nextFlight + 1 } }
  let w := w.modBell fun b => { b with peak := max b.peak (w.struct.plan.events + (w.flights.filter (·.comp)).length) }
  let w := if opOf x.cmd = 0x90 ∧ cap = [1] then
      w.setDesc x.part (descIdx x.cmd) { w.desc x.part (descIdx x.cmd) with st := .held } else w
  let w := (w.holdTag x).holdDrop x
  let w := if opOf x.cmd = 0x41 then w.holdMask x else w
  let w := w.issueClash x
  let w := w.holdSk20 x
  if isColl x.cmd then w.holdColl x else w

/-- Try contexts in order: the first whose command issues or faults at issue. A collective finds its ring broken where its
roster names a lost position (R395, R414); this may fault its own context. -/
def Work.issueFirst (w : Work) : List Nat → Option Work
  | [] => none
  | q :: t =>
    match w.tryIssue q, (w.ctx q).next? with
    | .fault code late, some f => some (w.issueFault q f code late)
    | .issue, some f =>
      let x := w.asFlight q f
      let w := if isColl x.cmd then w.breakByRoster x.part (collRing x.cmd) else w
      let e := engineIssue w x
      let r := issueReads w x
      if (w.ctx q).st ≠ .active then some w
      else if e.1 = 0 then some ((w.reading x.part r.reads).issueNow q f e.2.1 e.2.2)
      else
        let bad := if e.1 = 0x0704 ∨ e.1 = 0x0705 then r.ecc else none
        some ((w.readingTo x.part (issueReadTo w x e.1 r) bad).issueFault q f e.1 x.late)
    | _, _ => w.issueFirst t

/-- The context whose next command is the oldest unissued one of those listed: the first fetched. -/
def Blk.oldestOf (b : Blk) (l : List Nat) : Option Nat :=
  let heads := l.filterMap (fun q => ((b.ctx q).next?).map (fun f => (q, f.age)))
  let least := minOf b.dev.nextFetch (heads.map (·.2))
  (heads.find? (fun e => e.2 = least)).map (·.1)

/-- Why the oldest unissued command of a face cannot issue (R94). -/
def Blk.stallOf (b : Blk) (l : List Nat) : Option Nat :=
  match b.oldestOf l with
  | some q => match b.tryIssue q with
    | .stall n => n
    | _ => none
  | none => none

/-- An attempt to issue falls in the array cycle of the last one, or in a later one (log entry 134). -/
def Work.issueCycle (w : Work) (again : Bool) : Work :=
  if again && decide (w.dev.cycleAt = w.clk.cyc10) && decide (0 < w.dev.cycle) then w
  else w.modDev fun d => { d with cycle := d.cycle + 1, cycleAt := w.clk.cyc10 }

/-- A face tries to issue in the present array cycle: at its first attempt in it a stall of its oldest unissued command is
counted (R94). -/
def Work.faceCycle (w : Work) (f : Nat) : Work :=
  if (w.face f).cycle = w.dev.cycle then w
  else
    let w' := w.modFace f fun x => { x with cycle := w.dev.cycle, issued := 0 }
    match w.stallOf (w.issueOrder f) with
    | some n => w'.faceCtr f (0x0100 + 8 * n) 1
    | none => w'

/-- COMMAND_ISSUE (R90, R94): an attempt to issue, in the array cycle of the last attempt (`again`) or in a new one. The first
command that can issues or faults at issue (log entry 108); a face issues at most four in one cycle. -/
def execCommandIssue (f : Nat) (again : Bool) (s : State) : Host.Outcome State Fault Refusal :=
  runIf (f < Config.nFaces) (fun w =>
    let w := (w.issueCycle again).faceCycle f
    if (w.face f).issued ≥ 4 then w
    else match w.issueFirst (w.issueOrder f) with
      | some w' => if w'.dev.nextFlight = w.dev.nextFlight then w' else w'.modFace f fun x => { x with issued := x.issued + 1 }
      | none => w) s

end Sys2Proof.Machine
end

