-- ==== Sys2Proof/Machine/Retire.lean ====
section
/-! DEFINITION. Dispatch to engines (R91, R184, R558), retirement (R92), the deadline test (R109, R110) and the record
of an overrun (R85). -/

namespace Sys2Proof.Machine

/-! ## Dispatch -/

/-- Units of a class in a face: none of its own for the sequencer; data movement and the descriptor commands are not
counted by unit (log entry 33). -/
def unitCount : Cls → Nat
  | .stope | .coll => 4
  | _ => 1

/-- A stope array or a riffle engine, which takes its next command while the previous one streams (R558). -/
def streams (c : Cls) : Bool := c == .stope || c == .riffle
/-- A command holds a unit: while it runs, and on engines that free at retirement until then (R558). -/
def Flight.holds (x : Flight) (c : Cls) (u : Nat) : Bool :=
  match x.phase with
  | .running k => k == u
  | .sent | .done => !streams c && x.unit == u
  | _ => false
/-- The faces that share an engine with face `f`: its gallery's for the skip engine. -/
def sharesEngine (c : Cls) (f g : Nat) : Bool := if c = .skip then f / 12 == g / 12 else f == g
/-- A unit is free. -/
def Blk.unitFree (b : Blk) (f : Nat) (c : Cls) (u : Nat) : Bool :=
  c == .data || c == .desc || b.flights.all (fun x => !(x.cls == c && sharesEngine c f x.face && x.holds c u))
/-- A stope array or a riffle engine that streams one command and can take the next (R558). -/
def Blk.unitNext (b : Blk) (f : Nat) (c : Cls) (u : Nat) : Bool :=
  streams c && decide ((b.flights.filter (fun x => x.cls == c && x.face == f && x.phase == .running u)).length = 1)

/-- How a stope array is preferred (R184): lower first. -/
def Arr.rank (a : Arr) : Nat :=
  match a.pw with
  | .on => 0
  | .ramping => 1
  | .winding => 10 - a.groups
  | .off => 20
/-- The unit that takes the next command: a free one, else one that can take it behind the command that it streams. -/
def Blk.pickUnit (b : Blk) (f : Nat) (c : Cls) : Option Nat :=
  let idle := (List.range (unitCount c)).filter (b.unitFree f c)
  let free := if idle.isEmpty then (List.range (unitCount c)).filter (b.unitNext f c) else idle
  if c = .stope then
    let r := fun u => ((b.face f).arrs.getD u {}).rank
    free.find? (fun u => free.all (fun v => decide (r u < r v) || (r u == r v && decide (u ≤ v))))
  else free.head?

/-- ENGINE_DISPATCH (R558): the oldest command of a class's queue goes to a unit; a tile's wait for the ramp is counted
(R183, R208). -/
def execEngineDispatch (f : Nat) (c : Cls) (s : State) : Host.Outcome State Fault Refusal :=
  runIf (f < Config.nFaces) (fun w =>
    match w.flights.find? (fun x => x.cls == c && x.phase == .queued && sharesEngine c f x.face), w.pickUnit f c with
    | some x, some u =>
      let w := w.modFlight x.id fun y => { y with phase := .running u, unit := u }
      if c = .stope then (w.faceCtr f 0x0330 (((w.face f).arrs.getD u {}).rampWait)).modArr f u Arr.wake else w
    | _, _ => w) s

/-! ## Retirement -/

/-- The first transaction of a command that did not settle as accepted: its unit and code (R372, R116). -/
def Blk.failedTxn (b : Blk) (x : Flight) : Option (Nat × Nat) :=
  let l := (b.txnsOf x.id).filter (fun t => t.kind != .read && t.st != .accepted && t.st != .opened)
  let u := minOf (2 ^ 64) (l.map (·.unit))
  (l.find? (fun t => t.unit = u)).map fun t =>
    (u, if opOf x.cmd = 0x13 ∧ t.st = .refused then 0x0214 else t.st.code)

/-- The fault that a command ends in when all its transactions are settled: its own, or an earlier unit's. -/
def Blk.endFault (b : Blk) (x : Flight) : Option (Nat × Nat) :=
  match x.fault, b.failedTxn x with
  | some (c, n), some (u, d) => if u < n then some (d, u) else some (c, n)
  | some f, none => some f
  | none, some (u, d) => some (d, u)
  | none, none => none

/-- A command may retire now (R92): it is done, its transactions are settled, its comparator has nothing left to
test (R109), and a collective's ring lets it (R397). -/
def Blk.mayRetire (b : Blk) (x : Flight) : Bool :=
  x.phase == .done && (b.txnsOf x.id).all (fun t => t.st != .opened)
    && !(x.comp && b.bell.st.counts && decide (b.now > x.deadline.getD 0)) && (!isColl x.cmd || b.collRetires x)

/-- The saturation counts of a command's tiles (R103, R188, R203, R322). -/
def Flight.satCounts (x : Flight) : List Nat := if x.halves.isEmpty then [x.sat] else x.halves.map (·.sat)
/-- sat_flag and the count that set it (R103, R188). A later count above the threshold takes the place of one that has
set the flag already (log entry 109). -/
def Ctx.satWatch (c : Ctx) (threshold : Nat) (counts : List Nat) : Ctx :=
  match (counts.filter (fun n => decide (threshold ≠ 0) && decide (n > threshold))).getLast? with
  | some n => { c with satFlag := true, satCount := n }
  | none => c

/-- The status of a record (R120, R305). -/
def Flight.statusOf (x : Flight) : Nat := if x.status = 4 ∨ x.status = 2 then x.status else if x.late then 1 else 0

/-- The records of a retirement (R121). -/
def Work.retireRecs (w : Work) (x : Flight) : Work :=
  let st := x.statusOf
  if !fRec x.cmd ∧ st = 0 then w
  else if x.halves.isEmpty then w.writeRec x.q (flightRec w.toBlk x st 0 x.wm)
  else w.each x.halves.zipIdx fun w h => w.writeRec x.q (halfRec w.toBlk x st h.2 h.1)

/-- What retirement does beside its record, by command. -/
def Work.retireHooks (w : Work) (x : Flight) : Work :=
  ((((((w.retireCreate x).retireDrop x).retireMask x).retireSk20 x).retireOpt x).retireColl x).retireSecure x

/-- A command retires without fault: its effects, its record, its tag (R92, R115). -/
def Work.retireOk (w : Work) (x : Flight) : Work :=
  let w := w.retireHooks x
  let w := w.modCtx x.q fun c =>
    let c := if fSatWatch x.cmd then c.satWatch (w.struct.plan.num x.part).sat x.satCounts else c
    { c with grantFlag := c.grantFlag || decide (x.status = 4), lateFlag := c.lateFlag || w.censusMissed x }
  let w := (w.delFlight x.id).dropTxns x.id
  let w := w.retireRecs x
  if fSig x.cmd then w.tagAdd (tagOf x.cmd) 1 else w

/-- COMMAND_RETIRE (R92). -/
def execCommandRetire (q id : Nat) (s : State) : Host.Outcome State Fault Refusal :=
  runIf (q < Config.nCtxs) (fun w =>
    match w.flights.find? (fun x => x.id = id ∧ x.q = q) with
    | some x =>
      if !w.mayRetire x then w
      else match w.endFault x with
        | some (code, wm) => w.endFlight x code wm
        | none => w.retireOk x
    | none => w) s

/-! ## The deadline test -/

/-- Stop a running command after `units` units of progress (R110). A split tile has a number for each half, 65,536 ×
half 1's plus half 0's. -/
def Work.stopAfter (w : Work) (x : Flight) (units : Nat) : Work :=
  let l := some (units, 0x0210)
  match opOf x.cmd with
  | 0x20 | 0x21 | 0x22 | 0x23 => doMove x l w
  | 0x30 => doTileMm x (fun h => some (if mmSplit x.cmd then (if h = 0 then units % 2 ^ 16 else units / 2 ^ 16) else units,
      0x0210)) w
  | 0x31 => doTileMv x l w
  | 0x40 => doTileSp x l w
  | 0x41 => doMaskReg x l w
  | 0x50 => doGather x l w
  | 0x51 => doMerge x l w
  | 0x52 => doSegsort x l w
  | 0x60 => doVecOp x l w
  | 0x61 | 0x62 | 0x63 => doRow x l w
  | 0x64 => doOptStep x l w
  | 0x70 => doRoute x l w
  | 0x71 => doCensus x l w
  | _ => w

/-- The watermark of a command that is aborted after it has run: 0 for a command whose watermark is 0 at every fault (R124,
R148, R241, R315, R403), else what it has committed. -/
def Flight.abortWm (x : Flight) : Nat :=
  if x.cls = .seq ∨ x.cls = .tag ∨ x.cls = .desc ∨ (opOf x.cmd = 0x41 ∧ mrOp x.cmd = 2) ∨ opOf x.cmd = 0x71
    ∨ opOf x.cmd = 0x80 then 0 else x.wm

/-- A SECURE that copies stops at its next 4 KiB unit (R110, R469): the units of which no flit has left are not sent. The
first of them. -/
def Work.stopCopy (w : Work) (x : Flight) : Option Nat × Work :=
  let held := fun (id : Nat) => (w.ports.map (fun e => (e.2.held.filter (fun f => f.own == some id)).length)).sum
  let l := (w.txnsOf x.id).filter (fun t => t.kind == .secure && t.st == .opened && held t.id == flitCount t.len)
  let gone := fun (i : Nat) => l.any (fun t => t.id == i)
  match l.map (·.unit) with
  | [] => (none, w)
  | u :: us =>
    let w := w.dropHeld fun f => f.own.any gone
    (some (minOf u us), { w with txns := w.txns.filter (fun t => !gone t.id) })

/-- The fault of a command that is aborted after it has run: its own, unless it stops before that unit. -/
def Flight.abortFault (x : Flight) (stop : Option Nat) : Nat × Nat :=
  match stop, x.fault with
  | some u, some (c, n) => if n ≤ u then (c, n) else (0x0210, u)
  | some u, none => (0x0210, u)
  | none, f => f.getD (0x0210, x.abortWm)

/-- A command that has run is aborted at its deadline: it ends in 0x0210 or in the fault of an earlier unit, once its
transactions are settled (R110, R372). A split tile's halves that have reached their end write DONE (R187). -/
def Work.abortDone (w : Work) (x : Flight) : Work :=
  let c := w.stopCopy x
  let w := c.2
  let y := { x with fault := some (x.abortFault c.1) }
  if (w.txnsOf x.id).any (fun t => t.st == .opened) then w.modFlight x.id fun _ => y
  else if !x.halves.isEmpty then w.endHalves x (x.halves.zipIdx.map (fun h => (h.2, h.1))) 0x0210
  else match w.endFault y with
    | some (code, wm) => w.endFlight y code wm
    | none => w

/-- An issued command is aborted at its deadline (R110). -/
def Work.abortFlight (w : Work) (x : Flight) (units : Nat) : Work :=
  match x.phase with
  | .running _ =>
    if isColl x.cmd then w.collFault x 0x0210
    else
      let w := w.stopAfter x units
      match w.flight? x.id with
      | none => w.unhold x
      | some y =>
        if y.fault.isSome then w
        else if y.phase = .done then w.abortDone y
        else w.endFlight y 0x0210 0
  | .done | .sent => w.abortDone x
  | _ => w.endFlight x 0x0210 0

/-- DEADLINE_TEST (R109, R110), at bell D + 1 or later, of a command that still holds its comparator. -/
def execDeadlineTest (q id units : Nat) (s : State) : Host.Outcome State Fault Refusal :=
  runIf (q < Config.nCtxs) (fun w =>
    match w.flights.find? (fun x => x.id = id ∧ x.q = q) with
    | some x =>
      let d := x.deadline.getD 0
      if !(x.comp && w.bell.st.counts && decide (w.now > d)) then w
      else if (match x.stamp with | some t => decide (t ≤ d) | none => false) then
        w.modFlight id fun y => { y with comp := false }
      else
        let w := (w.modCtx q fun c => { c with lateFlag := true }).modFlight id fun y => { y with comp := false }
        if x.abort then w.abortFlight { x with comp := false } units
        else w.modFlight id fun y => { y with late := true }
    | none => w) s

/-! ## The overrun record -/

/-- OVERRUN_TALLY_RECORD (R85): the oldest record that waits for tally room is written once there is room. -/
def execOverrunTallyRecord (q : Nat) (s : State) : Host.Outcome State Fault Refusal :=
  runIf (q < Config.nCtxs) (fun w =>
    match (w.ctx q).owed with
    | r :: t => if (w.ctx q).tallyFree > w.reserved q ∧ !w.hbmShut (w.ctx q).tallyBase then (w.modCtx q fun c => { c with owed := t }).writeRec q r else w
    | [] => w) s

end Sys2Proof.Machine
end

