-- ==== Sys2Proof/Machine/Contexts.lean ====
section
/-! DEFINITION. Queue contexts (R79 to R89): fetch, doorbells, tally space, and the operations of DEV_QCTX_CTRL. -/

namespace Sys2Proof.Machine

/-! ## Fetch (R89) -/

/-- A context has commands that have not been fetched: of its ring, or of the subroutine that it is in, whose commands
need no doorbell (R101). -/
def Blk.hasUnfetched (b : Blk) (q : Nat) : Bool :=
  let c := b.ctx q
  c.st == .active && (b.part (b.partOf q)).st == .running && (!c.calls.isEmpty || decide (c.head < c.tail))
/-- A line of the context can be fetched now: a subroutine's next line when the last one has been used up. -/
def Blk.canFetch (b : Blk) (q : Nat) : Bool :=
  let c := b.ctx q
  b.hasUnfetched q && ((!c.calls.isEmpty && c.subBuf.isEmpty) || decide (c.head < c.tail))

/-- Slots that have emptied are freed, and contexts that wait take them in doorbell order. -/
def Face.fillSlots (f : Face) (ok : Nat → Bool) : Face :=
  let keep := f.slots.filter ok
  let wait := f.waiting.filter (fun q => ok q && decide (q ∉ keep))
  { f with slots := keep ++ wait.take (32 - keep.length), waiting := wait.drop (32 - keep.length) }

/-- The next context in turn after `last`, in ascending number. -/
def nextAfter (last : Nat) (l : List Nat) : Option Nat :=
  let up := l.filter (· > last)
  let from_ := if up.isEmpty then l else up
  match from_ with
  | [] => none
  | a :: t => some (t.foldl min a)

/-- The context that is fetched: of the highest priority that has one, the next in turn. -/
def Blk.pickFetch (b : Blk) (f : Face) : Option (Nat × Nat) :=
  ([3, 2, 1, 0].filterMap fun p =>
    (nextAfter (nth f.taken p) (f.slots.filter (fun q => (b.ctx q).prio = p && b.canFetch q))).map (fun q => (p, q))).head?

/-- Commands of a line from an address: up to four, to the end of the 64-byte line. One in an uncorrectable sector has no
bytes and carries the code (R441). -/
def Work.lineAt (w : Work) (a n : Nat) (pos : Nat → Nat) : List Fetched :=
  (List.range n).map fun i =>
    let bad := ((w.eccAt (a + 16 * i) 16).map (·.2)).getD 0
    ⟨if bad = 0 then w.num (a + 16 * i) 16 else 0, pos i, bad, w.dev.nextFetch + i⟩

/-- A line has been read for partition `p`: its errors are reported, its bytes charged, its commands numbered. -/
def Work.lineRead (w : Work) (p a n : Nat) : Work :=
  let l := a / 64 * 64
  ((w.reading p [(l, 64)]).eccMet l 64 0).modDev fun d => { d with nextFetch := d.nextFetch + n }

/-- Fetch one line for a context: of its subroutine when it is in one and has run dry, else of its ring. Ring commands
that a BRANCH_IF skips are consumed (R102). The spec does not say what a subroutine does that runs or skips to an
address outside the memory partition: nothing is fetched there, and the context stands still without a fault (log
entry 102). -/
def Work.fetchLine (w : Work) (q : Nat) : Work :=
  let c := w.ctx q
  let p := w.partOf q
  if !c.calls.isEmpty ∧ c.subBuf.isEmpty then
    if !w.inHbmPart p c.pc 16 then w
    else
      let n := 4 - c.pc / 16 % 4
      let l := w.lineAt c.pc n (fun i => c.pc + 16 * i)
      (w.modCtx q fun c => { c with subBuf := l, pc := c.pc + 16 * n }).lineRead p c.pc n
  else if c.head < c.tail then
    let n := min (c.tail - c.head) (4 - c.head % 4)
    let l := w.lineAt (c.ringBase + 16 * (c.head % 2 ^ c.ringLog2)) n (c.head + ·)
    let k := min c.skip n
    (w.modCtx q fun c => { c with buf := c.buf ++ l.drop k, head := c.head + n, skip := c.skip - k }).lineRead p
      (c.ringBase + 16 * (c.head % 2 ^ c.ringLog2)) n
  else w

/-- COMMAND_FETCH (R89): one line of one context of a face. -/
def execCommandFetch (f : Nat) (s : State) : Host.Outcome State Fault Refusal :=
  runIf (f < Config.nFaces) (fun w =>
    if (w.face f).resetting then w
    else
      let w := w.modFace f fun x => x.fillSlots w.hasUnfetched
      match w.pickFetch (w.face f) with
      | some (p, q) => (w.modFace f fun x => { x with taken := updAt x.taken p (fun _ => q) }).fetchLine q
      | none => w) s

/-- The contexts of a partition that have commands to fetch ask for a slot again: it has come back to RUNNING. -/
def Work.wakePart (w : Work) (p : Nat) : Work :=
  w.each (w.ctxs.filter (fun e => w.partOf e.1 == p && w.hasUnfetched e.1)) fun w e => w.wantFetch e.1

/-! ## Doorbells and tally space -/

/-- The value within 2^32 from `old` up whose low 32 bits are `low` (R85, R123). -/
def unwrap32 (old low : Nat) : Nat := old + (low + 2 ^ 32 - old % 2 ^ 32) % 2 ^ 32

/-- A doorbell (R85). -/
def Work.doorbell (w : Work) (q low : Nat) : Work :=
  let c := w.ctx q
  let tail := unwrap32 c.tail (low % 2 ^ 32)
  if c.st = .idle ∨ tail ≥ c.tail + 2 ^ 31 then w
  else if tail - c.head ≤ 2 ^ c.ringLog2 then (w.modCtx q fun c => { c with tail := tail }).wantFetch q
  else
    let w := w.oweRec q ⟨c.tail, w.now, 0, 3, c.shift.toNat, 0, 0x0205, 0, 0⟩
    let w := w.modCtx q fun c => { c with lastFault := 0x0205 }
    if c.st = .active then w.ctxState q .faulted else w

/-- DEV_DOORBELL (R85). -/
def execDevDoorbell (q tail : Nat) (s : State) : Host.Outcome State Fault Refusal :=
  runIf (q < Config.nCtxs) (fun w => w.doorbell q tail) s

/-- Tally space is returned (R123). -/
def Work.tallyAck (w : Work) (q low : Nat) : Work :=
  let n := unwrap32 (w.ctx q).consumed (low % 2 ^ 32)
  if n ≤ (w.ctx q).produced then w.modCtx q fun c => { c with consumed := n } else w
/-- DEV_TALLY_ACK (R123). -/
def execDevTallyAck (q consumed : Nat) (s : State) : Host.Outcome State Fault Refusal :=
  runIf (q < Config.nCtxs) (fun w => w.tallyAck q consumed) s

/-- DEV_TAG_SIGNAL (R118): a tag in no defined partition is ignored. -/
def Work.devTag (w : Work) (tag value : Nat) : Work :=
  if (w.struct.plan.partOfTag tag).isSome then w.tagAdd tag (value % 2 ^ 32) else w
def execDevTagSignal (tag value : Nat) (s : State) : Host.Outcome State Fault Refusal :=
  runIf (tag < Config.nTags) (fun w => w.devTag tag value) s

/-! ## DEV_QCTX_CTRL (R82 to R87) -/

/-- Reserved fields and ranges of a context table entry (R80). -/
def entryOk (l : List Nat) : Bool :=
  leAt l 6 2 == 0 && leAt l 11 1 == 0 && leAt l 22 2 == 0 && leAt l 25 7 == 0 && (l.drop 40).all (· == 0)
    && decide (leAt l 10 1 ≤ 3) && decide (6 ≤ leAt l 8 1) && decide (leAt l 8 1 ≤ 20)
    && decide (4 ≤ leAt l 24 1) && decide (leAt l 24 1 ≤ 20)
/-- Alignment and place of the rings and the writeback (R80, R81). -/
def Blk.entryPlaced (b : Blk) (p : Nat) (l : List Nat) : Bool :=
  let wb := leAt l 32 8
  leAt l 0 8 % 64 == 0 && leAt l 16 8 % 64 == 0 && wb % 16 == 0
    && b.inHbmPart p (leAt l 0 8) (16 * 2 ^ leAt l 8 1) && b.inHbmPart p (leAt l 16 8) (32 * 2 ^ leAt l 24 1)
    && (wb == 0 || b.inHbmPart p wb 16)

/-- The entry of context `q` of partition `p`. -/
def Work.ctxEntry (w : Work) (p q : Nat) : List Nat :=
  w.bytes ((w.part p).qctxTable + 64 * (q - w.struct.plan.ctxBase p)) 64

/-- A failed arm (R84). -/
def Work.armFails (w : Work) (q code : Nat) : Work := w.modCtx q fun c => { c with lastFault := code }

/-- Arm a context (R84): the checks in order; on success it starts at the entry's values. An entry that lies in an
uncorrectable sector gives no data, and the arm fails with that code (R441, log entry 90); under repair access the
table cannot be read, and the arm has no effect (R447, log entry 103). -/
def Work.armCtx (w : Work) (q : Nat) : Work :=
  match w.struct.plan.partOfCtx q with
  | none => w.armFails q 0x0220
  | some p =>
    let at_ := (w.part p).qctxTable + 64 * (q - w.struct.plan.ctxBase p)
    let ecc := ((w.eccAt at_ 64).map (·.2)).getD 0
    if (w.ctx q).st ≠ .idle then w.armFails q 0x0224
    else if w.hbmShut at_ then w
    else if ecc ≠ 0 then ((w.reading p [(at_, 64)]).eccMet at_ 64 0).armFails q ecc
    else
      let l := w.ctxEntry p q
      let face := leAt l 9 1
      let w := w.reading p [(at_, 64)]
      let code := firstCode [codeUnless (entryOk l) 0x0223,
        codeUnless (decide (face < Config.nFaces) && w.struct.plan.partOfFace face == some p) 0x0221,
        codeUnless (w.entryPlaced p l) 0x0222]
      if code ≠ 0 then w.armFails q code
      else
        let w := w.modCtx q fun c =>
          { face := face, prio := leAt l 10 1, ringBase := leAt l 0 8, ringLog2 := leAt l 8 1, tallyBase := leAt l 16 8,
            tallyLog2 := leAt l 24 1, wb := leAt l 32 8, shift := BitVec.ofNat 32 (leAt l 12 4), satFlag := c.satFlag,
            lateFlag := c.lateFlag, grantFlag := c.grantFlag, satCount := c.satCount, lastFault := c.lastFault,
            secSet := c.secSet }
        w.ctxState q .active
/-- ARM (R84). -/
def execArm (q : Nat) (s : State) : Host.Outcome State Fault Refusal := runIf (q < Config.nCtxs) (fun w => w.armCtx q) s

/-- Stop (R86). -/
def Work.stopCtx (w : Work) (q : Nat) : Work := if (w.ctx q).st = .active then w.ctxState q .stopping else w
/-- STOP (R86). -/
def execStop (q : Nat) (s : State) : Host.Outcome State Fault Refusal := runIf (q < Config.nCtxs) (fun w => w.stopCtx q) s

/-- A context may be resumed or disarmed. -/
def Ctx.halted (c : Ctx) : Bool := c.st == .stopped || c.st == .faulted
/-- Resume (R87): after a command fault from the ring command that faulted or the one after it; otherwise with the
first command not yet issued. A BOUNDS that applied to the command fetched again is not fetched with it and no longer
stands, so that the retry runs unbounded (log entry 104). -/
def Work.resumeCtx (w : Work) (q skip : Nat) : Work :=
  if !(w.ctx q).halted then w
  else
    let w := w.modCtx q fun c => match c.faultSeq with
      | some n => { c with head := n + skip, buf := [], skip := 0, calls := [], subBuf := [], bound := none, faultSeq := none }
      | none => c
    (w.ctxState q .active).wantFetch q
/-- RESUME_RETRY (R87). -/
def execResumeRetry (q : Nat) (s : State) : Host.Outcome State Fault Refusal :=
  runIf (q < Config.nCtxs) (fun w => w.resumeCtx q 0) s
/-- RESUME_SKIP (R87). -/
def execResumeSkip (q : Nat) (s : State) : Host.Outcome State Fault Refusal :=
  runIf (q < Config.nCtxs) (fun w => w.resumeCtx q 1) s

/-- Disarm (R86): records still owed are discarded (R85). Commands of the context that have issued and not retired go on
to retirement, and write into the rings that the context has then (log entry 106). -/
def Work.disarmCtx (w : Work) (q : Nat) : Work :=
  if (w.ctx q).halted then (w.modCtx q fun c => { c with owed := [] }).ctxState q .idle else w
/-- DISARM (R86). -/
def execDisarm (q : Nat) (s : State) : Host.Outcome State Fault Refusal :=
  runIf (q < Config.nCtxs) (fun w => w.disarmCtx q) s

/-- STOPPING_DRAINED (R86): every issued command of a stopping context has retired. -/
def execStoppingDrained (q : Nat) (s : State) : Host.Outcome State Fault Refusal :=
  runIf (q < Config.nCtxs) (fun w =>
    if (w.ctx q).st = .stopping ∧ (w.flightsOf q).isEmpty then w.ctxState q .stopped else w) s

/-- A write to DEV_QCTX_CTRL (R133). -/
def Work.qctxCtrl (w : Work) (op q : Nat) : Work :=
  match op with
  | 1 => w.armCtx q
  | 2 => w.stopCtx q
  | 3 => w.resumeCtx q 0
  | 4 => w.resumeCtx q 1
  | 5 => w.disarmCtx q
  | _ => w

end Sys2Proof.Machine
end

