-- ==== Sys2Proof/Machine/Marks.lean ====
section
/-! DEFINITION. The shift mark and its audit (R51, R126 to R128). -/

namespace Sys2Proof.Machine

/-- The credit books of a port balance (R126). -/
def Port.creditsOk (p : Port) : Bool := (List.range 4).all (fun v => nth p.avail v + nth p.infl v == creditGrant v)
/-- The credit books of every port that is up. -/
def Blk.creditsOk (b : Blk) : Bool := b.ports.all (fun e => e.2.st != .up || e.2.creditsOk)

/-- Remote tag signals of a partition in flight. -/
def Blk.tagsInFlight (b : Blk) (p : Nat) : List Txn := b.txns.filter (fun t => t.kind = .tag ∧ t.st = .opened ∧ t.src = p)
def Blk.tagsOk (b : Blk) (p : Nat) : Bool := (b.part p).tagIssued == (b.part p).tagAcked + (b.tagsInFlight p).length

/-- The queue books of a context: counts in order, and no more open than its rings hold. -/
def Ctx.queueOk (c : Ctx) : Bool :=
  c.st == .idle || (decide (c.head ≤ c.tail) && decide (c.tail - c.head ≤ 2 ^ c.ringLog2) && decide (c.buf.length ≤ c.head)
    && decide (c.consumed ≤ c.produced) && decide (c.produced - c.consumed ≤ 2 ^ c.tallyLog2))
/-- The contexts of a partition. -/
def Blk.ctxsOf (b : Blk) (p : Nat) : List (Nat × Ctx) := b.ctxs.filter (fun e => b.struct.plan.partOfCtx e.1 = some p)

/-- Shift `x` is at or before `s − 2`. -/
def closedBy (x s : W32) : Bool := decide ((s - 2 - x).toNat < 2 ^ 31)
/-- A context holds commands that have not issued. -/
def Ctx.unissued (c : Ctx) : Bool := c.st != .idle && (!c.buf.isEmpty || decide (c.head < c.tail) || !c.calls.isEmpty)
/-- The closure rules of commands and tag signals (R126). -/
def Blk.closureOk (b : Blk) (p : Nat) (s : W32) : Bool :=
  (b.flights.filter (fun x => x.part = p)).all (fun x => !closedBy x.shift s)
    && (b.tagsInFlight p).all (fun t => !closedBy t.shift s)
    && (b.ctxsOf p).all (fun e => !(e.2.unissued && closedBy e.2.shift s))

/-- The first failing code of an audit, or 0 (R127). -/
def Blk.auditCode (b : Blk) (p : Nat) (s : W32) (tokens : Nat) : Nat :=
  firstCode [codeUnless b.creditsOk 0x0260, codeUnless (b.tagsOk p) 0x0261, if tokens = 0x0262 then 0x0262 else 0,
    codeUnless ((b.ctxsOf p).all (fun e => e.2.queueOk)) 0x0263,
    codeUnless (b.closureOk p s && tokens != 0x0264) 0x0264]

/-- The mark that opens the 64-bit shift `k` of partition `p` (R51, R127, R474). The snapshot of its audit is taken when the
mark tick ends. -/
def Work.openShift (w : Work) (p k : Nat) : Work :=
  w.modPart p fun y => { y with
    marked := true, markShift := k, dropped := setBit y.dropped (u32 k % 4) false
    audit := { pending := true, taking := true, shift := k, code := 0 } }

/-- The snapshot of a partition's books as they stand at the end of the mark tick, and what its checks find; the book of
s − 2 closes (R127, R318). -/
def Work.snapshot (w : Work) (p : Nat) : Work :=
  let a := (w.part p).audit
  if !a.taking then w
  else
    let code := w.auditCode p (BitVec.ofNat 32 a.shift) (w.auditBooks p (u32 a.shift))
    (w.closeBooks p (u32 a.shift)).modPart p fun y => { y with audit := { y.audit with taking := false, code := code } }

/-- The tick is the mark of shift `k` of partition `p` (R51). -/
def Blk.isMark (b : Blk) (p k : Nat) : Bool :=
  match b.struct.plan.mark p with
  | none => false
  | some (phase, period) => b.now == phase + k * period

/-- SHIFT_MARK (R51): the mark of the shift that opens at this tick, once. -/
def Work.shiftMark (w : Work) (p : Nat) : Work :=
  match w.lastShiftPast p 0 0 with
  | some k =>
    let y := w.part p
    if w.bell.st.counts ∧ w.isMark p k ∧ (!y.marked ∨ k ≠ y.markShift) then w.openShift p k else w
  | none => w

/-- DEV_AUDIT_DETAIL (R133). -/
def Dev.auditDetail (d : Dev) : Nat := d.auditShift * 2 ^ 32 + b2n d.auditReset * 2 ^ 24 + d.auditPart * 2 ^ 16 + d.auditCode

/-- An audit has failed (R128): the detail is that of the first failure since no bit was set (log entry 34). -/
def Work.auditFails (w : Work) (p : Nat) (a : Audit) : Work :=
  let seen := (w.part p).resetSeen
  let w := w.modDev fun d =>
    if d.auditFailed = 0 then
      { d with auditFailed := setBit d.auditFailed p true, auditCode := a.code, auditPart := p, auditReset := seen,
               auditShift := u32 a.shift }
    else { d with auditFailed := setBit d.auditFailed p true }
  ((w.w1cMark (Config.devBase + 0x390) (2 ^ p)).canaryAdd p 8 1).raise 1 p a.code (u32 a.shift) (leBytes 8 w.dev.auditDetail)

/-- AUDIT_COMPLETE (R127, R128): the audit of a snapshot that has been taken ends. A reset between the snapshot and this
counts as one since the previous audit, and is not seen by the next (log entry 135). -/
def execAuditComplete (p : Nat) (s : State) : Host.Outcome State Fault Refusal :=
  runIf (p < Config.nParts) (fun w =>
    let a := (w.part p).audit
    if !a.pending || a.taking then w
    else
      let w := if a.code = 0 then w else w.auditFails p a
      w.modPart p fun y => { y with audit := { y.audit with pending := false }, resetSeen := false }) s

end Sys2Proof.Machine
end

