-- ==== Sys2Proof/Machine/Bell.lean ====
section
/-! DEFINITION. Bell time (11_fabric_and_bell.md): the election of a master, the upstream, PTP, and the bell states of
R386. Spans are counted on the span clock (R388). -/

namespace Sys2Proof.Machine

/-- R393. -/
def BellState.code : BellState → Nat
  | .unsync => 0 | .acquiring => 1 | .locked => 2 | .holdover => 3 | .freerun => 4 | .unaligned => 5

/-- BELL_STATUS (R393). -/
def Bell.status (b : Bell) : Nat :=
  b.lastCode * 2 ^ 48 + b.master * 2 ^ 40 + b.hops * 2 ^ 32 + b.upstream * 2 ^ 26 + b2n b.masterValid * 2 ^ 8
    + b2n b.far * 2 ^ 7 + b2n b.lapsed * 2 ^ 6 + b2n b.mismatch * 2 ^ 5 + b2n b.ptpLocked * 2 ^ 4 + b2n b.isMaster * 2 ^ 3
    + b.st.code

/-- A change of bell state, with its event (R501). -/
def Work.bellTo (w : Work) (st : BellState) (code : Nat) : Work :=
  if w.bell.st = st then w
  else
    let w := w.modBell fun b => { b with st := st, since := w.clk.span }
    w.raise 8 0xFF code 0 (leBytes 8 w.bell.status)

/-- Bell time takes a value and counts from there (R387). -/
def Work.bellLoad (w : Work) (t : Nat) : Work :=
  { w with clk := { w.clk with bell := u64 t }, bell := { w.bell with loaded := u64 t, ppm := 0, frac := 0 } }

/-- The bell's rate is set against an offset: by `full` ppm, or by some amount of at most 100 ppm, which is not stated (R383,
R384, log entry 118). -/
def Work.slew (w : Work) (off : Int) (full : Option Nat) : Work :=
  let k := w.fresh
  k.2.modBell fun b => { b with ppm := -off.sign * ((full.getD (Config.freeNat 10 k.1 % 101) : Nat) : Int) }

/-! ## Events of the template -/

/-- The tick is one at which an event at offset `off` of partition `p` fires (R51, R387). -/
def Blk.firesNow (b : Blk) (p off : Nat) : Bool :=
  match b.struct.plan.mark p with
  | none => false
  | some (phase, period) => b.bell.st.counts && decide (b.now > b.bell.loaded) && decide (b.now ≥ phase + off)
      && (b.now - phase - off) % period == 0

/-- The tick lies in the span from `before` ticks before an event at offset `off` of partition `p` to `after` ticks after
it, both ends included. -/
def Blk.aroundEvent (b : Blk) (p off before after : Nat) : Bool :=
  match b.struct.plan.mark p with
  | none => false
  | some (phase, period) => b.bell.st.counts && decide (b.now + before ≥ phase + off)
      && decide ((b.now + before - phase - off) % period ≤ before + after)

/-- R377: the port's own template schedules a move near this tick. -/
def Blk.moving (b : Blk) (n : Nat) : Bool :=
  b.struct.plan.bell.any (fun e => e.kind == 3 && e.arg0 == n && b.aroundEvent e.part e.off 256 2048)

/-! ## The master (R382) -/

/-- A candidate: lock class, priority, position. -/
abbrev Rank := Nat × Nat × Nat

/-- R382: the first ranks above the second. -/
def Rank.above (a b : Rank) : Bool :=
  decide (a.1 > b.1) || (a.1 == b.1 && (decide (a.2.1 > b.2.1) || (a.2.1 == b.2.1 && decide (a.2.2 < b.2.2))))

/-- The device itself as a candidate. -/
def Blk.ownRank (b : Blk) : Option Rank :=
  if b.struct.plan.dev.prio = 0 then none else some (if b.bell.ptpLocked then 2 else 1, b.struct.plan.dev.prio, b.ownPos)

/-- The entries heard in the last 4,096 ticks, of positions that are not lost. -/
def Blk.heardCands (b : Blk) : List (Nat × Cand) :=
  b.bell.cands.filter (fun e => decide (b.clk.span - e.2.heard < 4096) && !b.isLost (e.1 / 64) && e.1 / 64 != b.ownPos)

/-- The candidates now: each position as last heard, and the device itself. -/
def Blk.candidates (b : Blk) : List Rank :=
  let l := b.heardCands
  b.ownRank.toList ++ (l.filter (fun e => l.all (fun o => o.1 / 64 != e.1 / 64 || decide (o.2.heard ≤ e.2.heard)))).map
    (fun e => (e.2.lockClass, e.2.priority, e.1 / 64))

/-- The best of a list. -/
def bestRank : List Rank → Option Rank
  | [] => none
  | a :: l => match bestRank l with
    | none => some a
    | some b => some (if Rank.above b a then b else a)

/-- The master after the rule of R382. -/
def Blk.electMaster (b : Blk) : Option Nat :=
  let l := b.candidates
  match bestRank l with
  | none => none
  | some best =>
    if b.bell.masterValid then
      match l.find? (fun r => r.2.2 == b.bell.master) with
      | some r => some (if best.1 > r.1 then best.2.2 else b.bell.master)
      | none => some best.2.2
    else some best.2.2

/-! ## The upstream (R384) -/

/-- The entries heard on ports that can be an upstream: (port, hop count to the master). -/
def Blk.upstreams (b : Blk) : List (Nat × Nat) :=
  (b.heardCands.filter (fun e => e.1 / 64 == b.bell.master
    && (b.port (e.1 % 64)).st == .up && ((b.port (e.1 % 64)).role == 1 || (b.port (e.1 % 64)).role == 2))).map
    (fun e => (e.1 % 64, e.2.hops))

/-- The one of least hop count, then of lowest port. -/
def leastHops : List (Nat × Nat) → Option (Nat × Nat)
  | [] => none
  | a :: l => match leastHops l with
    | none => some a
    | some b => some (if b.2 < a.2 || (b.2 == a.2 && decide (b.1 < a.1)) then b else a)

/-- Take the upstream of R384; a device that has lost it, or its master, starts the time of R386. -/
def Work.chooseUp (w : Work) : Work :=
  if w.bell.isMaster then
    w.modBell fun b => { b with upstream := 0x3F, hops := 0, far := false, upLost := none }
  else match (if w.bell.masterValid then leastHops w.upstreams else none) with
  | some (n, h) =>
    let far := decide (h + 1 > 16)
    w.modBell fun b => { b with
      upstream := n, hops := min (h + 1) 0xFF, far := far, upLost := none
      lastCode := if far && !b.far then 0x061A else b.lastCode }
  | none => w.modBell fun b => { b with
      upstream := 0x3F, upLost := if b.upLost.isSome then b.upLost else some w.clk.span }

/-- Elect the master and take the upstream. -/
def Work.elect (w : Work) : Work :=
  let m := w.electMaster
  let own := decide (m = some w.ownPos)
  (w.modBell fun b => { b with
    master := m.getD 0, masterValid := m.isSome, isMaster := own, ptpLocked := b.ptpLocked && own }).chooseUp

/-! ## Rows of PTP and of time -/

/-- The host ports on which the PTP client listens (R393). -/
def ptpOn (sel port : Nat) : Bool := sel == port || (sel == 2 && decide (port < 2))

/-- A PTP message is one that the client listens to: port, domain and transport are those of BELL_CTRL (R383, R393). -/
def Bell.hearsPtp (b : Bell) (port domain : Nat) (ipv6 : Bool) : Bool :=
  ptpOn b.ptpPort port && b.ptpDomain == domain && b.ptpIpv6 == ipv6

/-- The slave clock may ask for the delay after any message (R383): when it does is not stated (log entry 32). -/
def Work.ptpAsk (w : Work) (port : Nat) : Work :=
  let k := w.fresh
  if Config.freeNat 11 k.1 % 2 = 0 then k.2
  else
    let f := k.2.anyFrame
    (f.2.hostCtr port 0x18 f.1).emit (.ptp port)

/-- PTP_MESSAGE (R383, R386): the master's clock locks, loads bell time or slews. -/
def execPtpMessage (port domain : Nat) (ipv6 locked : Bool) (ptpNs offset : Nat) (s : State) :
    Host.Outcome State Fault Refusal :=
  runIf (port < 2) (fun w =>
    if !w.boot.st.lit then w
    else
      let k := w.anyFrame
      let w := (k.2.hostIn port k.1).elect
      if !w.bell.isMaster || !w.bell.hearsPtp port domain ipv6 then w
      else if !locked then w.ptpAsk port
      else
        let w := w.ptpAsk port
        let w := (w.modBell fun b => { b with ptpLocked := true, ptpOffset := BitVec.ofNat 64 offset }).elect
        let off := (BitVec.ofNat 64 offset).toInt
        match w.bell.st with
        | .unsync =>
          if ptpNs ≥ w.bell.epoch.toNat then (w.bellLoad ((ptpNs - w.bell.epoch.toNat) / 4)).bellTo .locked 0 else w
        | .freerun => (w.slew off (some 100)).bellTo .locked 0
        | .locked => w.slew off none
        | _ => w) s

/-- PTP_LOCK_LOSS (R383). -/
def execPtpLockLoss (s : State) : Host.Outcome State Fault Refusal :=
  run (fun w => (w.modBell fun b => { b with ptpLocked := false }).elect) s

/-- FREERUN_TIMEOUT (R386). -/
def execFreerunTimeout (s : State) : Host.Outcome State Fault Refusal :=
  run (fun w =>
    let w := w.elect
    if w.bell.st = .unsync ∧ w.bell.isMaster ∧ !w.bell.ptpLocked ∧ w.clk.span ≥ w.bell.since + 2500000 then
      (w.bellLoad 0).bellTo .freerun 0
    else w) s

/-- MASTER_TIMEOUT (R382). -/
def execMasterTimeout (s : State) : Host.Outcome State Fault Refusal := run (fun w => w.elect) s

/-- UPSTREAM_RESELECT_TIMEOUT (R384, R386). -/
def execUpstreamReselectTimeout (s : State) : Host.Outcome State Fault Refusal :=
  run (fun w =>
    let w := w.elect
    match w.bell.upLost with
    | some t => if w.bell.st = .locked ∧ w.clk.span ≥ t + 1024 then w.bellTo .holdover 0 else w
    | none => w) s

/-- Alignment has lapsed (R386). -/
def Work.lapse (w : Work) : Work :=
  (w.modBell fun b => { b with lapsed := true, lastCode := 0x0619 }).bellTo .unaligned 0x0619

/-- HOLDOVER_TIMEOUT (R386). -/
def execHoldoverTimeout (s : State) : Host.Outcome State Fault Refusal :=
  run (fun w => if w.bell.st = .holdover ∧ w.clk.span ≥ w.bell.since + 65536 then w.lapse else w) s

/-! ## Heartbeats (R375, R384) -/

/-- The payload of a heartbeat: fields in the order of R375. -/
def Blk.heartbeatBytes (b : Blk) (p : Port) : List Nat :=
  let c := match bestRank b.candidates with
    | none => [0, 0, 0, 0]
    | some r =>
      let hops := if r.2.2 = b.ownPos then 0
        else minOf 0xFF ((b.heardCands.filter (fun e => e.1 / 64 == r.2.2)).map (fun e => e.2.hops + 1))
      [r.1, r.2.1, r.2.2, hops]
  [b.ownPos, b.struct.plan.dev.prio] ++ c
    ++ (if b.bell.st.counts then leBytes 8 b.now ++ [0] ++ leBytes 8 p.rxHb.1 ++ leBytes 8 p.rxHb.2 else List.replicate 25 0)

/-- HEARTBEAT_SEND (R375, R388). -/
def Work.heartbeatSend (w : Work) : Work :=
  if (if w.bell.st.counts then w.now % 256 != w.struct.plan.heartbeat else w.clk.lease % 256 != 0) then w
  else w.each ((List.range Config.nPorts).filter (fun n => (w.port n).st == .up)) fun w n =>
    let p := w.port n
    w.sendFlit n
      { type := 7, vc := 0, dst := if p.role = 3 then 0 else p.peerPos, part := 0, txn := 0, addr := 0
        data := w.heartbeatBytes p, far := p.role == 3 }

/-- The bell takes its time from a heartbeat of the upstream (R381, R384 to R386). -/
def Work.discipline (w : Work) (n : Nat) (h : Heartbeat) : Work :=
  let p := w.port n
  match w.bell.st with
  | .unsync => w.bellTo .acquiring 0
  | .acquiring =>
    if p.peerEpoch ≠ w.bell.epoch.toNat % 2 ^ 32 then
      w.modBell fun b => { b with mismatch := true, lastCode := 0x0618 }
    else
      let w := w.modBell fun b => { b with mismatch := false }
      if h.counts then (w.bellLoad (h.bellT + (h.sixteenths + p.delay.toNat) / 16)).bellTo .locked 0 else w
  | st =>
    if !h.counts then w
    else
      let off : Int := (h.arrival : Int) - (16 * h.bellT + h.sixteenths + p.delay.toNat : Nat)
      let w := w.modBell fun b => { b with upOffset := BitVec.ofInt 64 off }
      match st with
      | .holdover =>
        if off.natAbs ≤ 32 then (w.slew off none).bellTo .locked 0 else if off.natAbs > 1024 then w.lapse else w
      | .locked | .freerun => w.slew off none
      | _ => w

/-- The candidates that a heartbeat names (R375, R382): the sender itself, and the best that it knows. The sender's own lock
class stands in no field: it is that of the best candidate where the two are one, else the one last heard for the position (log
entry 147). -/
def Work.hearCands (w : Work) (n : Nat) (h : Heartbeat) : Work :=
  let cls := ((w.bell.cands.find? (fun e => e.1 / 64 == h.position)).map (·.2.lockClass)).getD 1
  let w := if h.priority = 0 ∨ h.position = w.ownPos then w
    else w.modBell fun b => { b with cands := b.cands.set {} (64 * h.position + n) ⟨cls, h.priority, 0, w.clk.span⟩ }
  match h.cand with
  | some (cls, prio, pos, hops) => w.modBell fun b => { b with
      cands := b.cands.set {} (64 * pos + n) ⟨cls, prio, hops, w.clk.span⟩ }
  | none => w

/-- HEARTBEAT_RECEIVE (R362, R375, R382, R384, R388). -/
def execHeartbeatReceive (n : Nat) (l : LinkIn) (h : Heartbeat) (s : State) : Host.Outcome State Fault Refusal :=
  onUp n 0 7 1 l (fun w =>
    let w := w.modPort n fun p => { p with hbAt := w.clk.span }
    if (w.port n).role = 3 then w
    else
      let t3 := 16 * h.bellT + h.sixteenths
      let delay : Int := (((h.arrival : Int) - h.lastDeparture) - ((t3 : Int) - h.lastArrival)) / 2
      let w := if h.counts then w.modPort n fun p => { p with
        rxHb := (t3, h.arrival), delay := BitVec.ofInt 64 (max 0 delay) } else w
      let w := (w.hearCands n h).elect
      if w.bell.upstream = n then w.discipline n h else w) s

end Sys2Proof.Machine
end

