-- ==== Sys2Proof/Machine/Fabric.lean ====
section
/-! DEFINITION. The fabric (11_fabric_and_bell.md): link states and training, the points, transactions and flits that
arrive, forwarding, and losing a peer. Spans are counted on the span clock (R388). -/

namespace Sys2Proof.Machine

/-! ## What goes on -/

/-- What a negative acknowledgement settles its transaction as (R372, R373, R441). -/
def NakReason.outcome : NakReason → TxnSt
  | .refused => .refused | .uncorrectable => .uncorrectable | .unreachable => .unreachable | .pathLost => .lost

/-- A negative acknowledgement for a transit flit (R370, R373). -/
def Work.nakTransit (w : Work) (fl : TransitFlit) (why : NakReason) : Work :=
  w.sendCtl 5 fl.src fl.part fl.txn (NakReason.bytes why)

/-- A transit flit that came in by port `n` goes on by port `k`, or waits there for a credit (R369, R370). -/
def Work.passOn (w : Work) (k n : Nat) (fl : TransitFlit) : Work :=
  (w.modPort k fun p => { p with
    transit := p.transit ++ [⟨fl, w.clk.span, n, p.queued⟩], queued := p.queued + 1 }).flushPort k

/-! ## Losing a position (R376, R378) -/

/-- A loss notice to every UP port of the management or data role. -/
def Work.sendNotices (w : Work) (p tLoss declarer : Nat) : Work :=
  w.each ((List.range Config.nPorts).filter (fun n => (w.port n).st == .up && ((w.port n).role == 1 || (w.port n).role == 2)))
    fun w n => w.sendFlit n
      { type := 8, vc := 0, dst := (w.port n).peerPos, part := 0, txn := 0, addr := 0
        data := [p] ++ leBytes 8 tLoss ++ [declarer] }

/-- Declare position `p` lost, or hear of it again (R376). -/
def Work.declareLost (w : Work) (p tLoss declarer : Nat) : Work :=
  let w := w.w1cMark (Config.fabBase + 0xC00 + 8 * (p / 64)) (2 ^ (p % 64))
  if w.isLost p then
    if tLoss < Tab.get 0 w.fab.tLoss p then
      (w.modFab fun f => { f with
        tLoss := f.tLoss.set 0 p tLoss, lossLastAt := if f.lossLastPos = p then tLoss % 2 ^ 56 else f.lossLastAt }).sendNotices
        p tLoss declarer
    else w
  else
    let w := w.modFab fun f => { f with
      lost := setBit f.lost p true, lossLastPos := p, lossLastAt := tLoss % 2 ^ 56, tLoss := f.tLoss.set 0 p tLoss }
    let w := w.answerAll (fun t => t.dst == p) .lost
    let w := w.raise 2 0xFF 0 0 ([p, 0, 0, 0, 0, 0, 0, 0] ++ leBytes 8 tLoss)
    let w := w.sendNotices p tLoss declarer
    (w.breakRings p).elect

/-- FAB_LOST_CLEAR (R378): writing 1 to a bit of FAB_LOST_i clears it. -/
def Work.clearLost (w : Work) (i value : Nat) : Work :=
  w.each ((List.range 64).filter (bit (w.w1cClears (Config.fabBase + 0xC00 + 8 * i) value))) fun w j =>
    w.modFab fun f => { f with
      lost := setBit f.lost (64 * i + j) false, bounded := setBit f.bounded (64 * i + j) false
      tLoss := f.tLoss.set 0 (64 * i + j) 0 }

def execFabLostClear (i value : Nat) (s : State) : Host.Outcome State Fault Refusal :=
  runIf (i < 4) (fun w => w.clearLost i value) s

/-! ## A port leaves UP (R358, R366, R373 to R377) -/

/-- Credits, replay buffer and egress queue of a port are discarded (R366, R373). -/
def Port.emptied (p : Port) : Port :=
  { p with avail := [0, 0, 0, 0], infl := [0, 0, 0, 0], replay := [], held := [], transit := [], owed := [0, 0, 0, 0]
           slots := 0, share := [], served := [], idleOnly := false }
/-- A waiting flit whose port has left UP holds no credit of the port's next training any more. -/
def CollIn.unbind (n : Nat) (c : CollIn) : CollIn :=
  if c.port ≠ n then c else c.free
/-- The credits of a port's grant are discarded (R366): flits of it that wait, for their command or at another port, return
none to the grant that follows. -/
def Work.unbindPort (w : Work) (n : Nat) : Work :=
  ({ w with collIn := w.collIn.map (CollIn.unbind n) } : Work).each (w.ports.map (·.1)) fun w k => w.modPort k fun p => { p with
    transit := p.transit.map fun t => if t.from_ = n then { t with from_ := Config.nPorts } else t }
/-- Transit flits that a port discards are answered, and those of them that waited free their buffers (R373). -/
def Work.dropTransit (w : Work) (sent : List TransitFlit) (waited : List Waiting) : Work :=
  (w.each sent fun w f => w.nakTransit f .pathLost).each waited fun w t => (w.owe t.from_ t.fl.vc 1).nakTransit t.fl .pathLost

/-- The device's own transactions by the port are lost, and the sources of its transit flits hear it (R373). -/
def Work.pathLost (w : Work) (n : Nat) : Work :=
  let p := w.port n
  let w := (w.modPort n Port.emptied).unbindPort n
  (w.answerAll (fun t => bit t.ports n) .lost).dropTransit (p.replay.filterMap (·.transit)) p.transit

/-- A port that left UP by a planned move will not carry what waits in its queue: this is lost, and nothing else (R373,
R377). -/
def Work.queueLost (w : Work) (n : Nat) : Work :=
  let p := w.port n
  ((w.modPort n Port.emptied).answerAll (fun t => p.held.any (fun f => f.own == some t.id)) .lost).dropTransit [] p.transit

/-- Move a port to another link state. -/
def Work.portTo (w : Work) (n : Nat) (st : Link) : Work := w.modPort n fun p => { p with st := st, since := w.clk.span }
/-- FAULTED with a code (R391). -/
def Work.portFault (w : Work) (n code : Nat) : Work := (w.modPort n fun p => { p with lastFault := code }).portTo n .faulted

/-- An UP port goes DOWN and at once to SEEK (R358): what went by it is lost, its peer is declared lost where no other
UP port has it (R376), and the bell looks for another upstream. -/
def Work.portDown (w : Work) (n : Nat) : Work :=
  let p := w.port n
  let w := (w.portTo n .seek).pathLost n
  let other := (List.range Config.nPorts).any (fun k => k != n && (w.port k).st == .up && (w.port k).peerValid
    && (w.port k).peerPos == p.peerPos)
  let w := if p.peerValid && !other then w.declareLost p.peerPos w.now w.ownPos else w
  w.elect

/-- LOSS_OF_LIGHT (R374, R377). -/
def execLossOfLight (n : Nat) (s : State) : Host.Outcome State Fault Refusal :=
  runIf (n < Config.nPorts) (fun w =>
    if (w.port n).st = .up ∧ !w.moving n then (w.portCtr n 0x50 1).portDown n else w) s

/-- HEARTBEAT_LOSS (R375, R377). -/
def execHeartbeatLoss (n : Nat) (s : State) : Host.Outcome State Fault Refusal :=
  runIf (n < Config.nPorts) (fun w =>
    if (w.port n).st = .up ∧ w.clk.span ≥ (w.port n).hbAt + 4100 ∧ !w.moving n then (w.portCtr n 0x58 1).portDown n else w) s

/-- LOSS_NOTICE_RECEIVE (R376, R362). -/
def execLossNoticeReceive (n : Nat) (l : LinkIn) (lost tLoss declarer : Nat) (s : State) : Host.Outcome State Fault Refusal :=
  onUp n 0 8 1 l (fun w =>
    if lost < 256 then w.declareLost lost (if w.bell.st.counts then min w.now tLoss else tLoss) declarer else w) s

/-! ## The points (R356, R357, R377, R379) -/

/-- The POINTS_SWITCH events of partition `p` that move a port to the pair it is not on. -/
def Blk.moves (b : Blk) (p n : Nat) : List BellRec :=
  b.struct.plan.bell.filter (fun e => e.kind == 3 && e.part == p && e.arg0 == n && e.arg1 != (b.port n).pair)

/-- POINTS_PRE_IDLE (R357). -/
def execPointsPreIdle (p port : Nat) (s : State) : Host.Outcome State Fault Refusal :=
  runIf (p < Config.nParts && port < Config.nPorts) (fun w =>
    if (w.port port).st = .up ∧ (w.moves p port).any (fun e => w.aroundEvent p e.off 256 0 && !w.firesNow p e.off) then
      w.modPort port fun y => { y with idleOnly := true }
    else w) s

/-- The points of a port move as planned: a transaction with a flit that the link has not confirmed, or that waits here, is
lost (R357), and the port retrains on the new pair. -/
def Work.switchPoints (w : Work) (n pair : Nat) : Work :=
  let p := w.port n
  let hit := fun (id : Nat) => p.replay.any (fun r => r.own == some id) || p.held.any (fun f => f.own == some id)
  let w := (w.answerAll (fun t => hit t.id) .lost).dropHeld fun f => f.own.any hit
  let w := (w.dropTransit (p.replay.filterMap (·.transit)) []).unbindPort n
  let lit := p.st != .dark && p.st != .faulted
  let w := w.modPort n fun y => { y with
    pair := pair, bypass := false, bypassFor := 0, replay := [], idleOnly := false
    avail := [0, 0, 0, 0], infl := [0, 0, 0, 0], owed := [0, 0, 0, 0]
    st := if y.st = .up then .train else y.st
    leftSeek := if y.st = .up then w.clk.span else y.leftSeek
    since := if y.st = .up then w.clk.span else y.since
    moveAt := if lit then some w.clk.span else y.moveAt }
  w.elect

/-- POINTS_RETRAIN_TIMEOUT (R377). -/
def execPointsRetrainTimeout (n : Nat) (s : State) : Host.Outcome State Fault Refusal :=
  runIf (n < Config.nPorts) (fun w =>
    match (w.port n).moveAt with
    | some t =>
      if (w.port n).st ≠ .up ∧ w.clk.span ≥ t + 2048 then
        ((w.modPort n fun p => { p with moveAt := none }).portFault n 0x0605).queueLost n
      else w
    | none => w) s

/-- The primary peer of a port: as the plan has it, or as verified on the primary pair. -/
def Blk.primaryPeer (b : Blk) (n : Nat) : Option Nat :=
  let r := b.struct.plan.portRec n
  if bit r.flags 1 then some r.peerPos else if (b.port n).peerValid then some (b.port n).peerPos else none

/-- A port moves to its alternate pair around lost position `l` (R379). -/
def Work.bypassPort (w : Work) (l n : Nat) : Work :=
  let p := w.port n
  if p.st = .dark ∨ p.pair ≠ 0 ∨ !bit (w.struct.plan.portRec n).flags 0 ∨ w.primaryPeer n ≠ some l ∨ p.role = 3 then w
  else
    let w := w.modPort n fun y => { y with pair := 1, bypass := true, bypassFor := l, leftSeek := w.clk.span, moveAt := none }
    (w.portTo n .train).pathLost n

/-- RECONFIG_BOUNDARY (R379, R414, R415). -/
def Work.reconfigBoundary (w : Work) (p : Nat) : Work :=
  if w.struct.plan.bell.any (fun e => e.kind == 5 && e.part == p && w.firesNow p e.off) then
    let ls := (List.range 256).filter (fun l => w.isLost l && !bit w.fab.bounded l
      && decide (w.now ≥ Tab.get 0 w.fab.tLoss l + 8192))
    let w := w.each ls fun w l =>
      (w.each (List.range Config.nPorts) fun w n => w.bypassPort l n).modFab
        fun f => { f with bounded := setBit f.bounded l true }
    (w.ringBoundaries w.now).elect
  else w

/-! ## Training (R358 to R361) -/

/-- SEEK_LIGHT_DETECT (R358). -/
def execSeekLightDetect (n : Nat) (s : State) : Host.Outcome State Fault Refusal :=
  runIf (n < Config.nPorts) (fun w =>
    if (w.port n).st = .seek then (w.modPort n fun p => { p with leftSeek := w.clk.span }).portTo n .train else w) s

/-- The training record that a port sends (R359). -/
def Blk.trainBytes (b : Blk) (n : Nat) : List Nat :=
  let p := b.port n
  [0x40, 0x5C, 0xA0, 0x10, 0x10, p.role, if p.role = 3 then 0 else b.ownPos, n, p.pair, b2n p.bypass,
    if p.bypass then p.bypassFor else 0] ++ leBytes 4 b.bell.epoch.toNat

/-- TRAIN_COMPLETE (R358, R359). -/
def execTrainComplete (n : Nat) (s : State) : Host.Outcome State Fault Refusal :=
  runIf (n < Config.nPorts) (fun w =>
    if (w.port n).st = .train then
      let w := w.portTo n .negotiate
      w.emit (.flit n (w.wire (w.port n) { type := 9, vc := 0, dst := 0, part := 0, txn := 0, addr := 0
                                           data := w.trainBytes n } 0))
    else w) s

/-- The checks of R360, in order: the code of the first that fails, or 0. -/
def Blk.trainCode (b : Blk) (n : Nat) (r : TrainRec) : Nat :=
  let p := b.port n
  let rec_ := b.struct.plan.portRec n
  if r.protoMin > 0x10 ∨ r.protoMax < 0x10 then 0x0601
  else if r.role ≠ p.role then 0x0603
  else if p.pair = 0 ∧ ((bit rec_.flags 1 ∧ r.position ≠ rec_.peerPos) ∨ (rec_.peerPort ≠ 0xFF ∧ r.port ≠ rec_.peerPort)) then
    0x0602
  else if p.role ≠ 3 ∧ b.isLost r.position then 0x0604
  else if p.pair = 1 ∧ p.bypass ∧ (r.bypass ≠ 1 ∨ r.bypassFor ≠ p.bypassFor) then 0x0606
  else 0

/-- A port comes UP with the far end of a training record: credits are granted, what waited goes. -/
def Work.portUp (w : Work) (n : Nat) (r : TrainRec) : Work :=
  let w := w.modPort n fun p => { p with
    st := .up, since := w.clk.span, version := 0x10, peerPort := r.port, peerPos := r.position
    peerValid := p.role != 3, peerEpoch := r.epochLow, trained := setBit p.trained p.pair true
    avail := [0, 1, 2, 3].map creditGrant, infl := [0, 0, 0, 0], replay := [], idleOnly := false, moveAt := none
    txSeq := 0, rxSeq := 0xFFFF, told := 0xFFFF, owed := [0, 0, 0, 0], slots := 0, share := [], served := []
    hbAt := w.clk.span }
  ((w.flushPort n).drainRings).elect

/-- TRAINING_RECORD_RECEIVE (R360). -/
def execTrainingRecordReceive (n : Nat) (r : TrainRec) (s : State) : Host.Outcome State Fault Refusal :=
  runIf (n < Config.nPorts) (fun w =>
    if (w.port n).st ≠ .negotiate then w
    else match w.trainCode n r with
      | 0 => w.portUp n r
      | c => w.portFault n c) s

/-- TRAINING_TIMEOUT (R358). -/
def execTrainingTimeout (n : Nat) (s : State) : Host.Outcome State Fault Refusal :=
  runIf (n < Config.nPorts) (fun w =>
    let p := w.port n
    if (p.st = .train ∨ p.st = .negotiate) ∧ w.clk.span ≥ p.leftSeek + 250000 then (w.portFault n 0x0605).queueLost n else w) s

/-- FAULTED_TIMEOUT (R358). -/
def execFaultedTimeout (n : Nat) (s : State) : Host.Outcome State Fault Refusal :=
  runIf (n < Config.nPorts) (fun w =>
    if (w.port n).st = .faulted ∧ w.clk.span ≥ (w.port n).since + 2500000 then w.portTo n .seek else w) s

/-- FAB_PORT_CTRL (R392): bit 0 moves a FAULTED port to SEEK. -/
def Work.portCtrl (w : Work) (n value : Nat) : Work :=
  if bit value 0 ∧ (w.port n).st = .faulted then w.portTo n .seek else w
/-- RETRAIN (R358). -/
def execRetrain (n value : Nat) (s : State) : Host.Outcome State Fault Refusal :=
  runIf (n < Config.nPorts) (fun w => w.portCtrl n value) s

/-! ## Transactions that arrive (R371, R116) -/

/-- WRITE_TRANSACTION_RECEIVE (R371, R311, R131). -/
def execWriteTransactionReceive (n : Nat) (l : LinkIn) (t : WriteTxn) (s : State) : Host.Outcome State Fault Refusal :=
  onUp n (t.vc % 4) 1 (flitCount t.data.length) l (fun w =>
    if w.acceptable t.part t.addr t.data.length then
      let w := w.store t.part t.addr t.data
      let w := match t.row with
        | some (layer, shift) => w.rowReceived t.part layer shift
        | none => w
      w.ctlBy n 4 t.src t.part t.txn []
    else w.refuse n t.src t.part t.txn (w.underReset t.part t.addr t.data.length)) s

/-- READ_REQUEST_RECEIVE (R371, R441, R131). -/
def execReadRequestReceive (n : Nat) (l : LinkIn) (src part txn vc addr len : Nat) (s : State) :
    Host.Outcome State Fault Refusal :=
  onUp n (vc % 4) 2 1 l (fun w =>
    if !w.acceptable part addr len then w.refuse n src part txn (w.underReset part addr len)
    else match w.eccAt addr len with
      | some _ => ((w.reading part [(addr, len)]).eccMet addr len 1).nak n src part txn .uncorrectable
      | none =>
        let data := w.bytes addr len
        let w := w.reading part [(addr, len)]
        w.each (flitsOf (len / 224 + 1) 0 data) fun w f => w.answerBy n
          { type := 3, vc := vc % 4, dst := src, part := part, txn := txn, addr := addr + f.1, data := f.2 }) s

/-- TAG_SIGNAL_RECEIVE (R116, R131). -/
def execTagSignalReceive (n : Nat) (l : LinkIn) (src part txn tag value : Nat) (s : State) : Host.Outcome State Fault Refusal :=
  onUp n 0 6 1 l (fun w =>
    if w.tagAcceptable part tag then (w.tagAdd tag value).ctlBy n 4 src part txn []
    else w.refuse n src part txn (w.part part).resetting) s

/-! ## Answers (R372) -/

/-- The open transaction that an answer from position `src` with 24-bit tag `txn` is for. -/
def Blk.answered (b : Blk) (src txn : Nat) : Option Txn :=
  b.txns.find? (fun t => t.st == .opened && t.dst == src
    && (if t.kind == .coll then t.addr else t.id) % 2 ^ 24 == txn % 2 ^ 24)

/-- An answer comes in: this device's transactions never leave by an inter-shaft port, so that none there is for one of
them (R362). -/
def answerRow (n vc type k : Nat) (l : LinkIn) (f : Work → Work) (s : State) : Host.Outcome State Fault Refusal :=
  onUp n vc type k l (fun w => if (w.port n).role = 3 then w else f w) s

/-- READ_RESPONSE_RECEIVE (R372). -/
def execReadResponseReceive (n : Nat) (l : LinkIn) (src txn vc : Nat) (data : List Nat) (s : State) :
    Host.Outcome State Fault Refusal :=
  answerRow n (vc % 4) 3 (flitCount data.length) l (fun w => match w.answered src txn with
    | some t =>
      if t.kind = .read ∧ data.length = t.len then (w.modTxn t.id fun y => { y with data := data }).answer t.id .accepted
      else w
    | none => w) s

/-- ACK_RECEIVE (R372). -/
def execAckReceive (n : Nat) (l : LinkIn) (src txn : Nat) (s : State) : Host.Outcome State Fault Refusal :=
  answerRow n 0 4 1 l (fun w => match w.answered src txn with
    | some t => if t.kind = .read then w else w.answer t.id .accepted
    | none => w) s

/-- The open transaction that a negative acknowledgement is for: the one whose destination sent it, or, as a device on
the way may send it (R370), the one with its tag. -/
def Blk.nakked (b : Blk) (src txn : Nat) : Option Txn :=
  (b.answered src txn).orElse fun _ =>
    b.txns.find? (fun t => t.st == .opened && (if t.kind == .coll then t.addr else t.id) % 2 ^ 24 == txn % 2 ^ 24)

/-- NAK_RECEIVE (R370, R372, R373). -/
def execNakReceive (n : Nat) (l : LinkIn) (src txn : Nat) (why : NakReason) (s : State) : Host.Outcome State Fault Refusal :=
  answerRow n 0 5 1 l (fun w => match w.nakked src txn with
    | some t => w.answer t.id (NakReason.outcome why)
    | none => w) s

/-- SETTLEMENT_TIMEOUT (R373). -/
def execSettlementTimeout (txn : Nat) (s : State) : Host.Outcome State Fault Refusal :=
  run (fun w => match w.txn? txn with
    | some t =>
      let waits := w.ports.any (fun e => e.2.held.any (fun f => f.own == some txn))
      if w.clk.span ≥ t.sentAt + 1048576 ∧ !waits then w.answer txn .lost else w
    | none => w) s

/-! ## Flits (R364, R366, R369, R370) -/

/-- A flit that came in by port `n` is discarded in transit, and its buffer is free (R370). -/
def Work.discard (w : Work) (n : Nat) (fl : TransitFlit) : Work :=
  ((w.modFab fun f => { f with discards := f.discards + 1 }).owe n fl.vc 1).nakTransit fl .unreachable

/-- FLIT_FORWARD (R363, R369, R370): its buffer is held until it has gone on. -/
def execFlitForward (n : Nat) (l : LinkIn) (fl : TransitFlit) (s : State) : Host.Outcome State Fault Refusal :=
  onUp n fl.vc fl.type 1 l (fun w =>
    if fl.dst = w.ownPos ∨ (w.port n).role = 3 then w.owe n fl.vc 1
    else match w.egress fl.dst with
      | none => w.discard n fl
      | some k => if fl.ttl = 0 then w.discard n fl else w.passOn k n { fl with ttl := fl.ttl - 1 }) s true

/-- TRANSIT_CREDIT_TIMEOUT (R370). -/
def execTransitCreditTimeout (n : Nat) (s : State) : Host.Outcome State Fault Refusal :=
  runIf (n < Config.nPorts) (fun w =>
    let old := fun (t : Waiting) => decide (w.clk.span ≥ t.since + 65536)
    let l := (w.port n).transit.filter old
    (w.modPort n fun p => { p with transit := p.transit.filter (fun t => !old t) }).each l fun w t => w.discard t.from_ t.fl) s

/-- The partitions one of whose rings uses a port (R454). -/
def Blk.ringUsers (b : Blk) (n : Nat) : List PartRec :=
  b.struct.plan.parts.filter (fun r => (b.struct.plan.ringsOf r.part).any (fun g => bit g.tx n || bit g.rx n))

/-- BAD_FLIT_RECEIVE (R364, R355, R454): the flit is discarded and a replay asked for from link_ack + 1; its uncorrectable
codewords are counted. -/
def execBadFlitReceive (n uncorr : Nat) (s : State) : Host.Outcome State Fault Refusal :=
  runIf (n < Config.nPorts) (fun w =>
    let w := (w.portCtr n 0x20 uncorr).each (w.ringUsers n) fun w r => w.canaryAdd r.part 5 uncorr
    if (w.port n).st = .up then w.emit (.replayAsk n (((w.port n).rxSeq + 1) % 2 ^ 16)) else w) s

/-- One flit of the replay buffer goes out again, as it was but for link_ack. -/
def Work.resend (w : Work) (n : Nat) (x : Sent) : Work :=
  let p := w.port n
  let out : List Out := match x.flit, x.transit with
    | some f, _ => [.flit n { w.wire p f x.seq with credits := x.credits }]
    | none, some t => [.forward n t x.seq p.rxSeq x.credits]
    | none, none => []
  (w.modPort n fun p => { p with told := p.rxSeq }).each out Work.emit

/-- The far end asks for a replay (R364): every flit that link_ack has not confirmed goes again, in order, and is counted. -/
def Work.replay (w : Work) (n : Nat) : Work :=
  let l := (w.port n).replay
  let w := (w.each l fun w x => w.resend n x).portCtr n 0x28 l.length
  w.each (w.ringUsers n) fun w r => w.canaryAdd r.part 6 l.length

/-- IDLE_FLIT_RECEIVE (R364, R366): link_ack and credits, which any flit brings; a replay request, which is not answered where
only idle flits may go (R357); the codewords that the decoder has corrected. -/
def execIdleFlitReceive (n : Nat) (l : LinkIn) (replay : Bool) (corrected : Nat) (s : State) :
    Host.Outcome State Fault Refusal :=
  runIf (n < Config.nPorts) (fun w =>
    let w := w.portCtr n 0x18 corrected
    if (w.port n).st = .up then
      let w := w.linkIn n 0 0 0 l
      if replay ∧ !(w.port n).idleOnly then w.replay n else w
    else w) s

/-- An idle flit leaves a port that has credits to return or a link_ack to tell (R364, R366, log entry 115). -/
def Work.idleOut (w : Work) (n : Nat) : Work :=
  let p := w.port n
  if p.st = .up ∧ (p.told ≠ p.rxSeq ∨ p.owed.any (· > 0)) then
    (w.modPort n Port.giveBack).emit (.flit n (w.wire p { type := 0, vc := 0, dst := 0, part := 0, txn := 0, addr := 0
                                                          data := [] } 0))
  else w

end Sys2Proof.Machine
end

