-- ==== Sys2Proof/Machine/MemRows.lean ====
section
/-! DEFINITION. What the memory system does on its own and by its registers (13_memory_system.md): regulators, scrubbing,
the health record and repair access. -/

namespace Sys2Proof.Machine

/-! ## Regulators (R434) -/

/-- The memory partitions of the plan in force. -/
def Blk.memRecs (b : Blk) : List MemRec :=
  match b.struct.plan.mems with
  | none => [b.struct.plan.memRec b.usable 0]
  | some l => l

/-- Every bucket gains its rate. -/
def Work.refillAll (w : Work) : Work :=
  w.each w.memRecs fun w m => w.modMs fun x => { x with buckets := x.buckets.upd {} m.idx (refill m) }
/-- Every bucket is full: a plan has been applied. -/
def Work.fillBuckets (w : Work) : Work :=
  (w.modMs fun x => { x with buckets := [] }).each w.memRecs fun w m =>
    w.modMs fun x => { x with buckets := x.buckets.set {} m.idx ⟨m.burst * 10240, m.burst * 10240, 0⟩ }

/-- REGULATOR_REFILL (R434): once in a tick. -/
def execRegulatorRefill (s : State) : Host.Outcome State Fault Refusal :=
  run (fun w =>
    if w.ms.refillAt = some w.clk.span then w
    else (w.modMs fun x => { x with refillAt := some w.clk.span }).refillAll) s

/-! ## Scrubbing (R442, R443) -/

/-- Sectors of a pseudo-channel (R426). -/
def pcSectors : Nat := 2 ^ 26

/-- The HBM address of byte `off` of pseudo-channel `pc`, the inverse of `hbm_locate` (R427). -/
def hbmAddr (mapped pc off : Nat) : Nat :=
  let u := usableList mapped
  ((off / 256) * u.length + u.findIdx (· == pc)) * 256 + off % 256

/-- The scrub moves to the next sector; a pass ends with the last. -/
def PcSt.next (x : PcSt) : PcSt :=
  let n := (x.scrubAt + 1) % pcSectors
  { x with scrubAt := n, passCe := if n = 0 then 0 else x.passCe }

/-- SCRUB_READ (R442): the next sector of a pseudo-channel. A corrected sector is written back unless a write has come
between (`raced`); either way the bytes in it are those that were there. An uncorrectable one is logged and counted; a
write that came between and covered it has cleared its error. -/
def execScrubRead (pc : Nat) (ecc : EccResult) (raced : Bool) (s : State) : Host.Outcome State Fault Refusal :=
  runIf (pc < Config.nPcs) (fun w =>
    if w.ms.period = 0 ∨ w.ms.repairEn ∨ bit w.ms.mapped pc ∨ w.boot.st ≠ .ready then w
    else
      let at_ := (Tab.get {} w.ms.pcs pc).scrubAt
      let sec := hbmAddr w.ms.mapped pc (32 * at_) / 32
      let bad := decide (sec ∈ w.ms.badSectors) || ecc == .uncorrectable
      let w := if bad then
          (w.modMs fun m => { m with badSectors := if sec ∈ m.badSectors ∨ raced then m.badSectors else m.badSectors ++ [sec] }).memUe
            pc (32 * at_) 2
        else if ecc == .corrected ∨ sec ∈ w.ms.softSectors then
          let w := w.memCe pc
          if raced then w else w.modMs fun m => { m with softSectors := m.softSectors.filter (· ≠ sec) }
        else w
      w.modMs fun m => { m with pcs := m.pcs.upd {} pc PcSt.next }) s

/-! ## The health record (R444, R446) -/

/-- Writing save to MEM_HEALTH_CTRL. -/
def Work.healthSave (w : Work) : Work :=
  let r := (List.range Config.nPcs).foldl (fun m i => if bit w.ms.mapped i || bit w.ms.next i then setBit m i true else m) 0
  if w.ms.saving.isSome then w
  else if popCount r Config.nPcs > 8 then (w.modMs fun m => { m with saveRefused := true }).w1cMark (Config.memBase + 0x78) 2
  else w.modMs fun m => { m with saving := some r }
/-- SAVE (R446). -/
def execSave (s : State) : Host.Outcome State Fault Refusal := run (fun w => w.healthSave) s

/-- HEALTH_SAVE_COMPLETE (R446). -/
def execHealthSaveComplete (s : State) : Host.Outcome State Fault Refusal :=
  run (fun w => match w.ms.saving with
    | some r => (w.modFlash fun f => f.setHealth true { f.health with remove := r }).modMs fun m => { m with saving := none }
    | none => w) s

/-! ## Repair access (R447) -/

/-- Every defined partition is QUIESCED. -/
def Blk.allQuiesced (b : Blk) : Bool := b.struct.plan.parts.all (fun r => (b.part r.part).st == .quiesced)

/-- MEM_REPAIR_CTRL. -/
def Work.repairCtrl (w : Work) (value : Nat) : Work :=
  let w' := w.modMs fun m => { m with repairStack := bits value 11 8, repairEn := m.repairEn || bit value 0 }
  if bit value 0 && !w.ms.repairEn && !w.allQuiesced then w else w'
/-- MEM_REPAIR_CTRL (R447). -/
def execMemRepairCtrl (value : Nat) (s : State) : Host.Outcome State Fault Refusal := run (fun w => w.repairCtrl value) s

/-- MEM_REPAIR_CMD: the instruction starts; HBM contents are undefined from here on (R447). -/
def Work.repairCmd (w : Work) (value : Nat) : Work :=
  if !w.ms.repairEn then w
  else
    let k := w.fresh
    k.2.modMs fun m => { m with repairInstr := value % 2 ^ 32, scrambled := some k.1 }
/-- MEM_REPAIR_CMD (R452). -/
def execMemRepairCmd (value : Nat) (s : State) : Host.Outcome State Fault Refusal := run (fun w => w.repairCmd value) s

/-- An access to MEM_REPAIR_DATA: a write shifts 64 bits in; a read shifts out what the test port holds, which the spec
does not state, while repair access is on. -/
def Work.repairData (w : Work) (write : Bool) (value : Nat) : Work :=
  if write then w.modMs fun m => { m with repairData := BitVec.ofNat 64 value }
  else if !w.ms.repairEn then w
  else
    let k := w.fresh
    k.2.modMs fun m => { m with repairData := BitVec.ofNat 64 (Config.freeNat 0 k.1) }
/-- MEM_REPAIR_DATA (R452). -/
def execMemRepairData (write : Bool) (value : Nat) (s : State) : Host.Outcome State Fault Refusal :=
  run (fun w => w.repairData write value) s

end Sys2Proof.Machine
end

