-- ==== Sys2Proof/Machine/Resets.lean ====
section
/-! DEFINITION. Face, gallery and partition resets (R129 to R131). Warm and cold resets stand in Machine/Boot.lean. -/

namespace Sys2Proof.Machine

/-- What a reset leaves of a command's transactions (R126, R131, R317). The books still count its tag signals and token
rows: these stay until they are answered. One whose flits have not all left never will be, and is lost (log entry 120).
The rest is forgotten. -/
def Work.orphanTxns (w : Work) (x : Flight) : Work :=
  let mine := w.txnsOf x.id
  let unsent := (mine.filter (fun t => w.ports.any (fun e => e.2.held.any (fun f => f.own == some t.id)))).map (·.id)
  let w := w.dropHeld fun f => f.own.any (fun i => mine.any (fun t => t.id == i))
  let w : Work := { w with txns := (w.txns.filter (fun t => t.owner != x.id || t.kind == .tag || t.kind == .row)).map fun t =>
    if t.owner = x.id then { t with orphan := true } else t }
  (w.each unsent fun w i => w.answer i .lost).dropOrphans x.id

/-- Commands abandoned by a reset (R131): no record; what they held goes back; their flits that have not left are not
sent; the secure set of an abandoned SECURE is not complete (R466). -/
def Work.abandon (w : Work) (c : Flight → Bool) : Work :=
  w.each (w.flights.filter c) fun w x =>
    let w := w.dropHeld fun f => f.coll.any (fun k => k.2 == x.id)
    let w := if opOf x.cmd = 0xA0 then w.modCtx x.q fun c => { c with secSet := { c.secSet with complete := false } } else w
    let w : Work := { w with rings := w.rings.map fun e => (e.1, { e.2 with txq := e.2.txq.filter (fun o => o.owner != x.id) }) }
    ((w.unhold x).orphanTxns x).delFlight x.id

/-- A context that a face or gallery reset takes to IDLE: its flags, its last fault and its secure set stand. -/
def Ctx.idled (c : Ctx) : Ctx :=
  { shift := c.shift, satFlag := c.satFlag, lateFlag := c.lateFlag, grantFlag := c.grantFlag, satCount := c.satCount,
    lastFault := c.lastFault, secSet := c.secSet }

/-- Forget a range of a store, with the errors in it. -/
def Work.zero (w : Work) (lo hi : Nat) : Work :=
  let out := fun s => !(decide (lo ≤ 8 * s) && decide (8 * s < hi))
  (w.clear lo hi).modMs fun m => { m with badWords := m.badWords.filter out, softWords := m.softWords.filter out }

/-- The partition that owns a unit sees its reset in its next audit (R128). -/
def Work.seeReset (w : Work) (p : Option Nat) : Work :=
  match p with
  | some p => w.modPart p fun y => { y with resetSeen := true }
  | none => w

/-- A face returns to its defined state (R129, R163, R208, R228, R240, R259, R287, R351, R453). A context that it takes to
IDLE writes its writeback (R88): the commands that the reset abandons have not retired. -/
def Work.clearFace (w : Work) (f : Nat) (busy : Bool) : Work :=
  let qs := (w.ctxs.map (·.1)).filter fun q => (w.ctx q).st != .idle && (w.ctx q).face == f
  let w := (w.each qs fun w q => w.ctxState q .idle).abandon (fun x => x.face == f)
  let w := w.each qs fun w q => w.modCtx q Ctx.idled
  let w := w.zero (Config.faceBase + Config.faceSize * f) (Config.faceBase + Config.faceSize * (f + 1))
  (w.modFace f fun _ => { resetting := busy }).seeReset (w.struct.plan.partOfFace f)

/-- A gallery and its twelve faces (R129, R320, R453). -/
def Work.clearGal (w : Work) (g : Nat) (busy : Bool) : Work :=
  let w := w.each (List.range 12) fun w i => w.clearFace (12 * g + i) busy
  let w := w.zero (Config.galBase + Config.galSize * g) (Config.galBase + Config.galSize * (g + 1))
  (w.modGal g fun _ => { resetting := busy }).seeReset (w.struct.plan.partOfGal g)

/-- A partition (R129, R301, R397, R414, R460, R477): `busy` while the reset is under way. The plan-change state, the
area registers, the drop gate and the marks stand. Flits that wait for a collective command are discarded, and their
credits go back. -/
def Work.clearPart (w : Work) (p : Nat) (busy : Bool) : Work :=
  let plan := w.struct.plan
  let w := w.each ((List.range Config.nGals).filter (fun g => plan.partOfGal g == some p)) fun w g => w.clearGal g busy
  let w := ((w.abandon (fun x => x.part == p)).dropHeld fun f => f.coll.any (fun k => k.1 / 8 == p)).dropIn
    fun c => (List.range 8).any (fun r => CollIn.ofRing p r c)
  let w : Work := { w with
    txns := w.txns.filter (fun t => t.src != p)
    ctxs := w.ctxs.filter (fun e => plan.partOfCtx e.1 != some p)
    tags := w.tags.filter (fun e => plan.partOfTag e.1 != some p)
    descs := w.descs.filter (fun e => e.1 / 4096 != p)
    rings := w.rings.map (fun e => if e.1 / 8 = p then
      (e.1, { e.2 with nextSeq := 0, resolving := false, qB := 0, sent := 0, sentBack := 0, txq := [] }) else e) }
  let w := w.modPart p fun y => { y with
    resetting := busy, resetSeen := true, tagIssued := 0, tagAcked := 0, canary := {}, secure := {}, dropped := 0, lastMarked := 0 }
  w.restartBooks p

/-- Start a reset (R130): ignored while one is busy. -/
def Work.startReset (w : Work) (r : ResetSt) (f : Work → Work) : Work :=
  if w.dev.reset.isSome then w else (f w).modDev fun d => { d with reset := some r }

/-- FACE_RESET (R129). -/
def execFaceReset (f : Nat) (s : State) : Host.Outcome State Fault Refusal :=
  runIf (f < Config.nFaces) (fun w => w.startReset ⟨1, f⟩ (fun w => w.clearFace f true)) s
/-- GALLERY_RESET (R129). -/
def execGalleryReset (g : Nat) (s : State) : Host.Outcome State Fault Refusal :=
  runIf (g < Config.nGals) (fun w => w.startReset ⟨2, g⟩ (fun w => w.clearGal g true)) s
/-- A partition reset of a partition that the plan defines; one of any other names nothing to reset. -/
def Work.partitionReset (w : Work) (p : Nat) : Work :=
  if w.struct.plan.defines p then w.startReset ⟨3, p⟩ (fun w => w.clearPart p true) else w
/-- PARTITION_RESET (R129). -/
def execPartitionReset (p : Nat) (s : State) : Host.Outcome State Fault Refusal :=
  runIf (p < Config.nParts) (fun w => w.partitionReset p) s

/-- Units are out of reset. -/
def Work.freeFace (w : Work) (f : Nat) : Work := w.modFace f fun x => { x with resetting := false }
def Work.freeGal (w : Work) (g : Nat) : Work :=
  (w.modGal g fun x => { x with resetting := false }).each (List.range 12) fun w i => w.freeFace (12 * g + i)

/-- RESET_COMPLETE (R129, R130). -/
def execResetComplete (s : State) : Host.Outcome State Fault Refusal :=
  run (fun w => match w.dev.reset with
    | none => w
    | some r =>
      let w := w.modDev fun d => { d with reset := none }
      if r.scope = 1 then w.freeFace r.index
      else if r.scope = 2 then w.freeGal r.index
      else
        let gs := (List.range Config.nGals).filter (fun g => w.struct.plan.partOfGal g == some r.index)
        (w.each gs fun w g => w.freeGal g).modPart r.index fun y => { y with resetting := false }) s

end Sys2Proof.Machine
end

