-- ==== Sys2Proof/Machine/Structure.lean ====
section
/-! DEFINITION. Loading and changing a structure plan (R61 to R77), and the area registers of a partition (R320, R352,
R423). -/

namespace Sys2Proof.Machine

/-! ## Registers (R75) -/

def partMask (p : Plan) : Nat := (p.parts.map (fun r => 2 ^ r.part)).sum
/-- DEV_STRUCT_STATUS. -/
def Struct.status (s : Struct) : Nat :=
  partMask s.plan * 2 ^ 32 + s.plan.minor * 2 ^ 24 + s.loadState * 2 ^ 8 + s.source * 2 ^ 6 + b2n s.minorNewer * 2 ^ 4
    + b2n s.optSkipped * 2 ^ 3 + b2n s.feedWarn * 2 ^ 2 + b2n s.rejected * 2 + b2n s.defaulted
/-- DEV_STRUCT_FAULT. -/
def Struct.fault (s : Struct) : Nat := s.faultOff * 2 ^ 32 + s.faultSec * 2 ^ 24 + s.faultCode

/-- The PLAN event (R501). -/
def Work.planEvent (w : Work) (code : Nat) : Work :=
  w.raise 6 0xFF code 0 (leBytes 8 w.struct.status ++ leBytes 8 w.struct.fault)

/-! ## Plan-change states (R69) -/

/-- Outbound traffic of a partition that has still to go or to be answered: transactions that its commands opened, and
collective flits that wait for a port. -/
def Blk.outbound (b : Blk) (p : Nat) : Bool :=
  b.txns.any (fun t => t.src == p && t.st == .opened && t.dst != b.ownPos)
    || b.rings.any (fun e => e.1 / 8 == p && !e.2.txq.isEmpty)
    || b.ports.any (fun e => e.2.held.any (fun f => f.coll.any (fun c => c.1 / 8 == p)))

/-- One bit of DEV_PART_QUIESCE. -/
def Work.quiesceBit (w : Work) (p : Nat) (v : Bool) : Work :=
  let st := (w.part p).st
  if st = .undefined then w
  else
    let w := w.modDev fun d => { d with quiesce := setBit d.quiesce p v }
    match st, v with
    | .running, true => w.modPart p fun y => { y with st := .quiescing }
    | .quiescing, false | .quiesced, false => (w.modPart p fun y => { y with st := .running }).wakePart p
    | _, _ => w

/-- A write of DEV_PART_QUIESCE; in LIMITED and under repair access no bit is cleared (R512, R447). -/
def Work.partQuiesce (w : Work) (value : Nat) : Work :=
  let keep := w.ms.repairEn || w.boot.st == .limited
  w.each (List.range Config.nParts) fun w p =>
    let v := bit value p
    if v = bit w.dev.quiesce p ∨ (!v ∧ keep) then w else w.quiesceBit p v

/-- DEV_PART_QUIESCE (R69). -/
def execDevPartQuiesce (value : Nat) (s : State) : Host.Outcome State Fault Refusal := run (fun w => w.partQuiesce value) s

/-- QUIESCE_COMPLETE (R69): the last command in flight has retired and outbound traffic has drained. -/
def execQuiesceComplete (p : Nat) (s : State) : Host.Outcome State Fault Refusal :=
  runIf (p < Config.nParts) (fun w =>
    if (w.part p).st = .quiescing ∧ w.flights.all (fun x => x.part != p) ∧ !w.outbound p then
      w.modPart p fun y => { y with st := .quiesced }
    else w) s

/-! ## Applying a plan (R73, R356, R358) -/

/-- A port as the applied plan has it (R48, R356, R358). -/
def Work.planPort (w : Work) (n : Nat) : Work :=
  let r := w.struct.plan.portRec n
  let p := w.port n
  let w := w.modPort n fun y => { y with role := r.role }
  if r.role = 0 ∨ w.boot.st = .limited ∧ p.st = .dark then
    if p.st = .dark then w else (w.portTo n .dark).pathLost n
  else if p.st = .dark then
    (w.modPort n fun y => { y with pair := r.points, bypass := false, bypassFor := 0, peerValid := false }).portTo n .seek
  else if p.role = r.role ∧ p.pair = r.points then w
  else
    let w := w.modPort n fun y => { y with pair := r.points, bypass := false, bypassFor := 0, leftSeek := w.clk.span, moveAt := none }
    if p.st = .faulted ∨ p.st = .seek then w else (w.portTo n .train).pathLost n

/-- The plan of a device on the same feed as a buddy that it overrides (R63). -/
def Plan.feedWarn (p : Plan) (feed : Nat) : Bool := p.buddies.any (fun y => y.feed == feed && bit y.flags 0)

/-- FEED_ID (R534). -/
def Pwr.feed (p : Pwr) : Nat := bits p.straps 3 0

/-- A partition whose structure the plan in force has just given (R69, R73). One that the plan no longer defines keeps
nothing: its quiesce bit, its queue context table and its area registers go back to their reset values (log entry 98). -/
def Work.planPart (w : Work) (old : Plan) (p : Nat) : Work :=
  let was := old.defines p
  let quiet := bit w.dev.quiesce p
  if !w.struct.plan.defines p then
    ({ w with parts := w.parts.del p, rings := w.rings.filter (fun e => e.1 / 8 != p) } : Work).modDev
      fun d => { d with quiesce := setBit d.quiesce p false }
  else
    let w : Work := { w with rings := w.rings.filter (fun e => e.1 / 8 != p) }
    let w := w.modPart p fun y => { y with
      marked := false, audit := {}, secureOpen := false, dropped := 0, lastMarked := 0
      st := if was then (if quiet then .quiesced else .running) else .quiesced }
    if was then w else w.modDev fun d => { d with quiesce := setBit d.quiesce p true }

/-- A window closes: its queue pair enters the error state (R505). -/
def Work.shutWindow (w : Work) (i : Nat) : Work := w.modWindow i fun x => { x with isOpen := false, error := true }
/-- The windows that meet a condition close. -/
def Work.shutWindows (w : Work) (c : Window → Bool) : Work :=
  w.each ((List.range 64).filter (fun i => (w.window i).isOpen && c (w.window i))) fun w i => w.shutWindow i

/-- The memory range that a plan gives a partition. -/
def Plan.rangeOf (p : Plan) (usable i : Nat) : Option MemRec := (p.partRec i).map (fun r => p.memRec usable r.memPart)

/-- Put a plan in force: every affected partition is reset and takes up its structure (R73), the regulators are full
(R434), and ports follow where the plan's device-wide part is new. `source` is that of plan_source. -/
def Work.applyPlan (w : Work) (new : Plan) (source : Nat) (all : Bool) : Work :=
  let old := w.struct.plan
  let hit := (List.range Config.nParts).filter (fun i => (all && (old.defines i || new.defines i)) || (w.part i).st == .applying
    || affects old new w.usable i)
  let w := w.each (hit.filter old.defines) fun w i => w.clearPart i false
  let w := w.modStruct fun s => { s with
    plan := new, source := source, next := none, loadState := 0, staging := []
    minorNewer := decide (new.minor > 0), optSkipped := new.skipped
    feedWarn := new.feedWarn w.pwr.feed
    defaulted := if source = 2 then false else s.defaulted }
  let w := w.w1cMark (Config.devBase + 0x100) (16 * b2n (new.minor > 0) + 8 * b2n new.skipped)
  let w := w.each hit fun w i => w.planPart old i
  let w := w.shutWindows (fun x => decide (old.rangeOf w.usable x.part ≠ new.rangeOf w.usable x.part))
  let w := w.fillBuckets
  let w := w.modPwr fun p => { p with mode := new.dev.mode }
  let w := w.modBell fun b => { b with peak := max b.peak (new.events + (w.flights.filter (·.comp)).length) }
  let w := if all || deviceDiffers old new then w.each (List.range Config.nPorts) fun w n => w.planPort n else w
  w.elect

/-! ## Committing (R66 to R75) -/

/-- A commit is rejected: code, section, offset. -/
def Work.rejectCommit (w : Work) (f : ImgFail) : Work :=
  ((w.modStruct fun s => { s with rejected := true, faultCode := f.code, faultSec := f.sec, faultOff := f.off }).w1cMark
    (Config.devBase + 0x100) 2).planEvent f.code

/-- Writing commit to DEV_STRUCT_CTRL (R67, R512). R556 has no row for the rejections 0x0818 and 0x0921: section_index
0xFF and byte_offset 0 are the model's choice (log entry 99). -/
def Work.commitImage (w : Work) : Work :=
  let s := w.struct
  if w.boot.st = .limited then w.rejectCommit ⟨0x0921, 0xFF, 0⟩
  else if s.staging.length < 64 ∨ s.staging.length ≠ imgTotal s.staging ∨ s.loadState = 2 ∨ s.loadState = 3 then
    w.rejectCommit ⟨0x0818, 0xFF, 0⟩
  else w.modStruct fun s => { s with loadState := 2, nextSource := 2 }
/-- COMMIT (R67). -/
def execCommit (s : State) : Host.Outcome State Fault Refusal := run (fun w => w.commitImage) s

/-- Writing discard to DEV_STRUCT_CTRL. -/
def Work.discardImage (w : Work) : Work :=
  if w.struct.loadState = 2 ∨ w.struct.loadState = 3 then w
  else w.modStruct fun s => { s with staging := [], loadState := 0 }
/-- DISCARD (R75). -/
def execDiscard (s : State) : Host.Outcome State Fault Refusal := run (fun w => w.discardImage) s

/-- Applying begins: partitions that the plan in force defines and the new one affects are APPLYING (R69). -/
def Work.beginApply (w : Work) (new : Plan) (source : Nat) (hit : List Nat) : Work :=
  (w.modStruct fun s => { s with loadState := 3, next := some new, nextSource := source }).each
    (hit.filter w.struct.plan.defines) fun w i => w.modPart i fun y => { y with st := .applying }

/-- The staged image has been validated (R62, R68, R72). R556 has no row for the rejection 0x0819: section_index 0xFF
and byte_offset 0 are the model's choice (log entry 99). -/
def Work.validated (w : Work) : Work :=
  let img := w.struct.staging
  let old := w.struct.plan
  match vCheckWord img with
  | some f =>
    let w := w.each old.parts fun w r => w.clearPart r.part false
    let w := (w.modStruct fun s => { s with defaulted := true }).rejectCommit f
    w.beginApply romPlan 0 (List.range Config.nParts)
  | none => match vRest img w.usable w.pwr.feed with
    | some f => (w.modStruct fun s => { s with loadState := 0 }).rejectCommit f
    | none =>
      let new := readPlan img
      let hit := (List.range Config.nParts).filter (affects old new w.usable)
      let running := hit.any (fun i => old.defines i && ((w.part i).st != .quiesced || (w.ms.repairEn && !bit w.dev.quiesce i)))
      if running then (w.modStruct fun s => { s with loadState := 0 }).rejectCommit ⟨0x0819, 0xFF, 0⟩
      else w.beginApply new 2 hit

/-- VALIDATION_COMPLETE (R62, R72). -/
def execValidationComplete (s : State) : Host.Outcome State Fault Refusal :=
  run (fun w => if w.struct.loadState = 2 then w.validated else w) s

/-- APPLY_COMPLETE (R73, R74). -/
def execApplyComplete (s : State) : Host.Outcome State Fault Refusal :=
  run (fun w => match w.struct.loadState, w.struct.next with
    | 3, some p => (w.applyPlan p w.struct.nextSource false).planEvent 0
    | _, _ => w) s

/-! ## Areas (R320, R352, R423) -/

/-- A write of an area register: ignored while the partition is not QUIESCED; enable stays clear for an area outside
the partition's memory. -/
def Work.areaWrite (w : Work) (p base layersM1 size value : Nat) (set : Part → Area → Part) : Work :=
  if (w.part p).st ≠ .quiesced then w
  else w.modPart p fun y => set y { enable := bit value 0 && w.inHbmPart p base size, base := base, layersM1 := layersM1 }

/-- DEV_GRANT_AREA_p: an area that is enabled starts with its books (R318). -/
def Work.grantArea (w : Work) (p value : Nat) : Work :=
  let n := bits value 63 56
  let w' := w.areaWrite p (bits value 47 12 * 4096) n (81920 * (n + 1)) value fun y a => { y with grantArea := a }
  if (w.part p).st = .quiesced then w'.restartBooks p else w'
/-- DEV_GRANT_AREA (R320). -/
def execDevGrantArea (p value : Nat) (s : State) : Host.Outcome State Fault Refusal :=
  runIf (p < Config.nParts) (fun w => w.grantArea p value) s

/-- DEV_RATIO_AREA_p. -/
def Work.ratioArea (w : Work) (p value : Nat) : Work :=
  let n := bits value 63 52
  w.areaWrite p (bits value 47 10 * 1024) n (1024 * (n + 1)) value fun y a => { y with ratioArea := a }
/-- DEV_RATIO_AREA (R352). -/
def execDevRatioArea (p value : Nat) (s : State) : Host.Outcome State Fault Refusal :=
  runIf (p < Config.nParts) (fun w => w.ratioArea p value) s

/-- DEV_ROSTER_AREA_p: a new roster may name a lost position (R414). -/
def Work.rosterArea (w : Work) (p value : Nat) : Work :=
  w.areaWrite p (bits value 47 12 * 4096) 0 4096 value fun y a => { y with rosterArea := a }
/-- DEV_ROSTER_AREA (R423). -/
def execDevRosterArea (p value : Nat) (s : State) : Host.Outcome State Fault Refusal :=
  runIf (p < Config.nParts) (fun w => w.rosterArea p value) s

end Sys2Proof.Machine
end

