-- ==== Sys2Proof/Machine/Power.lean ====
section
/-! DEFINITION. Power and heat (17_module_and_power.md): the registers of R554, the governor, thermal levels, and the
SMBus. -/

namespace Sys2Proof.Machine

/-- R547. -/
def Therm.code : Therm → Nat
  | .normal => 0 | .warn => 1 | .critical => 2
/-- The ceiling on the duty (R543, R547). -/
def Therm.ceiling : Therm → Nat
  | .normal => 16 | .warn => 12 | .critical => 4

/-- DEV_PWR_STATUS (R554). -/
def Pwr.status (p : Pwr) : Nat :=
  p.lastTrip * 2 ^ 48 + p.feed * 2 ^ 20 + p.duty * 2 ^ 8 + b2n (!p.brakeN) * 2 ^ 7 + p.therm.code * 2 ^ 5
    + b2n p.inletHigh * 2 ^ 4 + b2n p.undervolt * 2 ^ 3 + b2n (decide (p.duty < p.therm.ceiling)) * 2 ^ 2 + p.mode
/-- DEV_PWR_INPUT. -/
def Pwr.input (p : Pwr) : Nat := p.vinMv % 2 ^ 16 * 2 ^ 32 + p.iin10ma % 2 ^ 16 * 2 ^ 16 + p.pinW % 2 ^ 16
/-- DEV_THERM_TEMP. -/
def tempReg (t : Temps) : Nat :=
  leNat [t.photonic, t.die0, t.die1, t.die2, t.die3, t.hbm, t.outlet, t.inlet]

/-- A code of class 0x0A is posted (R538, R549). -/
def Work.post (w : Work) (code : Nat) : Work :=
  let w := (w.modPwr fun p => { p with smbAlert := true }).canaryAll 7 1
  w.raise 7 0xFF code 0 (leBytes 8 w.pwr.status ++ leBytes 8 w.pwr.input ++ leBytes 8 (tempReg w.pwr.temps))

/-! ## The governor (R542, R543) -/

/-- The supply is good and nothing holds the module in reset. -/
def Pwr.released (p : Pwr) : Bool := p.vin && p.pwrGood && p.resetN && p.refclk && p.tripped == 0

/-- The limit of a power mode in W (R25). -/
def modeLimit (mode : Nat) : Nat := if mode = 0 then 3600 else if mode = 1 then 2700 else if mode = 2 then 1800 else 1000
/-- The governor's cap. -/
def Pwr.cap (p : Pwr) : Nat := if p.brakeN then modeLimit p.mode else min (modeLimit p.mode) 1800

/-- Give the duty a value: 0x0A02 is posted as it first falls below its ceiling. -/
def Work.setDuty (w : Work) (d : Nat) : Work :=
  let fell := decide (w.pwr.duty ≥ w.pwr.therm.ceiling) && decide (d < w.pwr.therm.ceiling)
  let w := w.modPwr fun p => { p with duty := d }
  if fell then w.post 0x0A02 else w

/-- The duty after one comparison (R543). -/
def Pwr.nextDuty (p : Pwr) : Nat :=
  if p.pinW > p.cap then max 1 (p.duty - 1)
  else if p.pinW * 100 < p.cap * 97 then min p.therm.ceiling (p.duty + 1)
  else p.duty

/-- GOVERNOR_SAMPLE (R543): every 2,500 lease ticks, once, with the 1 ms averages. -/
def execGovernorSample (pinW vinMv iin10ma : Nat) (s : State) : Host.Outcome State Fault Refusal :=
  run (fun w =>
    if w.clk.lease % 2500 ≠ 0 ∨ !w.pwr.released ∨ w.pwr.sampledAt = some w.clk.lease then w
    else
      let w := w.modPwr fun p => { p with
        sampledAt := some w.clk.lease, pinW := pinW, vinMv := vinMv, iin10ma := iin10ma, energy := p.energy + pinW }
      w.setDuty w.pwr.nextDuty) s

/-- BRAKE_N_ASSERT (R543): a module without power or held in reset sees the pin when its governor starts. -/
def execBrakeNAssert (s : State) : Host.Outcome State Fault Refusal :=
  run (fun w =>
    if !w.pwr.brakeN then w
    else if !w.pwr.released then w.modPwr fun p => { p with brakeN := false }
    else
      let w := (w.modPwr fun p => { p with brakeN := false }).post 0x0A03
      w.setDuty (min w.pwr.duty 4)) s
/-- BRAKE_N_RELEASE (R543). -/
def execBrakeNRelease (s : State) : Host.Outcome State Fault Refusal :=
  run (fun w => w.modPwr fun p => { p with brakeN := true }) s

/-! ## Heat (R547) -/

/-- Some sensor has reached a level, given by its die and HBM thresholds. -/
def tempReaches (t : Temps) (die hbm : Nat) : Bool :=
  [t.die0, t.die1, t.die2, t.die3, t.photonic].any (fun x => decide (x ≥ die)) || decide (t.hbm ≥ hbm)
/-- The level that the sensors reach short of a trip. -/
def tempLevel (t : Temps) : Therm :=
  if tempReaches t 105 95 then .critical else if tempReaches t 95 85 then .warn else .normal
/-- The level of THERM_N, an open-drain output (R532, R547): low at WARN or above, released without power. -/
def Pwr.thermN (p : Pwr) : Bool := !p.pwrGood || p.therm == .normal
/-- The level that sensors 5 °C below a threshold have left. -/
def tempCooled (t : Temps) : Therm :=
  if tempReaches t 101 91 then .critical else if tempReaches t 91 81 then .warn else .normal

/-- Enter a level: its code is posted, and the duty falls to its ceiling. -/
def Work.thermTo (w : Work) (l : Therm) : Work :=
  let w := w.modPwr fun p => { p with therm := l, duty := min p.duty l.ceiling }
  match l with
  | .normal => w
  | .warn => w.post 0x0A10
  | .critical => w.post 0x0A11

/-- New readings; the inlet is high no longer when it reads 35 °C or less. -/
def Work.readTemps (w : Work) (t : Temps) : Work :=
  w.modPwr fun p => { p with temps := t, inletHigh := p.inletHigh && decide (t.inlet > 35) }

/-- THERMAL_LEVEL_FALL (R547): every sensor has stayed 5 °C below the threshold of the level for 250,000 lease ticks. -/
def execThermalLevelFall (t : Temps) (s : State) : Host.Outcome State Fault Refusal :=
  run (fun w =>
    if !w.pwr.pwrGood then w
    else
      let w := w.readTemps t
      if (tempCooled t).code < w.pwr.therm.code then w.thermTo (tempCooled t) else w) s

/-- INLET_HIGH (R547). -/
def execInletHigh (s : State) : Host.Outcome State Fault Refusal :=
  run (fun w => if w.pwr.pwrGood then (w.modPwr fun p => { p with inletHigh := true }).post 0x0A12 else w) s

/-- VIN_LOW (R540): VIN falls below 40 V and stays above 38 V; a module that is up posts it. -/
def execVinLow (s : State) : Host.Outcome State Fault Refusal :=
  run (fun w =>
    let w := w.modPwr fun p => { p with undervolt := p.undervolt || p.vin }
    if w.pwr.pwrGood then w.post 0x0A01 else w) s

/-! ## The SMBus (R538) -/

/-- The module answers while PWR_GOOD is released. -/
def smbusRow (f : Work → Work) (s : State) : Host.Outcome State Fault Refusal :=
  run (fun w => if w.pwr.pwrGood then f w else w) s
/-- SMBUS_READ_STATUS (R538): SMB_ALERT_N is released. -/
def execSmbusReadStatus (s : State) : Host.Outcome State Fault Refusal :=
  smbusRow (fun w => (w.modPwr fun p => { p with smbAlert := false }).emit (.smbus (BitVec.ofNat 64 w.pwr.status))) s
/-- SMBUS_READ_INPUT (R538). -/
def execSmbusReadInput (s : State) : Host.Outcome State Fault Refusal :=
  smbusRow (fun w => w.emit (.smbus (BitVec.ofNat 64 w.pwr.input))) s
/-- SMBUS_READ_TEMP (R538). -/
def execSmbusReadTemp (s : State) : Host.Outcome State Fault Refusal :=
  smbusRow (fun w => w.emit (.smbus (BitVec.ofNat 64 (tempReg w.pwr.temps)))) s
/-- SMBUS_READ_ID (R538). -/
def execSmbusReadId (s : State) : Host.Outcome State Fault Refusal :=
  smbusRow (fun w => w.emit (.smbus Config.devId)) s
/-- SMBUS_WRITE (R538): every write is answered with a NACK. -/
def execSmbusWrite (_cmd : Nat) (s : State) : Host.Outcome State Fault Refusal := smbusRow (fun w => w.emit .smbusNack) s

end Sys2Proof.Machine
end

