-- ==== Sys2Proof/Machine/Boot.lean ====
section
/-! DEFINITION. Device resets, boot, firmware and flash (R129, R508 to R530, R444, R445). -/

namespace Sys2Proof.Machine

/-! ## Firmware images (R514 to R516) -/

def fwVersion (img : List Nat) : Nat := leAt img 8 4
def fwIf (img : List Nat) : Nat := leAt img 12 2
def fwSec (img : List Nat) : Nat := leAt img 20 4
/-- The signed message: header and body. -/
def fwMessage (img : List Nat) : List Nat := img.take (128 + leAt img 24 4)
/-- The regions of flash (R522): the offset and size of each. -/
inductive FlashPart where
  | identity | settings | replay | health | plan (slot : Nat) | headframe (slot : Nat) | fabric (slot : Nat) | log
  deriving DecidableEq, Repr
def FlashPart.at_ : FlashPart → Nat
  | .identity => 0 | .settings => 0x00100000 | .replay => 0x00200000 | .health => 0x00600000
  | .plan k => 0x00700000 + k * 0x00100000 | .headframe k => 0x01000000 + k * 0x02000000
  | .fabric k => 0x05000000 + k * 0x01000000 | .log => 0x07000000
def FlashPart.size : FlashPart → Nat
  | .identity | .settings | .health | .plan _ => 0x00100000
  | .replay => 0x00400000
  | .headframe _ => 0x02000000
  | .fabric _ | .log => 0x01000000
/-- The size of a slot of a kind. -/
def fwSlotSize (kind : Nat) : Nat := if kind = 1 then (FlashPart.headframe 0).size else (FlashPart.fabric 0).size

/-- R516: the code of the first check that fails, or 0. -/
def fwCheck (img : List Nat) (kind rollback : Nat) : Nat :=
  let n := leAt img 24 4
  if leAt img 0 4 ≠ 0x57464B53 ∨ leAt img 4 1 ≠ 1 ∨ leAt img 5 1 ≠ kind ∨ leAt img 6 2 ≠ 0 ∨ leAt img 80 48 ≠ 0
      ∨ 128 + n + 96 + 2668 > fwSlotSize kind ∨ leAt img 28 4 ≠ 2668 then 0x0903
  else if sha384 ((img.drop 128).take n) ≠ (img.drop 32).take 48 then 0x0903
  else if !ecdsaOk Config.romEcdsaKey (fwMessage img) ((img.drop (128 + n)).take 96) then 0x0901
  else if !lmsOk Config.romLmsKey (fwMessage img) ((img.drop (224 + n)).take 2668) then 0x0902
  else if leAt img 18 1 > 0xA0 ∨ leAt img 19 1 < 0xA0 then 0x0904
  else if fwSec img < rollback then 0x0905
  else 0

/-- R518: a headframe and a fabric image pair. -/
def fwPairs (hf fab : List Nat) : Bool :=
  decide (leAt hf 14 2 ≤ fwIf fab) && decide (fwIf fab ≤ leAt hf 16 2) && decide (leAt fab 14 2 ≤ fwIf hf)
    && decide (fwIf hf ≤ leAt fab 16 2)

/-- The slots of a kind: 0 and 1 headframe, 2 and 3 fabric. -/
def fwSlots (kind : Nat) : List Nat := if kind = 1 then [0, 1] else [2, 3]
/-- R517: the order in which slots are tried. -/
def Blk.fwOrder (b : Blk) (kind : Nat) : List Nat :=
  let of := fun st => (fwSlots kind).filter (fun i => (b.fw i).st == st)
  of .trialPending ++ of .active ++ of .inactive
def Blk.rollback (b : Blk) (kind : Nat) : Nat := if kind = 1 then b.flash.hfRollback else b.flash.fabRollback

/-- Trial slots are rejected, both kinds together (R519). -/
def Flash.rejectTrials (f : Flash) (running : Bool) : Flash :=
  let trial := fun (x : FwSlot) => x.st == .trialRunning || x.st == .trialPending
  if running && !f.fw.any (fun e => e.2.st == .trialRunning) then f
  else { f with fw := f.fw.map (fun e => if trial e.2 then (e.1, e.2.goes .rejected) else e) }

/-! ## Flash operations (R523) -/

/-- The slot that FW_STAGE writes. -/
def Flash.stageSlot (f : Flash) (kind : Nat) : Option Nat :=
  (fwSlots kind).find? (fun i => let st := (Tab.get {} f.fw i).st; st != .active && st != .trialRunning)

/-- What an operation that has passed its checks writes, as far as it gets: `whole n` says of record `n` that its writing
ends (0 to 3 the slots' states, 4 and 5 the counters, 6 the selection, 7 the anchors), and of byte `n - 16` of a slot that it
is written. The record that names a slot is written after the slot's bytes, so where that record is whole they are. -/
def Flash.writes (f : Flash) (j : FlashJob) (whole : Nat → Bool) : Flash :=
  let bytes := fun (n : Nat) (old : List Nat) => if whole n then j.data
    else (List.range (max old.length j.data.length)).map fun i => if whole (i + 16) then nth j.data i else nth old i
  if j.code ≠ 0 then f
  else if j.op = 1 then
    match f.stageSlot (leAt j.data 5 1) with
    | some i => { f with fw := f.fw.upd {} i fun x => ⟨x.state.put (whole i) .trialPending, bytes i x.image⟩ }
    | none => f
  else if j.op = 2 then
    let run := fun kind => (fwSlots kind).filter (fun i => (Tab.get {} f.fw i).st == .trialRunning)
    let sec := fun kind => ((run kind).map (fun i => fwSec (Tab.get {} f.fw i).image)).foldl max 0
    { f with
      fw := f.fw.map (fun e =>
        let kind := if e.1 < 2 then 1 else 2
        if e.2.st == .trialRunning then (e.1, { e.2 with state := e.2.state.put (whole e.1) .active })
        else if e.2.st == .active && !(run kind).isEmpty then (e.1, { e.2 with state := e.2.state.put (whole e.1) .inactive })
        else e)
      hfCounter := if sec 1 > f.hfRollback then f.hfCounter.put (whole 4) (sec 1) else f.hfCounter
      fabCounter := if sec 2 > f.fabRollback then f.fabCounter.put (whole 5) (sec 2) else f.fabCounter }
  else if j.op = 3 then
    if f.planSel = some 0 then { f with planB := bytes 6 f.planB, selected := f.selected.put (whole 6) (some 1) }
    else { f with planA := bytes 6 f.planA, selected := f.selected.put (whole 6) (some 0) }
  else if j.op = 4 then { f with selected := f.selected.put (whole 6) none }
  else if j.op = 5 then { f with trusted := f.trusted.put (whole 7) (f.anchors ++ [leNat j.data]) }
  else if j.op = 6 then { f with trusted := f.trusted.put (whole 7) [] }
  else f
/-- What an operation that has passed its checks does when it ends. -/
def Flash.doJob (f : Flash) (j : FlashJob) : Flash := f.writes j fun _ => true

/-- The place of a source range that the headframe controller may read (R523, R447). -/
def Blk.flashPlace (b : Blk) (a n : Nat) : Bool :=
  if b.boot.st == .recovery then decide (Config.galBase ≤ a) && decide (a + n ≤ Config.galBase + Config.galSize)
  else decide (a + n ≤ b.usable) && !b.ms.repairEn
/-- The headframe controller can read a source range. -/
def Work.flashSource (w : Work) (a n : Nat) : Bool := w.flashPlace a n && (w.eccAt a n).isNone
/-- The source is read, which meets the errors of its sectors (R441, R443). -/
def Work.flashReads (w : Work) (a n : Nat) : Work :=
  if !w.flashPlace a n then w
  else if (w.eccAt a n).isNone then w.softMet [(a, n)]
  else (w.softMet [(a, n)]).hfcEcc a n

/-- The code an operation ends with, and the bytes it writes. The code of FW_STAGE where no slot of the kind is free to
write is not stated: some code of class 0x09 (R14, log entry 5). -/
def Work.flashJob (w : Work) (op : Nat) : FlashJob × Work :=
  let a := w.boot.flashAddr.toNat
  let n := if op = 5 then 48 else w.boot.flashLen.toNat
  if op = 1 then
    let w := w.flashReads a n
    if !w.flashSource a n then (⟨1, 0x0935, []⟩, w)
    else
      let img := w.bytes a n
      let kind := leAt img 5 1
      if kind ≠ 1 ∧ kind ≠ 2 then (⟨1, 0x0903, []⟩, w)
      else match fwCheck img kind (w.rollback kind), w.flash.stageSlot kind with
        | 0, some _ => (⟨1, 0, img⟩, w)
        | 0, none => let k := w.fresh; (⟨1, 0x0901 + Config.freeNat 1 k.1 % 0xFF, []⟩, k.2)
        | c, _ => (⟨1, c, []⟩, w)
  else if op = 2 then
    (⟨2, if w.boot.st == .ready && w.flash.fw.any (fun e => e.2.st == .trialRunning) then 0 else 0x0932, []⟩, w)
  else if op = 3 then (if w.struct.source = 2 then (⟨3, 0, w.struct.plan.image⟩, w) else (⟨3, 0x0933, []⟩, w))
  else if op = 5 then
    let w := w.flashReads a n
    if !w.flashSource a n then (⟨5, 0x0935, []⟩, w)
    else if w.flash.anchors.length ≥ 8 then (⟨5, 0x0934, []⟩, w)
    else (⟨5, 0, w.bytes a n⟩, w)
  else (⟨op, 0, []⟩, w)

/-- The boot states in which the device serves its host (R511 to R513). -/
def BootState.serves : BootState → Bool
  | .ready | .limited | .recovery => true
  | _ => false

/-- A write of HFC_FLASH_CMD (R523): ignored while an operation runs, recording 0x0931. -/
def Work.flashCmd (w : Work) (op : Nat) : Work :=
  if !w.boot.st.serves ∨ op = 0 ∨ op > 6 then w
  else if w.boot.flashJob.isSome then w.modBoot fun b => { b with flashCode := 0x0931 }
  else
    let k := w.flashJob op
    k.2.modBoot fun b => { b with flashJob := some k.1 }

/-- FW_STAGE (R523). -/
def execFwStage (s : State) : Host.Outcome State Fault Refusal := run (fun w => w.flashCmd 1) s
/-- FW_COMMIT (R523). -/
def execFwCommit (s : State) : Host.Outcome State Fault Refusal := run (fun w => w.flashCmd 2) s
/-- PLAN_SAVE (R523). -/
def execPlanSave (s : State) : Host.Outcome State Fault Refusal := run (fun w => w.flashCmd 3) s
/-- PLAN_CLEAR (R523). -/
def execPlanClear (s : State) : Host.Outcome State Fault Refusal := run (fun w => w.flashCmd 4) s
/-- ANCHOR_ADD (R523). -/
def execAnchorAdd (s : State) : Host.Outcome State Fault Refusal := run (fun w => w.flashCmd 5) s
/-- ANCHOR_CLEAR (R523). -/
def execAnchorClear (s : State) : Host.Outcome State Fault Refusal := run (fun w => w.flashCmd 6) s

/-- FLASH_OP_COMPLETE (R523). -/
def execFlashOpComplete (s : State) : Host.Outcome State Fault Refusal :=
  run (fun w => match w.boot.flashJob with
    | some j => (w.modFlash fun f => f.doJob j).modBoot fun b => { b with flashJob := none, flashCode := j.code }
    | none => w) s

/-! ## Device resets (R129, R452, R495, R519, R521) -/

/-- A host port as a boot takes it from flash: its MAC address and its settings (R479, R490). -/
def portOf (mac : Nat) (l : List Nat) : HostPort :=
  if l.length = 80 then { mac := mac, vlan := leAt l 2 2, pfcPriority := leAt l 4 1, settings := l } else { mac := mac }

/-- The memory registers after a reset: a warm one keeps them but for counters (R452). -/
def MemSys.afterReset (m : MemSys) (cold : Bool) : MemSys :=
  if cold then { mapped := m.mapped, repaired := m.repaired }
  else { m with
    pcs := (m.pcs.map (fun e => (e.1, ({ scrubAt := e.2.scrubAt } : PcSt)))).filter (fun e => decide (e.2 ≠ {}))
    ctr := [], buckets := [], saving := none, refillAt := none, badWords := [], softWords := [] }

/-- Everything but what a reset keeps: flash, pins, HBM after a warm reset, the model's own counters. -/
def Blk.afterReset (b : Blk) (cold : Bool) (st : BootState) (flash : Flash) : Blk :=
  { clk := { free := b.clk.free }
    ms := b.ms.afterReset cold
    dev := { nextFlight := b.dev.nextFlight, nextTxn := b.dev.nextTxn }
    host := { ports := ([0, 1].map (fun n => (n, portOf (nth flash.macs n) (flash.settings n)))).filter (fun e => decide (e.2 ≠ {})) }
    boot := { st := st, cold := cold }
    flash := flash
    pwr := { b.pwr with duty := 16, mode := 3, therm := .normal, inletHigh := false, vinMv := 0, iin10ma := 0, pinW := 0,
                        temps := ⟨0, 0, 0, 0, 0, 0, 0, 0⟩, gated := 0, sampledAt := none }
    out := b.out }

/-- What a reset leaves of the flash records that were being written: of each the old one or the new, which the spec leaves
open (R521); of a slot that was being written, any of its bytes (log entry 67). A running trial is rejected (R519). -/
def Work.flashAtReset (w : Work) : Flash × Work :=
  let k := w.fresh
  let f := w.flash
  let f := match w.boot.flashJob with
    | some j => f.writes j (Config.torn k.1)
    | none => f
  let f := match w.ms.saving with
    | some r => f.setHealth (Config.torn k.1 8) { f.health with remove := r }
    | none => f
  (f.rejectTrials true, k.2)

/-- A warm or cold reset of the device, into a boot state (R129, R508). -/
def Work.deviceReset (w : Work) (cold : Bool) (st : BootState) : Work :=
  let k := w.flashAtReset
  let w := k.2
  let w := w.clear Config.galBase (Config.galBase + 16 * Config.galSize)
  let w := w.clear Config.faceBase (Config.faceBase + 192 * Config.faceSize)
  let w := if cold then w.clear 0 Config.hbmEnd else w
  { (w.toBlk.afterReset cold st k.1) with mem := w.mem, wr := w.wr }

/-- A reset that DEV_RESET or a RESET message starts (R130, R508). -/
def Work.softReset (w : Work) (cold : Bool) : Work :=
  if w.dev.reset.isSome then w
  else if w.boot.st.serves ∨ (cold ∧ w.boot.st ≠ .off) then w.deviceReset cold .rom
  else w
/-- WARM_RESET (R129). -/
def execWarmReset (s : State) : Host.Outcome State Fault Refusal := run (fun w => w.softReset false) s
/-- COLD_RESET (R129). -/
def execColdReset (s : State) : Host.Outcome State Fault Refusal := run (fun w => w.softReset true) s

/-- A write of DEV_RESET (R130, R133). -/
def Work.devReset (w : Work) (value : Nat) : Work :=
  let i := bits value 7 0
  match bits value 19 16 with
  | 1 => if i < Config.nFaces then w.startReset ⟨1, i⟩ (fun w => w.clearFace i true) else w
  | 2 => if i < Config.nGals then w.startReset ⟨2, i⟩ (fun w => w.clearGal i true) else w
  | 3 => if i < Config.nParts then w.partitionReset i else w
  | 4 => w.softReset false
  | 5 => w.softReset true
  | _ => w

/-! ## Boot (R508 to R518) -/

/-- Go to a boot state. -/
def Work.bootTo (w : Work) (st : BootState) : Work := w.modBoot fun b => { b with st := st }
/-- Record a boot fault. -/
def Work.bootFault (w : Work) (code : Nat) : Work := w.modBoot fun b => { b with code := code }

/-- HALTED with a code: HBM contents are undefined there (R552). -/
def Work.halt (w : Work) (code : Nat) : Work :=
  let k := w.fresh
  ((k.2.modMs fun m => { m with scrambled := some k.1 }).bootFault code).bootTo .halted

/-- ROM_SELF_TEST_COMPLETE (R508). -/
def execRomSelfTestComplete (pair0 pair1 : Bool) (s : State) : Host.Outcome State Fault Refusal :=
  run (fun w =>
    if w.boot.st ≠ .rom then w
    else if pair0 then w.bootTo .identity
    else if pair1 then ((w.bootFault 0x0940).modBoot fun b => { b with corePair := 1 }).bootTo .identity
    else w.halt 0x0941) s

/-- The seeds and keys that the PUF of a die gives from its helper data (R525): devid_seed, the DevID private key, its public key, and
flash_key. An info of 0 is one byte. -/
structure Identity where
  seed : List Nat
  key : Nat
  pub : List Nat
  flash : List Nat
  deriving DecidableEq, Repr

def identityOf (die : Nat) (helper : List Nat) : Identity :=
  let secret := beBytes 48 (Config.pufSecret die helper)
  let seed := hkdf384 secret [0x53, 0x4B, 0x34, 0x30, 0x2D, 0x44, 0x45, 0x56, 0x49, 0x44] [0]
  let key := Config.ecPrivate seed
  ⟨seed, key, ecPublic key, hkdf384 secret [0x53, 0x4B, 0x34, 0x30, 0x2D, 0x46, 0x4C, 0x41, 0x53, 0x48] [0]⟩

/-- The identity fits what flash holds: the key in the die's DevID certificate (R525), and the key that authenticates the
replay-protected region (R520). -/
def Flash.fits (f : Flash) (die : Nat) (i : Identity) : Bool :=
  (match f.devid.getD die none with | some k => k == i.pub | none => true)
    && (match f.rpKey with | some k => k == i.flash | none => true)

/-- IDENTITY_COMPLETE (R520, R525, R508): `ok` says that the PUF gave its secret and the replay-protected region its right
authentication code. -/
def execIdentityComplete (ok : Bool) (s : State) : Host.Outcome State Fault Refusal :=
  run (fun w =>
    if w.boot.st ≠ .identity then w
    else
      let i := identityOf w.boot.corePair (w.flash.helper.getD w.boot.corePair [])
      if ok && w.flash.fits w.boot.corePair i then
        (w.modBoot fun b => { b with devidSeed := i.seed, devidKey := some i.key, devidPub := i.pub, flashKey := i.flash }).bootTo .hfVerify
      else w.halt 0x0906) s

/-- What the ROM does once the headframe image is known (R526, R513): the alias key pair and its certificate from the
digest of the image's signed message; then devid_seed and the DevID private key are erased and the PUF is locked. -/
def Work.attest (w : Work) (digest : List Nat) (version sec : Nat) : Work :=
  w.modBoot fun b =>
    let cdi := hmac384 b.devidSeed digest
    let key := Config.ecPrivate cdi
    { b with
      cdi := cdi, aliasKey := some key, devidSeed := [], devidKey := none, pufLocked := true
      aliasCert := { version := version, sec := sec, corePair := b.corePair, key := ecPublic key, signer := b.devidPub } }

/-- A slot is tried at boot: its code, with an uncorrectable read first (R516). -/
def Blk.slotCode (b : Blk) (badRead kind i : Nat) : Nat :=
  if bit badRead i then 0x0907 else fwCheck (b.fw i).image kind (b.rollback kind)

/-- A slot fails at boot: a pending trial is rejected (R519). -/
def Work.slotFails (w : Work) (i code : Nat) : Work :=
  let w := if code = 0 then w else w.bootFault code
  if (w.fw i).st = .trialPending then w.modFlash fun f => f.rejectTrials false else w

/-- A slot is selected at boot. -/
def Work.slotRuns (w : Work) (i : Nat) : Work :=
  if (w.fw i).st = .trialPending then w.modFw i fun x => x.goes .trialRunning else w

/-- R517: try the headframe slots in order. -/
def Work.tryHeadframe (w : Work) (badRead : Nat) : List Nat → Work
  | [] => (((w.bootFault 0x0910).modFlash fun f => f.rejectTrials true).attest (List.replicate 48 0) 0 0).bootTo .recovery
  | i :: l =>
    match w.slotCode badRead 1 i with
    | 0 =>
      let img := (w.fw i).image
      let w := (w.slotRuns i).modBoot fun b => { b with hfSlot := i, hfImage := img }
      (w.attest (sha384 (fwMessage img)) (fwVersion img) (fwSec img)).bootTo .hfStart
    | c => Work.tryHeadframe (w.slotFails i c) badRead l

/-- HF_VERIFY_COMPLETE (R517). -/
def execHfVerifyComplete (badRead : Nat) (s : State) : Host.Outcome State Fault Refusal :=
  run (fun w => if w.boot.st = .hfVerify then w.tryHeadframe badRead (w.fwOrder 1) else w) s

/-- One pseudo-channel that failed training or is to be removed (R445). -/
def Work.mapOut (w : Work) (pc : Nat) (lane : Option Nat) : Work :=
  if popCount w.ms.mapped Config.nPcs < 8 then w.modMs fun m => { m with mapped := setBit m.mapped pc true }
  else match lane, Tab.get 0xFF w.ms.repaired pc with
    | some l, 0xFF => w.modMs fun m => { m with repaired := m.repaired.set 0xFF pc l }
    | _, _ => w.modMs fun m => { m with mapped := setBit m.mapped pc true, floorBreach := true }

/-- The map of a cold reset, written back to the health record (R444, R445). -/
def Work.trainHbm (w : Work) (fails : List TrainFail) : Work :=
  let w := w.modMs fun m => { m with mapped := 0, repaired := w.flash.health.lanes, floorBreach := false }
  let w := w.each (List.range Config.nPcs) fun w pc =>
    match fails.find? (fun f => f.pc == pc) with
    | some f => w.mapOut pc f.lane
    | none => if bit w.flash.health.remove pc then w.mapOut pc none else w
  let w := w.modMs fun m => { m with next := m.mapped, repaired := m.repaired.filter (fun e => !bit m.mapped e.1) }
  w.modFlash fun f => f.setHealth true ⟨w.ms.mapped, w.ms.repaired⟩

/-- R518: try the fabric slots in order; `seen` is the if_version of the first that passed R516. -/
def Work.tryFabric (w : Work) (badRead : Nat) (seen : Option Nat) : List Nat → Work
  | [] =>
    let w := w.modBoot fun b => { b with code := 0x0920, faultHfIf := fwIf b.hfImage, faultFabIf := seen.getD 0xFFFF }
    let w := (w.modFlash fun f => f.rejectTrials true).bootTo .limited
    w.applyPlan romPlan 0 true
  | i :: l =>
    let img := (w.fw i).image
    match w.slotCode badRead 2 i with
    | 0 =>
      if fwPairs w.boot.hfImage img then
        ((w.slotRuns i).modBoot fun b => { b with fabSlot := i - 2, fabImage := img }).bootTo .plan
      else Work.tryFabric (w.slotFails i 0) badRead (some (seen.getD (fwIf img))) l
    | c => Work.tryFabric (w.slotFails i c) badRead seen l

/-- HF_START_COMPLETE (R518, R445). -/
def execHfStartComplete (badRead : Nat) (fails : List TrainFail) (s : State) : Host.Outcome State Fault Refusal :=
  run (fun w =>
    if w.boot.st ≠ .hfStart then w
    else
      let w := if w.boot.cold then w.trainHbm fails else w
      w.tryFabric badRead none (w.fwOrder 2)) s

/-- A plan image that fails at boot (R66). -/
def Work.bootPlanFails (w : Work) (f : ImgFail) (defaulted : Bool) : Work :=
  ((w.modStruct fun s => { s with defaulted := defaulted }).rejectCommit f).applyPlan romPlan 0 true

/-- Plan load at boot (R66): the image goes into the staging buffer and is committed there. One that fails after its check
word leaves the default plan, and stays staged (log entry 62). -/
def Work.loadPlan (w : Work) : Work :=
  match w.flash.planSel with
  | none => w.applyPlan romPlan 0 true
  | some k =>
    let w := w.modStruct fun s => { s with staging := if k = 0 then w.flash.planA else w.flash.planB }
    let img := w.struct.staging
    match vCheckWord img with
    | some f => w.bootPlanFails f true
    | none => match vRest img w.usable w.pwr.feed with
      | some f => (w.bootPlanFails f false).modStruct fun s => { s with staging := img }
      | none => w.applyPlan (readPlan img) 1 true

/-- PLAN_LOAD_COMPLETE (R66, R509, R495, R548). -/
def execPlanLoadComplete (s : State) : Host.Outcome State Fault Refusal :=
  run (fun w =>
    if w.boot.st ≠ .plan then w
    else
      let w := (w.loadPlan).bootTo .ready
      let w := w.modHost fun h => { h with reservedUntil := w.flash.claimant.map (fun _ => w.clk.lease + 2 ^ 32) }
      if w.pwr.postTrip && w.pwr.lastTrip != 0 then (w.post w.pwr.lastTrip).modPwr fun p => { p with postTrip := false }
      else w.modPwr fun p => { p with postTrip := false }) s

/-! ## Registers (R530) -/

def BootState.code : BootState → Nat
  | .off => 0 | .rom => 1 | .identity => 2 | .hfVerify => 3 | .recovery => 4 | .hfStart => 5 | .limited => 6 | .plan => 7
  | .ready => 8 | .halted => 0
/-- HFC_BOOT_STATUS: the anchors show as the outcome of a boot. -/
def Blk.bootStatus (b : Blk) : Nat :=
  let trial := fun (img : List Nat) i => b2n (!img.isEmpty && (b.fw i).st == .trialRunning)
  trial b.boot.fabImage (2 + b.boot.fabSlot) * 2 ^ 15 + trial b.boot.hfImage b.boot.hfSlot * 2 ^ 14 + b.boot.fabSlot * 2 ^ 13
    + b.boot.hfSlot * 2 ^ 12 + b2n (b.boot.st.serves && b.flash.anchors.isEmpty) * 2 ^ 11 + b.boot.corePair * 2 ^ 10 + b.boot.st.code
/-- HFC_BOOT_FAULT. -/
def Boot.fault (b : Boot) : Nat := b.faultFabIf * 2 ^ 32 + b.faultHfIf * 2 ^ 16 + b.code
/-- HFC_FW_HF_VERSION and HFC_FW_FAB_VERSION. -/
def fwReg (img : List Nat) : Nat := if img.isEmpty then 0 else fwVersion img * 2 ^ 32 + fwSec img

end Sys2Proof.Machine
end

