-- ==== Sys2Proof/Machine/Pins.lean ====
section
/-! DEFINITION. Supply, trips, RESET_N and the reference clock (R534 to R540, R547, R548, R552). -/

namespace Sys2Proof.Machine

/-- Leave OFF for ROM where the module may (R508, R537). -/
def Work.leaveOff (w : Work) : Work := if w.boot.st = .off ∧ w.pwr.released then w.bootTo .rom else w

/-- The module turns off with a code (R548): everything but flash is lost. -/
def Work.trip (w : Work) (code : Nat) : Work :=
  let w := w.deviceReset true .off
  (w.modFlash fun f => { f with tripCode := code }).modPwr fun p => { p with tripped := code, pwrGood := false, smbAlert := false }

/-- UNDERVOLTAGE_TRIP (R540, R548): VIN has to rise above 40 V again. -/
def execUndervoltageTrip (s : State) : Host.Outcome State Fault Refusal :=
  run (fun w => if w.pwr.pwrGood then (w.trip 0x0A21).modPwr fun p => { p with undervolt := true } else w) s
/-- OVERCURRENT_TRIP (R548). -/
def execOvercurrentTrip (s : State) : Host.Outcome State Fault Refusal :=
  run (fun w => if w.pwr.pwrGood then w.trip 0x0A22 else w) s

/-- THERMAL_LEVEL_RISE (R547, R548): a reading has reached a higher level. -/
def execThermalLevelRise (t : Temps) (s : State) : Host.Outcome State Fault Refusal :=
  run (fun w =>
    if !w.pwr.pwrGood then w
    else
      let w := w.readTemps t
      if tempReaches t 115 105 then w.trip 0x0A20
      else if (tempLevel t).code > w.pwr.therm.code then w.thermTo (tempLevel t)
      else w) s

/-- The rails come up where VIN stays above 40 V and no trip holds them off (R534, R540, R548): the straps read once after VIN
has risen are latched, and the trip that came before is shown. -/
def Work.powerUp (w : Work) : Work :=
  if w.pwr.pwrGood || !w.pwr.vin || w.pwr.undervolt || w.pwr.tripped != 0 then w
  else
    let trip := w.flash.tripCode
    let w := w.modPwr fun p => { p with pwrGood := true, latched := true, lastTrip := trip, postTrip := trip != 0, energy := 0 }
    (w.modFlash fun f => { f with tripCode := 0 }).leaveOff

/-- VIN_RISE (R540): VIN has stayed above 40 V. A module that was tripped comes up only where its trip has ended (R548). -/
def execVinRise (straps : Nat) (s : State) : Host.Outcome State Fault Refusal :=
  run (fun w => (w.modPwr fun p => { p with
    vin := true, undervolt := false, away := 0, straps := if p.latched then p.straps else straps % 16 }).powerUp) s

/-- One tick of 4 ns on the pins: a trip ends once VIN was away for 1 s or RESET_N low for 1 ms, and the rails come up again
(R548). -/
def Work.pinTick (w : Work) : Work :=
  let w := w.modPwr fun p => { p with away := p.away + b2n (!p.vin), low := p.low + b2n (!p.resetN) }
  if w.pwr.tripped ≠ 0 ∧ (w.pwr.away ≥ 250000000 ∨ w.pwr.low ≥ 250000) then
    (w.modPwr fun p => { p with tripped := 0 }).powerUp
  else w

/-- VIN_REMOVE (R534, R548, R552). -/
def execVinRemove (s : State) : Host.Outcome State Fault Refusal :=
  run (fun w => (w.deviceReset true .off).modPwr fun p => { p with
    vin := false, pwrGood := false, latched := false, smbAlert := false, undervolt := false }) s

/-- RESET_N_ASSERT (R537, R510): a cold reset that lasts while the pin is low. -/
def execResetNAssert (s : State) : Host.Outcome State Fault Refusal :=
  run (fun w => (w.deviceReset true .off).modPwr fun p => { p with resetN := false }) s

/-- RESET_N_RELEASE (R537). -/
def execResetNRelease (s : State) : Host.Outcome State Fault Refusal :=
  run (fun w => (w.modPwr fun p => { p with resetN := true, low := 0 }).leaveOff) s

/-- REFCLK_LOSS (R536): as if RESET_N were held low. -/
def execRefclkLoss (s : State) : Host.Outcome State Fault Refusal :=
  run (fun w => (w.deviceReset true .off).modPwr fun p => { p with refclk := false }) s
/-- REFCLK_RECOVER (R536). -/
def execRefclkRecover (s : State) : Host.Outcome State Fault Refusal :=
  run (fun w => (w.modPwr fun p => { p with refclk := true }).leaveOff) s

end Sys2Proof.Machine
end

