-- ==== Sys2Proof/Machine/Flags.lean ====
section
/-! DEFINITION. Status registers: how the flags, states and fields that a register shows are read from the state. -/

namespace Sys2Proof.Machine

/-- Field `x` of a register at bit `lo`. -/
def fld (x lo : Nat) : Nat := x * 2 ^ lo
/-- Bit `i` set for each index that meets a condition. -/
def maskOf (n : Nat) (c : Nat → Bool) : Nat := ((List.range n).map (fun i => if c i then 2 ^ i else 0)).sum
/-- The index of a register in an array of `n` registers 8 bytes apart from `base`, if `off` is one of them. -/
def regIdx (off base n : Nat) : Option Nat := if base ≤ off ∧ off < base + 8 * n then some ((off - base) / 8) else none

/-! ## Values that registers show -/

def ArrPw.code : ArrPw → Nat
  | .off => 0 | .ramping => 1 | .on => 2 | .winding => 3
def Link.code : Link → Nat
  | .dark => 0 | .seek => 1 | .train => 2 | .negotiate => 3 | .up => 4 | .down => 5 | .faulted => 6
def Owner.code : Owner → Nat
  | .unowned => 0 | .owned => 1 | .orphaned => 2 | .custody => 3

/-- An area register (R320, R352, R423); `lo` is the place of layers_minus_1. -/
def Area.reg (a : Area) (lo : Nat) : Nat := fld a.layersM1 lo + a.base + b2n a.enable
/-- DEV_QCTX_STATUS (R133). -/
def Ctx.status (c : Ctx) : Nat :=
  fld c.lastFault 48 + fld c.st.code 40 + fld (b2n c.grantFlag) 38 + fld (b2n c.lateFlag) 37 + fld (b2n c.satFlag) 36
    + fld c.calls.length 32 + c.shift.toNat
/-- DEV_CANARY_STATUS_p (R477). -/
def Canary.reg (c : Canary) : Nat :=
  fld c.score 48 + fld c.raw 32 + fld (c.armShift % 2 ^ 16) 16 + fld (maskOf 8 (fun i => nth c.levels i != 0)) 8
    + fld (b2n c.armed) 2 + c.state
/-- DEV_SECURE_POINT_p. -/
def Secure.reg (s : Secure) : Nat := fld s.point 32 + fld (s.pendCount % 2 ^ 16) 16 + b2n s.valid
/-- DEV_DROP_p. -/
def Part.dropReg (p : Part) : Nat := fld p.lastMarked 32 + fld (b2n p.dropGate) 8 + p.dropped
/-- DEV_COLL_RESOLVE (R424). -/
def Dev.resolveReg (d : Dev) : Nat := fld d.resolveLost 40 + fld d.resolvePart 36 + fld d.resolveRing 32 + d.resolveQ
/-- FAB_PORT_STATUS (R392). -/
def Port.status (p : Port) : Nat :=
  fld p.lastFault 48 + fld p.version 40 + fld p.peerPort 32 + fld p.peerPos 24 + fld p.bypassFor 16 + fld (b2n p.peerValid) 11
    + fld (b2n p.bypass) 10 + fld p.role 8 + fld p.pair 6 + p.st.code
/-- FAB_ROUTE_t. -/
def Route.reg (r : Route) : Nat := fld (b2n r.valid) 63 + fld r.alternate 8 + r.primary
/-- FACE_MASK_INFO_s (R259). -/
def MaskSlot.info (m : MaskSlot) : Nat :=
  if m.st = .free then 0 else fld m.pattern 56 + fld (m.nW - 1) 40 + m.kW
/-- HFC_OWNER (R507). -/
def Blk.ownerReg (b : Blk) : Nat :=
  let h := b.host
  fld (((h.sessions.find? (fun s => s.mode != 0)).map (·.id)).getD 0) 32 + fld h.sessions.length 16 + fld (b2n b.flash.claimant.isSome) 8
    + h.owner.code
/-- HFC_HOSTPORT_STATUS_n. -/
def HostPort.status (p : HostPort) : Nat := fld p.vlan 48 + fld p.pfcPriority 40 + fld (b2n p.fecLocked) 1 + b2n p.linkUp
/-- BELL_CTRL (R393). -/
def Bell.ctrl (b : Bell) : Nat := fld (b2n b.epochLock) 16 + fld b.ptpDomain 8 + fld (b2n b.ptpIpv6) 2 + b.ptpPort
/-- MEM_PC_STATUS (R452). -/
def MemSys.pcStatus (m : MemSys) : Nat :=
  let x := Tab.get {} m.pcs m.pcSel
  let lane := Tab.get 0xFF m.repaired m.pcSel
  fld x.ce 32 + fld x.ue 16 + fld lane 8 + (if bit m.mapped m.pcSel then 2 else if lane ≠ 0xFF then 1 else 0)

end Sys2Proof.Machine
end

