-- ==== Sys2Proof/Machine/Registers.lean ====
section
/-! DEFINITION. The registers (R5 to R9, R29, R31 and the register tables of every chapter): reading and writing one by its
address. -/

namespace Sys2Proof.Machine

/-! ## Reading (R6, R31) -/

/-- DEV_DESC_USED_p: the entries of a partition's descriptor table that are dropping, and those created and not dropping. -/
def Blk.descUsed (b : Blk) (p : Nat) : Nat :=
  let n := fun st => (b.descs.filter (fun e => e.1 / 4096 == p && e.2.st == st)).length
  fld (n .dropping) 16 + n .created
/-- DEV_NUM_MODE_p: the numeric defaults of a partition. -/
def NumRec.reg (r : NumRec) : Nat := fld r.sat 16 + fld r.round 8 + r.nan

/-- A DEV_ register. -/
def readDev (b : Blk) (off : Nat) : Nat :=
  match off with
  | 0x0000 => Config.devId.toNat
  | 0x0008 => Config.devCaps.toNat
  | 0x0100 => b.struct.status
  | 0x0108 => b.struct.fault
  | 0x0110 => b.struct.plan.serial
  | 0x0118 => b.dev.quiesce
  | 0x0120 => maskOf Config.nParts (fun p => (b.part p).st == .quiesced)
  | 0x0310 => b.dev.qctxSel
  | 0x0320 => (b.ctx b.dev.qctxSel).status
  | 0x0328 => b.retiredBelow b.dev.qctxSel
  | 0x0348 => b.dev.tagSel
  | 0x0350 => (b.tag b.dev.tagSel).toNat
  | 0x0388 => b2n b.dev.reset.isSome
  | 0x0390 => b.dev.auditFailed
  | 0x0398 => b.dev.auditDetail
  | 0x0820 => b.dev.resolveReg
  | 0x0980 => b.dev.canarySel
  | 0x0988 => leNat (((b.part b.dev.canarySel).canary.levels.take 4).flatMap (leBytes 2))
  | 0x0990 => leNat (((b.part b.dev.canarySel).canary.levels.drop 4).flatMap (leBytes 2))
  | 0x0C00 => b.pwr.status
  | 0x0C08 => b.pwr.input
  | 0x0C10 => tempReg b.pwr.temps
  | 0x0C18 => b.pwr.gated / 160
  | 0x0C20 => b.pwr.energy / 100
  | _ =>
    match regIdx off 0x0200 16, regIdx off 0x0600 16, regIdx off 0x0700 16, regIdx off 0x0780 16 with
    | some p, _, _, _ => (b.part p).qctxTable
    | _, some p, _, _ => (b.part p).grantArea.reg 56
    | _, _, some p, _ => (b.part p).ratioArea.reg 52
    | _, _, _, some p => (b.part p).rosterArea.reg 56
    | _, _, _, _ =>
      match regIdx off 0x0900 16, regIdx off 0x0A00 16, regIdx off 0x0A80 16 with
      | some p, _, _ => (b.part p).canary.reg
      | _, some p, _ => (b.part p).secure.reg
      | _, _, some p => (b.part p).dropReg
      | _, _, _ =>
        match regIdx off 0x0400 16, regIdx off 0x0500 16, regIdx off 0x0580 16 with
        | some p, _, _ => b.descUsed p
        | _, some p, _ => (b.struct.plan.num p).reg
        | _, _, some p => (b.struct.plan.num p).seed
        | _, _, _ => (b.dev.ctr.ctr off).toNat

/-- A FACE_ register. -/
def Face.readReg (x : Face) (off : Nat) : Nat :=
  match off with
  | 0x0300 => x.keepWarm
  | 0x0308 => ((x.arrs.map (·.pw.code)).zipIdx.map (fun e => fld e.1 (2 * e.2))).sum
  | 0x0518 => fld (maskOf 16 (fun s => (Tab.get {} x.masks s).st == .releasing)) 16
      + maskOf 16 (fun s => (Tab.get {} x.masks s).st == .registered)
  | 0x0718 => x.sk20.toNat
  | _ => match regIdx off 0x0540 16 with
    | some s => (Tab.get ({} : MaskSlot) x.masks s).info
    | none => (x.ctr.ctr off).toNat

/-- A FAB_ register. -/
def readFab (b : Blk) (off : Nat) : Nat :=
  if 0x1000 ≤ off ∧ off < 0x1000 + 0x100 * Config.nPorts then
    let p := b.port ((off - 0x1000) / 0x100)
    match (off - 0x1000) % 0x100 with
    | 0x00 => p.status
    | 0x10 => p.delay.toNat
    | o => (p.ctr.ctr o).toNat
  else match off with
    | 0x0000 => Config.fabCaps.toNat
    | 0x0C20 => fld b.fab.lossLastPos 56 + b.fab.lossLastAt
    | 0x0C28 => b.fab.discards.toNat
    | _ => match regIdx off 0x0400 256, regIdx off 0x0C00 4 with
      | some t, _ => (Tab.get ({} : Route) b.fab.routes t).reg
      | _, some i => bits b.fab.lost (64 * i + 63) (64 * i)
      | _, _ => 0

/-- A BELL_ register. -/
def readBell (b : Blk) (off : Nat) : Nat :=
  match off with
  | 0x0000 => if b.bell.st.counts then b.clk.bell else 0
  | 0x0008 => b.bell.status
  | 0x0010 => b.bell.epoch.toNat
  | 0x0018 => b.bell.ctrl
  | 0x0020 => if b.bell.isMaster then b.bell.ptpOffset.toNat else 0
  | 0x0028 => b.bell.upOffset.toNat
  | 0x0030 => fld b.bell.peak 16 + fld (b.flights.filter (·.comp)).length 8 + b.struct.plan.events
  | _ => 0

/-- A MEM_ register. lane_repaired of MEM_CAPACITY has eight bits and stops at 255 (log entry 100). -/
def MemSys.readReg (m : MemSys) (off : Nat) : Nat :=
  let n := Config.nPcs - popCount m.mapped Config.nPcs
  match off with
  | 0x0000 => fld (2 * n) 32 + fld (min m.repaired.length 0xFF) 16 + n
  | 0x0078 => fld (if m.floorBreach then 0x0710 else 0) 48 + fld (b2n m.saving.isSome) 2 + fld (b2n m.saveRefused) 1
      + b2n m.floorBreach
  | 0x0080 => m.pcSel
  | 0x0088 => m.pcStatus
  | 0x0090 => m.errLog.toNat
  | 0x00A0 => fld m.ceThreshold 32 + m.period
  | 0x0200 => fld m.repairStack 8 + b2n m.repairEn
  | 0x0210 => m.repairData.toNat
  | _ => match regIdx off 0x0010 6, regIdx off 0x0040 6, regIdx off 0x00C0 6 with
    | some i, _, _ => bits m.mapped (64 * i + 63) (64 * i)
    | _, some i, _ => bits m.next (64 * i + 63) (64 * i)
    | _, _, some i => bits m.suspect (64 * i + 63) (64 * i)
    | _, _, _ => (m.ctr.ctr off).toNat

/-- An HFC_ register. -/
def readHfc (b : Blk) (off : Nat) : Nat :=
  if 0x0100 ≤ off ∧ off < 0x0180 then
    let p := b.hostPort ((off - 0x0100) / 0x40)
    match (off - 0x0100) % 0x40 with
    | 0x00 => p.status
    | o => (p.ctr.ctr o).toNat
  else match off with
    | 0x0000 => b.ownerReg
    | 0x0210 => maskOf 64 (fun i => (b.window i).isOpen)
    | 0x0400 => b.bootStatus
    | 0x0408 => b.boot.fault
    | 0x0410 => fwReg b.boot.hfImage
    | 0x0418 => fwReg b.boot.fabImage
    | 0x0420 => fld b.flash.fabRollback 32 + b.flash.hfRollback
    | 0x0448 => b.boot.flashAddr.toNat
    | 0x0450 => b.boot.flashLen.toNat
    | 0x0458 => fld b.boot.flashCode 16 + b2n b.boot.flashJob.isSome
    | _ => (b.host.ctr.ctr off).toNat

/-- The value of the register at an address of a populated block; an offset that is no register reads 0 (R31). -/
def Blk.readReg (b : Blk) (a : Nat) : Nat :=
  if a < Config.galRegBase then readDev b (a - Config.devBase)
  else if a < Config.faceRegBase then ((b.gal ((a - Config.galRegBase) / 0x100000)).ctr.ctr ((a - Config.galRegBase) % 0x100000)).toNat
  else if a < Config.fabBase then (b.face ((a - Config.faceRegBase) / 0x10000)).readReg ((a - Config.faceRegBase) % 0x10000)
  else if a < Config.bellBase then readFab b (a - Config.fabBase)
  else if a < Config.memBase then readBell b (a - Config.bellBase)
  else if a < Config.hfcBase then b.ms.readReg (a - Config.memBase)
  else readHfc b (a - Config.hfcBase)

/-- An address that a register access may name (R486): in a populated block, 8-byte aligned. -/
def regOk (a : Nat) : Bool := isRegs a && a % 8 == 0

/-- Read a register on behalf of the host: MEM_REPAIR_DATA shifts as it is read. -/
def Work.regRead (w : Work) (a : Nat) : Nat × Work :=
  let w := if a = Config.memBase + 0x0210 then w.repairData false 0 else w
  (w.readReg a, w)

/-! ## Writing (R6 to R9) -/

/-- Replace the 64 bits of a mask at index `i`. -/
def setWord (m i v : Nat) : Nat := m - fld (bits m (64 * i + 63) (64 * i)) (64 * i) + fld (v % 2 ^ 64) (64 * i)
/-- Clear the bits of a mask that `v` names, in word `i` (W1C). -/
def clearWord (m i v : Nat) : Nat := (List.range 64).foldl (fun m j => if bit v j then setBit m (64 * i + j) false else m) m

/-- A DEV_ register. A write of DEV_STRUCT_CTRL with both bits set discards first, so that its commit finds the staging
buffer empty and is rejected with 0x0818 (log entry 101). -/
def Work.writeDev (w : Work) (off v : Nat) : Work :=
  match off with
  | 0x0100 =>
    let c := w.w1cClears (Config.devBase + 0x100) v
    w.modStruct fun s => { s with
      minorNewer := s.minorNewer && !bit c 4, optSkipped := s.optSkipped && !bit c 3, rejected := s.rejected && !bit c 1 }
  | 0x0118 => w.partQuiesce v
  | 0x0128 => let w := if bit v 1 then w.discardImage else w
              if bit v 0 then w.commitImage else w
  | 0x0300 => w.doorbell (bits v 47 32) (bits v 31 0)
  | 0x0308 => w.tallyAck (bits v 47 32) (bits v 31 0)
  | 0x0310 => w.modDev fun d => { d with qctxSel := bits v 15 0 }
  | 0x0318 => w.qctxCtrl (bits v 19 16) (bits v 15 0)
  | 0x0340 => w.devTag (bits v 46 32) (bits v 31 0)
  | 0x0348 => w.modDev fun d => { d with tagSel := bits v 14 0 }
  | 0x0380 => w.devReset v
  | 0x0390 => w.modDev fun d => { d with auditFailed := clearWord d.auditFailed 0 (w.w1cClears (Config.devBase + 0x390) v) }
  | 0x0980 => w.modDev fun d => { d with canarySel := bits v 3 0 }
  | _ =>
    match regIdx off 0x0200 16, regIdx off 0x0600 16, regIdx off 0x0700 16, regIdx off 0x0780 16, regIdx off 0x0A80 16 with
    | some p, _, _, _, _ => w.modPart p fun y => { y with qctxTable := fld (bits v 47 6) 6 }
    | _, some p, _, _, _ => w.grantArea p v
    | _, _, some p, _, _ => w.ratioArea p v
    | _, _, _, some p, _ => w.rosterArea p v
    | _, _, _, _, some p => w.modPart p fun y => { y with
        dropGate := bit v 8, dropped := (List.range 4).foldl (fun m i => if bit v i then setBit m i true else m) y.dropped }
    | _, _, _, _, _ => w

/-- A FACE_ register. -/
def Work.writeFace (w : Work) (f off v : Nat) : Work :=
  match off with
  | 0x0300 => w.setKeepWarm f v
  | 0x0718 => w.modFace f fun x => { x with sk20 := BitVec.ofNat 64 v }
  | _ => w

/-- A FAB_ register. -/
def Work.writeFab (w : Work) (off v : Nat) : Work :=
  if 0x1000 ≤ off ∧ off < 0x1000 + 0x100 * Config.nPorts then
    if (off - 0x1000) % 0x100 = 0x08 then w.portCtrl ((off - 0x1000) / 0x100) v else w
  else match regIdx off 0x0400 256, regIdx off 0x0C00 4 with
    | some t, _ => w.modFab fun f => { f with
        routes := f.routes.set {} t { valid := bit v 63, alternate := bits v 13 8, primary := bits v 5 0 } }
    | _, some i => w.clearLost i v
    | _, _ => w

/-- A BELL_ register: BELL_EPOCH and epoch_lock are locked by the lock (R9). -/
def Work.writeBell (w : Work) (off v : Nat) : Work :=
  match off with
  | 0x0010 => if w.bell.epochLock then w else w.modBell fun b => { b with epoch := BitVec.ofNat 64 v }
  | 0x0018 => w.modBell fun b => { b with
      epochLock := b.epochLock || bit v 16, ptpDomain := bits v 15 8, ptpIpv6 := bit v 2, ptpPort := bits v 1 0 }
  | _ => w

/-- A MEM_ register. -/
def Work.writeMem (w : Work) (off v : Nat) : Work :=
  match off with
  | 0x0070 => if bit v 0 then w.healthSave else w
  | 0x0078 => w.modMs fun m => { m with saveRefused := m.saveRefused && !bit (w.w1cClears (Config.memBase + 0x78) v) 1 }
  | 0x0080 => w.modMs fun m => { m with pcSel := bits v 8 0 }
  | 0x00A0 => w.modMs fun m => { m with ceThreshold := bits v 63 32, period := bits v 7 0 }
  | 0x0200 => w.repairCtrl v
  | 0x0208 => w.repairCmd v
  | 0x0210 => w.repairData true v
  | _ => match regIdx off 0x0040 6, regIdx off 0x00C0 6 with
    | some i, _ => w.modMs fun m => { m with next := setWord m.next i v }
    | _, some i => w.modMs fun m => { m with suspect := clearWord m.suspect i (w.w1cClears (Config.memBase + 0xC0 + 8 * i) v) }
    | _, _ => w

/-- An HFC_ register. -/
def Work.writeHfc (w : Work) (off v : Nat) : Work :=
  match off with
  | 0x0440 => w.flashCmd (bits v 3 0)
  | 0x0448 => w.modBoot fun b => { b with flashAddr := BitVec.ofNat 64 (bits v 47 0) }
  | 0x0450 => w.modBoot fun b => { b with flashLen := BitVec.ofNat 64 v }
  | _ => w

/-- One register write at an address of a populated block; one to an offset that is no register is ignored (R31, R8). -/
def Work.regWrite (w : Work) (a v : Nat) : Work :=
  let v := u64 v
  if a < Config.galRegBase then w.writeDev (a - Config.devBase) v
  else if a < Config.faceRegBase then w
  else if a < Config.fabBase then w.writeFace ((a - Config.faceRegBase) / 0x10000) ((a - Config.faceRegBase) % 0x10000) v
  else if a < Config.bellBase then w.writeFab (a - Config.fabBase) v
  else if a < Config.memBase then w.writeBell (a - Config.bellBase) v
  else if a < Config.hfcBase then w.writeMem (a - Config.memBase) v
  else w.writeHfc (a - Config.hfcBase) v

/-- REGISTER_WRITE (R6): a write to an address that is no register of a populated block has no effect. -/
def execRegisterWrite (addr value : Nat) (s : State) : Host.Outcome State Fault Refusal :=
  run (fun w => if regOk addr then w.regWrite addr value else w) s

end Sys2Proof.Machine
end

