-- ==== Sys2Proof/Machine/Adit.lean ====
section
/-! DEFINITION. The Adit protocol's requests (R481 to R503): headers, fragments, order, sessions and owner, and what each
request does. The rows stand in Machine/Host.lean. -/

namespace Sys2Proof.Machine

/-! ## Headers (R481, R482) -/

/-- The message type of a request (R483). -/
def reqType : Req → Nat
  | .sessionOpen .. => 0x10 | .leaseRenew => 0x11 | .sessionClose => 0x12 | .custodyClaim => 0x13
  | .regRead .. => 0x20 | .regWrite .. => 0x21 | .memRead .. => 0x22 | .memWrite .. => 0x23 | .doorbell .. => 0x24
  | .reset .. => 0x25 | .imageWrite .. => 0x26 | .grant .. => 0x30 | .eventAck .. => 0x33 | .telemetrySet .. => 0x40
  | .windowOpen .. => 0x50 | .windowClose .. => 0x51 | .addrSet .. => 0x60 | .reservedType t => t

/-- Version, reserved bits, body length and fragment fields are as R481 has them (R482); a datagram inside an SPDM session
is whole (R498). -/
def hdrOk (h : Hdr) : Bool :=
  h.version == 1 && decide (h.flags < 4) && h.rsv == 0 && decide (h.bodyLen ≤ 65536)
    && h.fragCount == (if h.spdm.isSome then 1 else fragsOf h.bodyLen) && decide (h.fragIndex < h.fragCount)
/-- The bytes of frames that bring a datagram: its header and its fragment of the body, or, of one inside an SPDM session,
the whole SECURED message. -/
def Blk.hdrBytes (b : Blk) (h : Hdr) : Nat :=
  let piece := fun (n i : Nat) => b.frame h.port h.src (24 + min 8192 (n - 8192 * i))
  if h.spdm.isSome then
    let n := 46 + h.bodyLen
    ((List.range (fragsOf n)).map (piece n)).sum
  else piece h.bodyLen h.fragIndex
/-- Where the answer to a datagram goes (R480, R490). -/
def hdrBack (h : Hdr) : HostTo := ⟨h.port, h.src, h.udp⟩
/-- The bytes of a request's body (R483), where its type has one. -/
def reqSize? : Req → Option Nat
  | .sessionOpen .. => some 20
  | .leaseRenew | .sessionClose | .custodyClaim => some 0
  | .regRead l => some (8 * l.length)
  | .regWrite l => some (16 * l.length)
  | .memRead .. => some 16
  | .memWrite _ l => some (8 + l.length)
  | .doorbell l => some (8 * l.length)
  | .reset .. => some 8
  | .imageWrite _ _ l => some (8 + l.length)
  | .grant _ _ _ l => some (8 + l.length)
  | .eventAck _ => some 4
  | .telemetrySet _ _ l => some (4 + 8 * l.length)
  | .windowOpen _ => some 44
  | .windowClose .. => some 8
  | .addrSet l => some l.length
  | .reservedType _ => none
/-- The header is one that a request has: no reply flag, no device flag, status 0. -/
def hdrRequest (h : Hdr) : Bool := h.flags == 0 && h.status == 0
/-- The header fits its request: body_len is the length of the body (R481). -/
def hdrFits (h : Hdr) (r : Req) : Bool := hdrRequest h && (match reqSize? r with | some n => h.bodyLen == n | none => true)

/-- A datagram is discarded and counted in HFC_ADIT_DROPS. -/
def Work.aditDrop (w : Work) : Work := w.hfcCtr 0x0200 1

/-- An established SPDM session. -/
def Blk.spdm? (b : Blk) (id : Nat) : Option SpdmSession := b.host.spdm.find? (fun x => x.id == id && x.established)
/-- The SPDM session a datagram came in, where it came in one, is established. -/
def Blk.spdmOk (b : Blk) (h : Hdr) : Bool :=
  match h.spdm with
  | none => true
  | some id => (b.spdm? id).isSome

/-- Whether a fragment completes its message (each names the whole of it, log entry 121), and the messages that are still in part; none where it has no place. -/
def assemble (l : List Frag) (h : Hdr) (now : Nat) : Option (Bool × List Frag) :=
  if h.fragCount = 1 then some (true, l)
  else match l.find? (fun f => f.seq == h.seq) with
    | none => if l.length ≥ 4 then none else some (false, l ++ [⟨h.seq, now, h.fragCount, [h.fragIndex]⟩])
    | some f =>
      if f.count ≠ h.fragCount then none
      else
        let got := if h.fragIndex ∈ f.have_ then f.have_ else f.have_ ++ [h.fragIndex]
        if got.length = f.count then some (true, l.filter (fun x => x.seq != h.seq))
        else some (false, l.map (fun x => if x.seq = h.seq then { x with have_ := got } else x))

/-! ## Replies (R483, R484) -/

/-- Send a reply to where its request came from, a datagram for each fragment. In an SPDM session the body is that of the
SECURED message round it: session id, length, the inner header and body, the MAC (R498). -/
def Work.replyTo (w : Work) (h : Hdr) (t code : Nat) (body : List Nat) : Work :=
  let l := if h.spdm.isSome then fragments 30 16 body else fragments 0 0 body
  w.each l.zipIdx fun w x =>
    w.hostSend (hdrBack h) (24 + x.1.1) (.reply (hdrBack h) h.spdm t h.session h.seq code (x.2, l.length) x.1.2)
/-- Keep a reply among the last 32 of its session. -/
def Session.store (x : Session) (seq : Nat) (r : Reply) : Session :=
  { x with replies := (x.replies ++ [(seq, r)]).drop (x.replies.length - 31) }
/-- Keep a reply and send it. -/
def Work.finish (w : Work) (h : Hdr) (t code : Nat) (body : List Nat) : Work :=
  (w.modSession h.session fun x => x.store h.seq ⟨t, code, body⟩).replyTo h t code body

/-! ## Sessions and owner (R491 to R496) -/

/-- The owner state changes: an event (R501). -/
def Work.ownerTo (w : Work) (o : Owner) : Work :=
  let old := w.host.owner
  if o = old then w
  else (w.modHost fun h => { h with owner := o }).raise 9 0xFF 0 0 [old.code, o.code]

/-- A session is gone. -/
def Work.dropSession (w : Work) (id : Nat) : Work :=
  w.modHost fun h => { h with sessions := h.sessions.filter (fun x => x.id != id) }

/-- A session ends (R492, R493): with the control session every window closes (R505). -/
def Work.endSession (w : Work) (id : Nat) : Work :=
  match w.session? id with
  | none => w
  | some s =>
    let w := w.dropSession id
    if s.mode = 1 then (w.shutWindows (fun _ => true)).ownerTo .orphaned
    else if s.mode = 2 then w.ownerTo .orphaned
    else w

/-- The code with which SESSION_OPEN is refused, or 0 (R491, R494, R495). -/
def Blk.openCode (b : Blk) (h : Hdr) (mode leaseLog2 : Nat) : Nat :=
  if mode > 1 then 0x0B03
  else if leaseLog2 < 24 ∨ leaseLog2 > 32 then 0x0B09
  else if mode = 1 ∧ h.spdm.isNone then 0x0B07
  else if mode = 1 ∧ b.host.owner = .owned then 0x0B05
  else if mode = 1 ∧ b.host.owner ≠ .unowned then 0x0B06
  else if mode = 1 ∧ b.flash.claimant.isSome ∧ (h.spdm.bind b.spdm?).map (·.leaf) ≠ b.flash.claimant then 0x0B11
  else if b.host.sessions.length ≥ 16 then 0x0B08 else 0

/-- A SESSION_OPEN that is accepted: the session. The number from which its device-initiated messages count (R501) is
not stated (log entry 16). -/
def Work.addSession (w : Work) (h : Hdr) (mode leaseLog2 : Nat) : Work :=
  let id := w.host.lastId + 1
  let k := w.fresh
  let w := k.2.modHost fun x => { x with
    lastId := id
    sessions := x.sessions ++ [{ id := id, mode := mode, leaseLog2 := leaseLog2, expiry := w.clk.lease + 2 ^ leaseLog2,
                                 spdm := h.spdm, nextSeq := (h.seq + 1) % 2 ^ 32, port := h.port, addr := h.src, udp := h.udp,
                                 evSeq := Config.freeNat 8 k.1 % 2 ^ 32 }] }
  if mode = 1 then (w.modHost fun x => { x with reservedUntil := none }).modFlash fun f => f.setClaimant none else w

/-- SESSION_OPEN: the reply shows the owner state that the open leads to, and goes before the OWNER event (R480). -/
def Work.openSession (w : Work) (h : Hdr) (mode leaseLog2 : Nat) : Work :=
  match w.openCode h mode leaseLog2 with
  | 0 =>
    let w := w.addSession h mode leaseLog2
    let o := if mode = 1 then .owned else w.host.owner
    (w.replyTo h 0x10 0 (leBytes 4 w.host.lastId ++ [leaseLog2, o.code, 0, 0] ++ leBytes 8 w.struct.plan.serial
      ++ leBytes 8 (readBell w.toBlk 0))).ownerTo o
  | c => w.replyTo h 0x10 c []

/-! ## Which request a session may send (R483, R513) -/

/-- The session modes that may send a request. -/
def reqAllowed (r : Req) (mode : Nat) : Bool :=
  match r with
  | .leaseRenew | .sessionClose | .telemetrySet .. => true
  | .custodyClaim => mode == 0
  | .regRead .. | .memRead .. | .reset .. => mode == 1 || mode == 2
  | .eventAck .. => mode == 0 || mode == 1
  | .regWrite .. | .memWrite .. | .doorbell .. | .imageWrite .. | .grant .. | .windowOpen .. | .windowClose .. | .addrSet .. =>
    mode == 1
  | .sessionOpen .. | .reservedType .. => true
/-- The requests that mask ROM serves in RECOVERY. -/
def reqInRecovery : Req → Bool
  | .leaseRenew | .sessionClose | .custodyClaim | .regRead .. | .regWrite .. | .memRead .. | .memWrite .. => true
  | .reset scope _ _ => scope == 4 || scope == 5
  | .sessionOpen .. | .reservedType .. => true
  | _ => false
/-- Counts, lengths and reserved bytes of a body lie in their ranges. -/
def reqBodyOk : Req → Bool
  | .regRead l => decide (1 ≤ l.length) && decide (l.length ≤ 128)
  | .regWrite l => decide (1 ≤ l.length) && decide (l.length ≤ 128)
  | .memRead _ n rsv => decide (1 ≤ n) && decide (n ≤ 65536) && rsv == 0
  | .memWrite _ l => decide (1 ≤ l.length) && decide (l.length ≤ 65528)
  | .doorbell l => decide (1 ≤ l.length) && decide (l.length ≤ 256)
  | .reset _ _ rsv => rsv == 0
  | .imageWrite _ rsv l => rsv == 0 && decide (1 ≤ l.length) && decide (l.length ≤ 65528)
  | .grant _ _ rsv _ => rsv == 0
  | .telemetrySet _ rsv _ => rsv == 0
  | .windowOpen x => decide (x.window < 64) && decide (x.access < 4) && x.rsv == 0 && decide (x.destQpn < 2 ^ 24)
  | .windowClose x rsv => decide (x < 64) && rsv == 0
  | .sessionOpen _ _ rsv label => rsv == 0 && label.length == 16
  | _ => true
/-- The code that a request draws before it is looked at further, or 0. -/
def Blk.reqCode (b : Blk) (r : Req) (mode : Nat) : Nat :=
  match r with
  | .reservedType t => if t = 0x31 ∨ t = 0x32 ∨ t = 0x41 then 0x0B03 else 0x0B02
  | .sessionOpen .. => 0x0B01
  | _ =>
    if !reqAllowed r mode ∨ (b.boot.st = .recovery ∧ !reqInRecovery r) then 0x0B03
    else if !reqBodyOk r then 0x0B01 else 0

/-! ## Registers and memory (R486, R487) -/

/-- The code with which a register access stops at an address, or 0; RECOVERY reaches the HFC_ block only. -/
def Blk.regCode (b : Blk) (a : Nat) : Nat :=
  if !regOk a then 0x0B0A
  else if b.boot.st = .recovery ∧ !(decide (Config.hfcBase ≤ a) && decide (a < Config.hfcBase + 0x1000000)) then 0x0701 else 0

/-- The values read, the code and the stopping index. -/
def Work.readRegs (w : Work) : List Nat → Nat → List Nat × Nat × Nat × Work
  | [], _ => ([], 0, 0, w)
  | a :: l, i =>
    match w.regCode a with
    | 0 =>
      let x := w.regRead a
      let r := Work.readRegs x.2 l (i + 1)
      (x.1 :: r.1, r.2)
    | c => ([], c, i, w)
/-- REG_READ. -/
def Work.aditRegRead (w : Work) (h : Hdr) (addrs : List Nat) : Work :=
  let r := w.readRegs addrs 0
  let body := r.1.flatMap (leBytes 8)
  r.2.2.2.finish h 0x20 r.2.1 (if r.2.1 = 0 then body else body ++ leBytes 2 r.2.2.1)

/-- Pairs written in order, and the code and index at which the message stops; a reset among them ends it. -/
def Work.writeRegs (w : Work) (id : Nat) : List (Nat × Nat) → Nat → Nat × Nat × Work
  | [], _ => (0, 0, w)
  | x :: l, i =>
    if (w.session? id).isNone then (0, 0, w)
    else match w.regCode x.1 with
      | 0 => Work.writeRegs (w.regWrite x.1 x.2) id l (i + 1)
      | c => (c, i, w)
/-- REG_WRITE: no reply where a write has started a reset of the device. -/
def Work.aditRegWrite (w : Work) (h : Hdr) (pairs : List (Nat × Nat)) : Work :=
  let r := w.writeRegs h.session pairs 0
  let w := r.2.2
  if (w.session? h.session).isNone then w else w.finish h 0x21 r.1 (if r.1 = 0 then [] else leBytes 2 r.2.1)

/-- The code with which the headframe controller's access is refused, or 0 (R447, R487, R513): it reaches HBM and the
stores, the first three regions of R29. -/
def Blk.hfcCode (b : Blk) (a n : Nat) : Nat :=
  if b.ms.repairEn then 0x0B15
  else if b.boot.st = .recovery then
    (if Config.galBase ≤ a ∧ a + n ≤ Config.galBase + Config.galSize then 0 else 0x0701)
  else if ((populated.take 3).map (overlap a n)).sum < n then 0x0701
  else b.rangeCode a n

/-- MEM_READ. -/
def Work.aditMemRead (w : Work) (h : Hdr) (a n : Nat) : Work :=
  match w.hfcCode a n, w.eccAt a n with
  | 0, none => (w.softMet [(a, n)]).finish h 0x22 0 (w.bytes a n)
  | 0, some (_, c) => ((w.softMet [(a, n)]).hfcEcc a n).finish h 0x22 c []
  | c, _ => w.finish h 0x22 c []

/-- The code of an uncorrectable sector or word that a write covers in part, so that its rest would have to be read. -/
def Blk.partEcc (b : Blk) (a n : Nat) : Nat :=
  let hit := fun unit s => decide (a < unit * s + unit) && decide (unit * s < a + n)
    && !(decide (a ≤ unit * s) && decide (unit * s + unit ≤ a + n))
  if a < Config.hbmEnd then (if b.ms.badSectors.any (hit 32) then 0x0704 else 0)
  else (if b.ms.badWords.any (hit 8) then 0x0705 else 0)

/-- MEM_WRITE. -/
def Work.aditMemWrite (w : Work) (h : Hdr) (a : Nat) (l : List Nat) : Work :=
  match w.hfcCode a l.length, w.partEcc a l.length with
  | 0, 0 => (w.storeHfc a l).finish h 0x23 0 []
  | 0, c => (w.hfcEcc a l.length).finish h 0x23 c []
  | c, _ => w.finish h 0x23 c []

/-! ## The other requests -/

/-- SESSION_CLOSE (R493). -/
def Work.aditClose (w : Work) (h : Hdr) (s : Session) : Work :=
  if s.mode = 1 then
    if w.allQuiesced && w.host.ports.all (fun e => e.2.roceq.isEmpty) then
      (((w.dropSession s.id).shutWindows (fun _ => true)).replyTo h 0x12 0 []).ownerTo .unowned
    else w.finish h 0x12 0x0B14 []
  else (w.replyTo h 0x12 0 []).endSession s.id

/-- CUSTODY_CLAIM (R493). -/
def Work.aditClaim (w : Work) (h : Hdr) (s : Session) : Work :=
  if w.host.owner ≠ .orphaned then w.finish h 0x13 0x0B03 []
  else if s.spdm.isNone then w.finish h 0x13 0x0B07 []
  else ((w.modSession s.id fun x => { x with mode := 2 }).finish h 0x13 0 []).ownerTo .custody

/-- One entry of DOORBELL (R486). -/
def Work.aditBell (w : Work) (e : Nat × Nat × Nat) : Work :=
  if e.1 = 0 then w.doorbell e.2.1 e.2.2 else if e.1 = 1 then w.tallyAck e.2.1 e.2.2 else w

/-- The value of DEV_RESET that names a scope and index (R133). -/
def resetValue (scope index : Nat) : Nat := fld (scope % 16) 16 + index % 256

/-- RESET (R489): a warm or cold one after its reply, with the claimant's digest written first (R495). -/
def Work.aditReset (w : Work) (h : Hdr) (s : Session) (scope index : Nat) : Work :=
  if w.dev.reset.isSome then w.finish h 0x25 0x0B12 []
  else if scope = 4 ∨ scope = 5 then
    let w := w.finish h 0x25 0 []
    let w := if s.mode = 2 then w.modFlash fun f => f.setClaimant ((s.spdm.bind w.spdm?).map (·.leaf)) else w
    w.devReset (resetValue scope index)
  else ((if scope < 16 then w.devReset (resetValue scope index) else w)).finish h 0x25 0 []

/-- IMAGE_WRITE (R488). -/
def Work.aditImage (w : Work) (h : Hdr) (off : Nat) (l : List Nat) : Work :=
  let s := w.struct
  if off ≠ s.staging.length ∨ s.staging.length + l.length > 0x100000 ∨ s.loadState = 2 ∨ s.loadState = 3 then
    w.finish h 0x26 0x0B0E []
  else (w.modStruct fun x => { x with staging := x.staging ++ l.map (· % 256), loadState := 1 }).finish h 0x26 0 []

/-- GRANT (R302). -/
def Work.aditGrant (w : Work) (h : Hdr) (p layer : Nat) (body : List Nat) : Work :=
  match w.grantCode p layer body with
  | 0 => (w.takeGrant p layer body).finish h 0x30 0 []
  | c => (w.devCtr 0x0688 1).finish h 0x30 c []

/-- `a` is at or before `b` in the order of sequence numbers, which wrap. -/
def seqLe (a b : Nat) : Bool := decide ((b + 2 ^ 32 - a % 2 ^ 32) % 2 ^ 32 < 2 ^ 31)

/-- EVENT_ACK (R501); the count of messages discarded goes in an OVERFLOW event once there is room. -/
def Work.aditAck (w : Work) (h : Hdr) (upTo : Nat) : Work :=
  let w := (w.modSession h.session fun x => { x with unacked := x.unacked.filter (fun u => !seqLe u.seq upTo) }).finish
    h 0x33 0 []
  match w.session? h.session with
  | some s =>
    if s.overflow > 0 ∧ s.unacked.length < 256 then
      (w.modSession s.id fun x => { x with overflow := 0 }).sendMsg s.id
        (.event ⟨0x0A, 0xFF, 0, 0, w.now, leBytes 4 s.overflow ++ List.replicate 28 0⟩)
    else w
  | none => w

/-- TELEMETRY_SET (R502). -/
def Work.aditTele (w : Work) (h : Hdr) (period : Nat) (addrs : List Nat) : Work :=
  if (period ≠ 0 ∧ (period < 14 ∨ period > 30)) ∨ addrs.length > 128 then w.finish h 0x40 0x0B09 []
  else if !addrs.all regOk then w.finish h 0x40 0x0B0A []
  else (w.modSession h.session fun x => { x with telePeriod := period, teleAddrs := addrs, teleAt := w.clk.lease }).finish
    h 0x40 0 []

/-- The code with which WINDOW_OPEN is refused, or 0 (R503). -/
def Blk.windowCode (b : Blk) (x : WindowReq) : Nat :=
  if (b.window x.window).isOpen then 0x0B10
  else if !b.struct.plan.defines x.part ∨ x.base % 4096 ≠ 0 ∨ x.length = 0 ∨ x.length % 4096 ≠ 0
      ∨ !b.inHbmPart x.part x.base x.length then 0x0B0F
  else 0
/-- WINDOW_OPEN: the queue pair number and the R_Key are the device's choice (R503). -/
def Work.aditWindow (w : Work) (h : Hdr) (x : WindowReq) : Work :=
  match w.windowCode x with
  | 0 =>
    let k := w.fresh
    let qpn := Config.freeNat 2 k.1 % 2 ^ 24
    let rkey := Config.freeNat 3 k.1 % 2 ^ 32
    (k.2.modWindow x.window fun _ =>
      { isOpen := true, part := x.part, access := x.access, base := x.base, length := x.length, gid := x.gid,
        destQpn := x.destQpn, qpn := qpn, rkey := rkey, psn := x.startPsn % 2 ^ 24 }).finish h 0x50 0
      (leBytes 4 qpn ++ leBytes 4 rkey)
  | c => w.finish h 0x50 c []
/-- Answers of a window wait at a port (R505). -/
def Blk.answering (b : Blk) (i : Nat) : Bool := b.host.ports.any (fun e => e.2.roceq.any (fun k => k.window == i))
/-- A WINDOW_CLOSE that awaits the end of its window's operations, for a request of a session. -/
def Blk.closingFor (b : Blk) (session seq : Nat) : Bool := b.host.closing.any (fun e => e.2.session == session && e.2.seq == seq)
/-- WINDOW_CLOSE (R505): its reply waits for the answers that are still to go; requests draw NAKs at once. -/
def Work.aditUnwindow (w : Work) (h : Hdr) (i : Nat) : Work :=
  if !(w.window i).isOpen ∨ w.host.closing.any (fun e => e.1 == i) then w.finish h 0x51 0x0B10 []
  else if w.answering i then
    (w.modWindow i fun x => { x with error := true }).modHost fun x => { x with closing := x.closing ++ [(i, h)] }
  else (w.shutWindow i).finish h 0x51 0 []
/-- The WINDOW_CLOSE requests whose windows have no answer left complete. -/
def Work.endClosing (w : Work) : Work :=
  w.each (w.host.closing.filter (fun e => !w.answering e.1)) fun w e =>
    let w := w.modHost fun x => { x with closing := x.closing.filter (fun y => y.1 != e.1) }
    if (w.session? e.2.session).isSome then (w.shutWindow e.1).finish e.2 0x51 0 [] else w.shutWindow e.1

/-! ## ADDR_SET (R490) -/

/-- The UDP payload of a RoCEv2 packet (log entry 117): a base header and an ICRC, what its kind adds, and data padded to 4
bytes. -/
def RocePkt.size (k : RocePkt) (n : Nat) : Nat :=
  12 + (if k.kind = 4 then 16 else 4) + 4 * ceilDiv n 4 + 4
/-- Packets of a message of `n` bytes at a path MTU of 4,096. -/
def rocePackets (n : Nat) : Nat := max 1 (ceilDiv n 4096)
/-- The bytes of the frames of a RoCEv2 message's packets. -/
def Blk.roceFrames (b : Blk) (port : Nat) (k : RocePkt) : Nat :=
  ((List.range (rocePackets k.data.length)).map (fun i =>
    b.frame port (b.window k.window).gid (k.size (min 4096 (k.data.length - 4096 * i))))).sum
/-- Send a RoCEv2 message by a port to the host of its window; the frames of its packets are counted. -/
def Work.roceOut (w : Work) (port : Nat) (k : RocePkt) : Work :=
  w.hostOut ⟨port, (w.window k.window).gid, 4791⟩ (w.roceFrames port k) (.roce port k)

/-- The partition of a RoCEv2 message's window. -/
def Blk.rocePart (b : Blk) (k : RocePkt) : Nat := (b.window k.window).part
/-- Of the messages that wait, in their order within a partition, the one of the partition that has had least for its weight
(R57, R58, R505): `had` holds the bytes that each has sent. -/
def Blk.roceNext (b : Blk) (port : Nat) (had : Tab Nat) (l : List RocePkt) : Option RocePkt :=
  let first := l.filter (fun k => (l.find? (fun j => b.rocePart j == b.rocePart k)) == some k)
  let cost := fun (k : RocePkt) => Tab.get 0 had (b.rocePart k) + b.roceFrames port k
  let wt := fun (k : RocePkt) => b.struct.plan.weight 1 (b.rocePart k)
  first.find? (fun k => first.all (fun j => decide (cost k * wt j ≤ cost j * wt k)))
/-- Send the messages that wait at a port, at most `n`. -/
def Work.roceGo (w : Work) (port : Nat) (had : Tab Nat) (l : List RocePkt) : Nat → Work
  | 0 => w
  | n + 1 => match w.roceNext port had l with
    | none => w
    | some k => Work.roceGo (w.roceOut port k) port (had.upd 0 (w.rocePart k) (· + w.roceFrames port k)) (l.erase k) n

/-- RoCEv2 transmission on a port goes on: what waited is sent (R478). -/
def Work.unpause (w : Work) (port : Nat) : Work :=
  let l := (w.hostPort port).roceq
  ((w.modHostPort port fun p => { p with paused := false, roceq := [] }).roceGo port [] l l.length).endClosing

/-- One further IPv6 address and its prefix length: in use, or all zero. -/
def v6Ok (used : Bool) (a k : Nat) : Bool :=
  if used then a != 0 && a != 1 && a / 2 ^ 120 != 0xFF && decide (1 ≤ k) && decide (k ≤ 128) else a == 0 && k == 0

/-- The body is valid. -/
def addrOk (l : List Nat) : Bool :=
  let v4 := beNat ((l.drop 8).take 4)
  let g4 := beNat ((l.drop 12).take 4)
  let g6 := beNat ((l.drop 16).take 16)
  let a0 := beNat ((l.drop 32).take 16)
  let a1 := beNat ((l.drop 56).take 16)
  let n := nth l 6
  decide (l.length = 80) && decide (nth l 0 < 2) && decide (nth l 1 < 2) && decide (leAt l 2 2 ≤ 4094)
    && (decide (nth l 4 < 8) || nth l 4 == 0xFF) && decide (n ≤ 2) && nth l 7 == 0 && leAt l 49 7 == 0 && leAt l 73 7 == 0
    && (if v4 = 0 then nth l 5 == 0 && g4 == 0
        else decide (1 ≤ nth l 5) && decide (nth l 5 ≤ 32) && v4 / 2 ^ 28 != 14 && v4 / 2 ^ 24 != 127
          && (g4 == 0 || samePlace 32 (nth l 5) v4 g4))
    && v6Ok (decide (n ≥ 1)) a0 (nth l 48) && v6Ok (decide (n ≥ 2)) a1 (nth l 72)
    && (g6 == 0 || g6 / 2 ^ 118 == 0x3FA || (decide (n ≥ 1) && samePlace 128 (nth l 48) a0 g6)
        || (decide (n ≥ 2) && samePlace 128 (nth l 72) a1 g6))

/-- ADDR_SET: every setting of the port is replaced, in flash too where the body says save. -/
def Work.aditAddr (w : Work) (h : Hdr) (l : List Nat) : Work :=
  let l := l.map (· % 256)
  if !addrOk l then w.finish h 0x60 0x0B16 []
  else
    let n := nth l 0
    let w := w.finish h 0x60 0 []
    let w := if nth l 4 = (w.hostPort n).pfcPriority then w else w.unpause n
    let w := w.modHostPort n fun p => { p with vlan := leAt l 2 2, pfcPriority := nth l 4, settings := l }
    if nth l 1 = 1 then w.modFlash fun f => { f with portSettings := f.portSettings.upd (.of []) n (fun t => t.put true l) } else w

/-! ## Order (R484, R485) -/

/-- What one request does; it has its reply. -/
def Work.serve (w : Work) (s : Session) (h : Hdr) (r : Req) : Work :=
  match w.reqCode r s.mode with
  | 0 =>
    match r with
    | .leaseRenew => w.finish h 0x11 0 []
    | .sessionClose => w.aditClose h s
    | .custodyClaim => w.aditClaim h s
    | .regRead l => w.aditRegRead h l
    | .regWrite l => w.aditRegWrite h l
    | .memRead a n _ => w.aditMemRead h a n
    | .memWrite a l => w.aditMemWrite h a l
    | .doorbell l => (w.each l Work.aditBell).finish h 0x24 0 []
    | .reset scope index _ => w.aditReset h s scope index
    | .imageWrite off _ l => w.aditImage h off l
    | .grant p layer _ body => w.aditGrant h p layer body
    | .eventAck upTo => w.aditAck h upTo
    | .telemetrySet period _ addrs => w.aditTele h period addrs
    | .windowOpen x => w.aditWindow h x
    | .windowClose i _ => w.aditUnwindow h i
    | .addrSet l => w.aditAddr h l
    | .sessionOpen .. | .reservedType .. => w
  | c => w.finish h (reqType r) c []

/-- A session's request executes: its lease is renewed (R492). -/
def Work.execute (w : Work) (h : Hdr) (r : Req) : Work :=
  match w.session? h.session with
  | none => w
  | some s => (w.modSession s.id fun x => { x with expiry := w.clk.lease + 2 ^ x.leaseLog2 }).serve s h r

/-- The requests held for order, as far as the gap has filled, in at most so many steps. -/
def Work.runHeld (w : Work) (id : Nat) : Nat → Work
  | 0 => w
  | n + 1 =>
    match w.session? id with
    | none => w
    | some s =>
      let next := fun (x : Session) => { x with nextSeq := (x.nextSeq + 1) % 2 ^ 32 }
      if s.nextSeq ∈ s.ahead then
        Work.runHeld (w.modSession id fun x => { next x with ahead := x.ahead.filter (· != s.nextSeq) }) id n
      else match s.held.find? (fun e => e.1.seq == s.nextSeq) with
        | some e =>
          let w := w.modSession id fun x => { next x with held := x.held.filter (fun y => y.1.seq != s.nextSeq) }
          Work.runHeld (w.execute e.1 e.2) id n
        | none => w

/-- All that may wait in a session: its held requests and the numbers that acted on arrival. -/
def Work.runAll (w : Work) (id : Nat) : Work :=
  match w.session? id with
  | some s => w.runHeld id (s.held.length + s.ahead.length + 1)
  | none => w

/-- The request acts when it arrives (R485). -/
def onArrival : Req → Bool
  | .leaseRenew | .grant .. | .eventAck .. => true
  | _ => false

/-- A request that has been executed, answered from the store; one whose reply is still to come has no answer yet. -/
def Work.again (w : Work) (s : Session) (h : Hdr) (t : Nat) : Work :=
  match s.replies.find? (fun e => e.1 == h.seq) with
  | some (_, r) => w.replyTo h r.type r.status r.body
  | none => if w.closingFor s.id h.seq then w else w.replyTo h t 0x0B0D []

/-- A whole request of a session, in its place in the order. -/
def Work.inOrder (w : Work) (s : Session) (h : Hdr) (r : Req) : Work :=
  let ahead := (h.seq + 2 ^ 32 - s.nextSeq % 2 ^ 32) % 2 ^ 32
  let old := decide (ahead ≥ 2 ^ 31)
  if old ∨ h.seq ∈ s.ahead then w.again s h (reqType r)
  else if onArrival r then
    ((w.modSession s.id fun x => { x with ahead := x.ahead ++ [h.seq] }).execute h r).runAll s.id
  else if ahead = 0 then
    ((w.modSession s.id fun x => { x with nextSeq := (x.nextSeq + 1) % 2 ^ 32 }).execute h r).runAll s.id
  else if ahead ≤ 32 then
    if s.held.any (fun e => e.1.seq == h.seq) then w
    else w.modSession s.id fun x => { x with held := x.held ++ [(h, r)] }
  else w

/-- A datagram of a session: attributed, checked, assembled (R482, R499). Device-initiated messages go where the most
recent request came from (R490). -/
def Work.ofSession (w : Work) (s : Session) (h : Hdr) (r : Req) : Work :=
  if s.spdm.isSome ∧ h.spdm ≠ s.spdm then w.replyTo h (reqType r) 0x0B07 []
  else if !hdrFits h r then w.replyTo h (reqType r) 0x0B01 []
  else match assemble s.frags h w.clk.lease with
    | none => w.aditDrop
    | some (whole, l) =>
      let w := w.modSession s.id fun x =>
        { x with frags := l, port := h.port, addr := h.src, udp := h.udp }
      if whole then w.inOrder s h r else w

/-- A datagram outside a session: SESSION_OPEN only. -/
def Work.noSession (w : Work) (h : Hdr) (r : Req) : Work :=
  match r with
  | .sessionOpen mode leaseLog2 _ _ =>
    if h.session ≠ 0 ∨ !hdrFits h r ∨ !reqBodyOk r then w.aditDrop else w.openSession h mode leaseLog2
  | _ => w.aditDrop

/-- A datagram whose header is well formed: that of a session, or SESSION_OPEN. -/
def Work.datagram (w : Work) (h : Hdr) (r : Req) : Work :=
  if !hdrOk h ∨ !w.spdmOk h then w.aditDrop
  else match (if h.session = 0 then none else w.session? h.session) with
    | some s => w.ofSession s h r
    | none => w.noSession h r

/-- The order in which a host port sends what a row brings it (R480): PTP messages, then replies, then device-initiated
messages, then RoCEv2 packets. -/
def egressOrder (l : List Out) : List Out :=
  let turn : Out → Nat := fun o => match o with
    | .ptp .. => 0
    | .message .. | .telemetry .. => 2
    | .roce .. => 3
    | _ => 1
  (List.range 4).flatMap fun t => l.filter (turn · == t)
/-- What a row has sent goes in that order. -/
def Work.ordered (w : Work) (f : Work → Work) : Work :=
  let v := f w
  { v with out := v.out.take w.out.length ++ egressOrder (v.out.drop w.out.length) }

/-- An Adit datagram arrives at a host port: the ports are dark until PLAN, RECOVERY or LIMITED, and in PLAN a datagram is
discarded (R511). -/
def Work.arrives (w : Work) (h : Hdr) (f : Work → Work) : Work :=
  if !w.boot.st.lit then w
  else
    let w := w.hostIn h.port (w.hdrBytes h)
    if w.boot.st = .plan then w.aditDrop else w.ordered f

/-- A request datagram arrives (R481 to R485, R511). -/
def Work.adit (w : Work) (h : Hdr) (r : Req) : Work := w.arrives h fun w => w.datagram h r

end Sys2Proof.Machine
end

