-- ==== Sys2Proof/Machine/Host.lean ====
section
/-! DEFINITION. The rows of the host ports (15_adit_protocol.md): the Adit requests, SPDM, what the sessions do in time,
RoCEv2, and the packets and links of the ports. -/

namespace Sys2Proof.Machine

/-! ## Adit requests (R481 to R503) -/

/-- SESSION_OPEN (R494). -/
def execSessionOpen (h : Hdr) (mode leaseLog2 rsv : Nat) (label : List Nat) (s : State) : Host.Outcome State Fault Refusal :=
  run (fun w => w.adit h (.sessionOpen mode leaseLog2 rsv label)) s
/-- LEASE_RENEW (R492, R485). -/
def execLeaseRenew (h : Hdr) (s : State) : Host.Outcome State Fault Refusal := run (fun w => w.adit h .leaseRenew) s
/-- SESSION_CLOSE (R493). -/
def execSessionClose (h : Hdr) (s : State) : Host.Outcome State Fault Refusal := run (fun w => w.adit h .sessionClose) s
/-- CUSTODY_CLAIM (R493). -/
def execCustodyClaim (h : Hdr) (s : State) : Host.Outcome State Fault Refusal := run (fun w => w.adit h .custodyClaim) s
/-- REG_READ (R486). -/
def execRegRead (h : Hdr) (addrs : List Nat) (s : State) : Host.Outcome State Fault Refusal :=
  run (fun w => w.adit h (.regRead addrs)) s
/-- REG_WRITE (R486). -/
def execRegWrite (h : Hdr) (pairs : List (Nat × Nat)) (s : State) : Host.Outcome State Fault Refusal :=
  run (fun w => w.adit h (.regWrite pairs)) s
/-- MEM_READ (R487). -/
def execMemRead (h : Hdr) (addr len rsv : Nat) (s : State) : Host.Outcome State Fault Refusal :=
  run (fun w => w.adit h (.memRead addr len rsv)) s
/-- MEM_WRITE (R487). -/
def execMemWrite (h : Hdr) (addr : Nat) (data : List Nat) (s : State) : Host.Outcome State Fault Refusal :=
  run (fun w => w.adit h (.memWrite addr data)) s
/-- DOORBELL (R486). -/
def execDoorbell (h : Hdr) (entries : List (Nat × Nat × Nat)) (s : State) : Host.Outcome State Fault Refusal :=
  run (fun w => w.adit h (.doorbell entries)) s
/-- RESET (R489). -/
def execReset (h : Hdr) (scope index rsv : Nat) (s : State) : Host.Outcome State Fault Refusal :=
  run (fun w => w.adit h (.reset scope index rsv)) s
/-- IMAGE_WRITE (R488). -/
def execImageWrite (h : Hdr) (off rsv : Nat) (data : List Nat) (s : State) : Host.Outcome State Fault Refusal :=
  run (fun w => w.adit h (.imageWrite off rsv data)) s
/-- GRANT (R302). -/
def execGrant (h : Hdr) (part layer rsv : Nat) (body : List Nat) (s : State) : Host.Outcome State Fault Refusal :=
  run (fun w => w.adit h (.grant part layer rsv body)) s
/-- EVENT_ACK (R501). -/
def execEventAck (h : Hdr) (upTo : Nat) (s : State) : Host.Outcome State Fault Refusal :=
  run (fun w => w.adit h (.eventAck upTo)) s
/-- TELEMETRY_SET (R502). -/
def execTelemetrySet (h : Hdr) (periodLog2 rsv : Nat) (addrs : List Nat) (s : State) : Host.Outcome State Fault Refusal :=
  run (fun w => w.adit h (.telemetrySet periodLog2 rsv addrs)) s
/-- WINDOW_OPEN (R503). -/
def execWindowOpen (h : Hdr) (x : WindowReq) (s : State) : Host.Outcome State Fault Refusal :=
  run (fun w => w.adit h (.windowOpen x)) s
/-- WINDOW_CLOSE (R505). -/
def execWindowClose (h : Hdr) (i rsv : Nat) (s : State) : Host.Outcome State Fault Refusal :=
  run (fun w => w.adit h (.windowClose i rsv)) s
/-- ADDR_SET (R490). -/
def execAddrSet (h : Hdr) (body : List Nat) (s : State) : Host.Outcome State Fault Refusal :=
  run (fun w => w.adit h (.addrSet body)) s
/-- RESERVED_MESSAGE_TYPE (R483). -/
def execReservedMessageType (h : Hdr) (type : Nat) (s : State) : Host.Outcome State Fault Refusal :=
  run (fun w => w.adit h (.reservedType type)) s

/-! ## What the sessions do in time -/

/-- TELEMETRY (R502): at each lease tick that is a multiple of the period, after the one at which it was set. -/
def execTelemetry (session : Nat) (s : State) : Host.Outcome State Fault Refusal :=
  run (fun w => match w.session? session with
    | none => w
    | some x =>
      if x.telePeriod = 0 ∨ w.clk.lease % 2 ^ x.telePeriod ≠ 0 ∨ w.clk.lease = x.teleAt then w
      else
        let r := w.readRegs x.teleAddrs 0
        let stamp := readBell w.toBlk 0
        (r.2.2.2.modSession session fun y => { y with teleAt := w.clk.lease }).sessionSend x (8 + 8 * r.1.length)
          (.telemetry x.to_ session stamp r.1)) s

/-- The messages of a session that are due again. -/
def Session.due (x : Session) (now : Nat) : List Unacked := x.unacked.filter (fun u => decide (u.sentAt + 2 ^ 18 ≤ now))

/-- EVENT_RESEND (R501): every message not acknowledged 2^18 lease ticks after it last went. -/
def execEventResend (session : Nat) (s : State) : Host.Outcome State Fault Refusal :=
  run (fun w => match w.session? session with
    | none => w
    | some x =>
      let now := w.clk.lease
      let due := x.due now
      let w := w.modSession session fun y => { y with
        unacked := y.unacked.map (fun u => if u.sentAt + 2 ^ 18 ≤ now then { u with sentAt := now } else u) }
      (w.each due fun w u => w.sessionMsg x u.seq true u.msg).hfcCtr 0x0208 due.length) s

/-- LEASE_EXPIRY (R492). -/
def execLeaseExpiry (session : Nat) (s : State) : Host.Outcome State Fault Refusal :=
  run (fun w => match w.session? session with
    | some x => if x.expiry ≤ w.clk.lease then w.endSession session else w
    | none => w) s

/-- FRAGMENT_TIMEOUT (R482): session 0 holds what arrives outside a session. -/
def execFragmentTimeout (session seq : Nat) (s : State) : Host.Outcome State Fault Refusal :=
  run (fun w =>
    let late := fun (l : List Frag) => l.any (fun f => f.seq == seq && decide (f.first + 2 ^ 20 ≤ w.clk.lease))
    let cut := fun (l : List Frag) => l.filter (fun f => f.seq != seq)
    if session = 0 then
      if late w.host.frags then (w.modHost fun x => { x with frags := cut x.frags }).aditDrop else w
    else match w.session? session with
      | some x => if late x.frags then (w.modSession session fun y => { y with frags := cut y.frags }).aditDrop else w
      | none => w) s

/-- RESERVATION_EXPIRY (R495). -/
def execReservationExpiry (s : State) : Host.Outcome State Fault Refusal :=
  run (fun w => match w.host.reservedUntil with
    | some t =>
      if t ≤ w.clk.lease then
        (w.modHost fun x => { x with reservedUntil := none }).modFlash fun f => f.setClaimant none
      else w
    | none => w) s

/-! ## SPDM (R497, R498, R524 to R528) -/

/-- Send an SPDM response: its code, what the spec states of its contents, and its signature by the alias key (R527). How
many bytes it takes in all is not stated; beyond 8,192 they go in fragments (R482), and in a SECURED message with 22 more. -/
def Work.spdmSend (w : Work) (h : Hdr) (code : Nat) (body : List Nat) : Work :=
  let k := w.fresh
  let n := min 65536 (body.length + Config.freeNat 7 k.1 + (if h.spdm.isSome then 22 else 0))
  k.2.each (List.range (fragsOf n)) fun v i => v.hostSend (hdrBack h) (24 + min 8192 (n - 8192 * i))
    (.spdm (hdrBack h) h.spdm code (i, fragsOf n) body (Config.sign (w.boot.aliasKey.getD 0) (code :: body) k.1))
/-- The response that refuses an SPDM request. -/
def Work.spdmError (w : Work) (h : Hdr) : Work := w.spdmSend h 0x7F []

/-- The versions of a firmware image as a measurement shows them (R528): 12 bytes, zero if none runs. -/
def fwMeasure (img : List Nat) : List Nat :=
  if img.isEmpty then List.replicate 12 0 else leBytes 4 (fwVersion img) ++ leBytes 4 (fwIf img) ++ leBytes 4 (fwSec img)
/-- The digest of a firmware image's signed message; zero bytes if none runs. -/
def fwDigest (img : List Nat) : List Nat :=
  if img.isEmpty then List.replicate 48 0 else sha384 (fwMessage img)

/-- The value of one measurement (R528). The digests of mask ROM and of the ROM's default plan are not stated. -/
def Blk.measure (b : Blk) (i : Nat) : Option (List Nat) :=
  match i with
  | 1 => some (leBytes 48 (Config.freeNat 4 0))
  | 2 => some (fwDigest b.boot.hfImage)
  | 3 => some (fwMeasure b.boot.hfImage)
  | 4 => some (fwDigest b.boot.fabImage)
  | 5 => some (fwMeasure b.boot.fabImage)
  | 6 => some (if b.struct.plan.image.isEmpty then leBytes 48 (Config.freeNat 5 0) else sha384 b.struct.plan.image)
  | 7 => some (leBytes 8 b.bootStatus)
  | 8 => some (sha384 (b.flash.anchors.flatMap (leBytes 48)))
  | 9 => some (leBytes 4 b.flash.hfRollback ++ leBytes 4 b.flash.fabRollback)
  | _ => none

/-- A measurement block in DMTF format: index, format 1, size, then the kind of the value, its size and the value. The
kinds are ROM, firmware, and configuration; bit 7 marks a raw bit stream (log entry 122). -/
def Blk.block (b : Blk) (i : Nat) : Option (List Nat) :=
  (b.measure i).map fun l =>
    [i, 1] ++ leBytes 2 (3 + l.length) ++ [nth [0, 0x00, 0x01, 0x81, 0x01, 0x81, 0x03, 0x83, 0x03, 0x83] i] ++ leBytes 2 l.length ++ l

/-- The chain in certificate slot 0 (R526, R527): Hjelozan root, SK40 A0 intermediate, the DevID of the running core
pair's die with the module's serial number, alias. -/
def Blk.certChain (b : Blk) : List Nat :=
  let c := b.boot.aliasCert
  Config.certificate 0 [] ++ Config.certificate 1 [] ++ Config.certificate 2 (b.boot.devidPub ++ leBytes 8 b.flash.serial)
    ++ Config.certificate 3 (leBytes 4 c.version ++ leBytes 4 c.sec ++ [c.corePair] ++ c.key ++ c.signer)
/-- The response that tells what the device can do: certificates, challenge, signed measurements, encryption and MAC,
mutual authentication, key exchange, heartbeat, key update (log entry 122). -/
def spdmCaps : List Nat := leBytes 4 0x63D6
/-- The algorithms offered (R497): ECDSA P-384, SHA-384, secp384r1, AES-256-GCM (log entry 122). -/
def spdmAlgs : List Nat := leBytes 4 0x80 ++ leBytes 4 0x02 ++ leBytes 2 0x10 ++ leBytes 2 0x02

/-- The end of an SPDM session ends the Adit sessions bound to it (R492). -/
def Work.endSpdm (w : Work) (id : Nat) : Work :=
  let bound := (w.host.sessions.filter (fun x => x.spdm == some id)).map (·.id)
  (w.modHost fun x => { x with spdm := x.spdm.filter (fun y => y.id != id) }).each bound Work.endSession

/-- The host's certificate chain is trusted (R497, R524). -/
def Blk.trusts (b : Blk) (spki : List Nat) (chainOk : Bool) : Bool :=
  chainOk && (b.flash.anchors.isEmpty || spki.any (fun k => decide (k ∈ b.flash.anchors)))

/-- KEY_EXCHANGE: a session that is not yet secured; the response asks for mutual authentication (R497). -/
def Work.spdmKey (w : Work) (h : Hdr) (period : Nat) : Work :=
  let id := w.host.lastSpdm + 1
  (w.modHost fun x => { x with lastSpdm := id, spdm := x.spdm ++ [{ id := id, period := period }] }).spdmSend h 0x64
    (leBytes 4 id ++ [1])

/-- FINISH: the session is established when the host is trusted and at most 16 are held (R497). -/
def Work.spdmFinish (w : Work) (h : Hdr) (id leaf : Nat) (spki : List Nat) (chainOk sigOk : Bool) : Work :=
  match w.host.spdm.find? (fun x => x.id == id && !x.established) with
  | none => w.spdmError h
  | some _ =>
    if sigOk && w.trusts spki chainOk && decide ((w.host.spdm.filter (·.established)).length < 16) then
      (w.modHost fun x => { x with spdm := x.spdm.map (fun y =>
        if y.id = id then { y with established := true, leaf := leaf, heard := w.clk.lease } else y) }).spdmSend h 0x65 []
    else (w.modHost fun x => { x with spdm := x.spdm.filter (fun y => y.id != id) }).spdmError h

/-- A request that belongs inside its SPDM session. -/
def Work.inSpdm (w : Work) (h : Hdr) (id : Nat) (f : Work → Work) : Work :=
  if h.spdm = some id ∧ (w.spdm? id).isSome then f w else w.spdmError h

/-- An SPDM request is answered. -/
def Work.spdmServe (w : Work) (h : Hdr) (m : SpdmMsg) : Work :=
  match m with
  | .getVersion => w.spdmSend h 0x04 [0x12]
  | .getCapabilities => w.spdmSend h 0x61 spdmCaps
  | .negotiateAlgorithms offered => if offered then w.spdmSend h 0x63 spdmAlgs else w.spdmError h
  | .getDigests => w.spdmSend h 0x01 (sha384 w.certChain)
  | .getCertificate slot => if slot = 0 then w.spdmSend h 0x02 w.certChain else w.spdmError h
  | .challenge slot nonce => if slot = 0 then w.spdmSend h 0x03 (sha384 w.certChain ++ leBytes 32 nonce) else w.spdmError h
  | .getMeasurements i nonce =>
    let send := fun l => w.spdmSend h 0x60 (l ++ leBytes 32 nonce)
    if i = 0 then send [9]
    else if i = 0xFF then send ((List.range 9).flatMap (fun k => (w.block (k + 1)).getD []))
    else match w.block i with
      | some l => send l
      | none => w.spdmError h
  | .keyExchange period => w.spdmKey h period
  | .finish id leaf spki chainOk sigOk => w.spdmFinish h id leaf spki chainOk sigOk
  | .keyUpdate id => w.inSpdm h id fun w => w.spdmSend h 0x69 []
  | .heartbeat id => w.inSpdm h id fun w =>
      (w.modHost fun x => { x with spdm := x.spdm.map (fun y => if y.id = id then { y with heard := w.clk.lease } else y) }).spdmSend
        h 0x68 []
  | .endSession id => w.inSpdm h id fun w => (w.spdmSend h 0x6C []).endSpdm id

/-- A message outside a session: checked and assembled (R482). -/
def Work.outside (w : Work) (h : Hdr) (f : Work → Work) : Work :=
  if !hdrOk h ∨ !w.spdmOk h ∨ h.session ≠ 0 ∨ !hdrRequest h then w.aditDrop
  else match assemble w.host.frags h w.clk.lease with
    | none => w.aditDrop
    | some (whole, l) =>
      let w := w.modHost fun x => { x with frags := l }
      if whole then f w else w

/-- SPDM (R497). -/
def execSpdm (h : Hdr) (m : SpdmMsg) (s : State) : Host.Outcome State Fault Refusal :=
  run (fun w => w.arrives h fun w => w.outside h fun w => w.spdmServe h m) s

/-- SECURED (R498): the MAC passes, or the message is discarded; inside is one whole datagram. -/
def execSecured (outer : Hdr) (id : Nat) (macOk : Bool) (h : Hdr) (r : Req) (s : State) : Host.Outcome State Fault Refusal :=
  run (fun w => w.arrives outer fun w => w.outside outer fun w =>
    if !macOk ∨ (w.spdm? id).isNone ∨ h.fragCount ≠ 1 then w.aditDrop
    else w.datagram { h with port := outer.port, src := outer.src, udp := outer.udp, spdm := some id } r) s

/-- SPDM_HEARTBEAT_TIMEOUT (R492): no HEARTBEAT within the period, in seconds of 250,000,000 lease ticks. -/
def execSpdmHeartbeatTimeout (id : Nat) (s : State) : Host.Outcome State Fault Refusal :=
  run (fun w => match w.spdm? id with
    | some x => if x.period ≠ 0 ∧ x.heard + x.period * 250000000 ≤ w.clk.lease then w.endSpdm id else w
    | none => w) s

/-! ## RoCEv2 (R504, R505) -/

/-- Send a RoCEv2 packet by a port, which holds it while it is paused (R478). -/
def Work.roceSend (w : Work) (port i kind psn : Nat) (data : List Nat) : Work :=
  let k : RocePkt := ⟨i, kind, psn, data⟩
  if (w.hostPort port).paused then w.modHostPort port fun p => { p with roceq := p.roceq ++ [k] }
  else w.roceOut port k
/-- A NAK, counted. -/
def Work.roceNak (w : Work) (port i kind psn : Nat) : Work := (w.roceSend port i kind psn []).hfcCtr 0x0218 1
/-- The queue pair enters the error state with a NAK. -/
def Work.roceBreak (w : Work) (port i kind psn : Nat) : Work :=
  (w.modWindow i fun x => { x with error := true }).roceNak port i kind psn

/-- A CNP for each of `n` ECN-marked packets (R504). -/
def Work.cnps (w : Work) (port i psn n : Nat) : Work := w.each (List.range n) fun w _ => w.roceSend port i 4 psn []

/-- A request on a window: the checks of R504 and R505, then in packet order; `f` runs a request that comes in its turn,
`g` one that has come before. -/
def Work.roce (w : Work) (port i rkey psn va len need : Nat) (f g : Work → Work) : Work :=
  let x := w.window i
  let behind := (x.psn + 2 ^ 24 - psn) % 2 ^ 24
  if !x.isOpen ∨ x.error ∨ w.ms.repairEn then w.roceNak port i 3 psn
  else if behind ≠ 0 then if behind < 2 ^ 23 then g w else w.roceNak port i 5 psn
  else if rkey ≠ x.rkey ∨ !bit x.access need ∨ va + len > x.length then w.roceBreak port i 3 psn
  else f (w.modWindow i fun y => { y with psn := (y.psn + rocePackets len) % 2 ^ 24 })

/-- RDMA READs of a window whose responses have still to go. -/
def Blk.readsOut (b : Blk) (i : Nat) : Nat :=
  (b.host.ports.map (fun e => (e.2.roceq.filter (fun k => k.window == i && k.kind == 1)).length)).sum

/-- The bytes a window's read returns: charged to the partition's regulator; an uncorrectable sector returns none. A
seventeenth outstanding READ draws a NAK of invalid request (R504, log entry 84). -/
def Work.roceRead (w : Work) (port i psn va len : Nat) : Work :=
  let x := w.window i
  if va + len > x.length ∨ !bit x.access 1 then w.roceBreak port i 3 psn
  else if w.readsOut i ≥ 16 then w.roceBreak port i 2 psn
  else match w.eccAt (x.base + va) len with
    | none => (w.reading x.part [(x.base + va, len)]).roceSend port i 1 psn (w.bytes (x.base + va) len)
    | some _ => ((w.reading x.part [(x.base + va, len)]).eccMet (x.base + va) len 3).roceBreak port i 6 psn

/-- Priority flow control for the RoCEv2 priority (R478): when the device asks its peer to pause, or to go on, is not
stated; after any packet it may (log entry 123). -/
def Work.pfcSend (w : Work) (port : Nat) : Work :=
  let prio := (w.hostPort port).pfcPriority
  if prio ≥ 8 then w
  else
    let k := w.fresh
    let n := Config.freeNat 9 k.1 % 3
    if n = 0 then k.2 else (k.2.hostCtr port 0x18 64).emit (.pfc port prio (n == 1))

/-- The bytes of frames that bring a RoCEv2 message of `n` bytes of data with `ext` bytes of extended header in its first
packet (log entry 117). -/
def Blk.roceBytes (b : Blk) (port i ext n : Nat) : Nat :=
  ((List.range (rocePackets n)).map (fun k =>
    b.frame port (b.window i).gid (16 + (if k = 0 then ext else 0) + 4 * ceilDiv (min 4096 (n - 4096 * k)) 4))).sum

/-- A RoCEv2 message comes in by a host port in frames of so many bytes: windows are there in READY and LIMITED. -/
def roceRow (port i : Nat) (bytes : Work → Nat × Work) (f : Work → Work) (s : State) : Host.Outcome State Fault Refusal :=
  runIf (port < 2 && i < 64) (fun w =>
    if w.boot.st.serves then
      let k := bytes w
      (k.2.ordered fun w => f (w.hostIn port k.1)).pfcSend port
    else w) s

/-- RDMA_WRITE (R504, R505): written and visible, then acknowledged; its 4 bytes of immediate data, where it has any, are
discarded. `ecn` of its packets are marked. -/
def execRdmaWrite (port i rkey psn va : Nat) (data : List Nat) (imm : Bool) (ecn : Nat) (s : State) :
    Host.Outcome State Fault Refusal :=
  roceRow port i (fun w => (w.roceBytes port i 16 data.length + 4 * b2n imm, w)) (fun w =>
    (w.cnps port i (psn % 2 ^ 24) ecn).roce port i rkey (psn % 2 ^ 24) va data.length 0
      (fun w => (w.store (w.window i).part ((w.window i).base + va) data).roceSend port i 0 (psn % 2 ^ 24) [])
      (fun w => w.roceSend port i 0 (psn % 2 ^ 24) [])) s

/-- RDMA_READ (R504). -/
def execRdmaRead (port i rkey psn va len ecn : Nat) (s : State) : Host.Outcome State Fault Refusal :=
  roceRow port i (fun w => (w.roceBytes port i 16 0, w)) (fun w =>
    (w.cnps port i (psn % 2 ^ 24) ecn).roce port i rkey (psn % 2 ^ 24) va len 1
      (fun w => w.roceRead port i (psn % 2 ^ 24) va len)
      (fun w => w.roceRead port i (psn % 2 ^ 24) va len)) s

/-- ROCE_INVALID_REQUEST (R504): a SEND, an atomic or a memory-window operation, in packets whose sizes the row does not
state. -/
def execRoceInvalidRequest (port i psn ecn : Nat) (s : State) : Host.Outcome State Fault Refusal :=
  roceRow port i Work.anyFrames (fun w =>
    (w.cnps port i (psn % 2 ^ 24) ecn).roceNak port i (if w.ms.repairEn then 3 else 2) (psn % 2 ^ 24)) s

/-- CNP_RECEIVE (R504): the read-response rate is halved. -/
def execCnpReceive (port i : Nat) (s : State) : Host.Outcome State Fault Refusal :=
  roceRow port i (fun w => (w.roceBytes port i 16 0, w)) (fun w => if (w.window i).isOpen then w.modWindow i fun x => { x with rateLog := x.rateLog + 1 } else w) s

/-- A sixteenth of the port rate more, up to the port rate. -/
def Window.restore (x : Window) : Window :=
  let log := max x.rateLog 4
  let rate := x.rate * 2 ^ (log - x.rateLog) + 2 ^ (log - 4)
  if rate ≥ 2 ^ log then { x with rate := 1, rateLog := 0 } else { x with rate := rate, rateLog := log }

/-- ROCE_RATE_RESTORE (R504): once at each bell tick that is a multiple of 16,384. -/
def execRoceRateRestore (s : State) : Host.Outcome State Fault Refusal :=
  run (fun w =>
    if !w.bell.st.counts ∨ w.now % 16384 ≠ 0 ∨ w.host.restoredAt = some w.now then w
    else
      (w.modHost fun x => { x with restoredAt := some w.now }).each ((List.range 64).filter (fun i => (w.window i).isOpen))
        fun w i => w.modWindow i Window.restore) s

/-! ## Packets and links of the ports (R478, R479, R507) -/

/-- A host port exists. -/
def hostRow (port : Nat) (f : Work → Work) (s : State) : Host.Outcome State Fault Refusal :=
  runIf (port < 2) (fun w => if w.boot.st.lit then f w else w) s

/-- A port discards a frame (R478, R479): its size, its tag, the address it is for, its UDP port, or what kind it is. -/
def HostPort.discards (p : HostPort) (f : HostFrame) : Bool :=
  decide (f.size < 64) || decide (f.size > 9216) || f.tag.any (fun v => p.vlan == 0 || v != p.vlan) || !p.holds f.addr
    || f.udp.any (fun u => !decide (u ∈ [7680, 4791, 319, 320])) || f.other

/-- HOST_PACKET_DISCARD (R478, R479): a frame that the port discards is counted. -/
def execHostPacketDiscard (port : Nat) (f : HostFrame) (s : State) : Host.Outcome State Fault Refusal :=
  hostRow port (fun w =>
    let w := w.hostIn port f.size
    if (w.hostPort port).discards f then w.hostCtr port 0x08 1 else w) s

/-- NEIGHBOR_PACKET (R478): IPv6 always, IPv4 where the port has an address. The answer goes on the link. -/
def execNeighborPacket (port : Nat) (k : NeighborKind) (s : State) : Host.Outcome State Fault Refusal :=
  hostRow port (fun w =>
    let n := w.anyFrame
    let w := n.2.hostIn port n.1
    let v4 := k == .arp || k == .icmpEcho
    if v4 && (w.hostPort port).v4 == 0 then w.hostCtr port 0x08 1
    else
      let m := w.anyFrame
      (m.2.hostCtr port 0x18 m.1).emit (.neighbor port k)) s

/-- HOST_LINK_CHANGE (R507): a dark port has no link. `uncorr` codewords came that could not be corrected. -/
def execHostLinkChange (port : Nat) (up fec : Bool) (uncorr : Nat) (s : State) : Host.Outcome State Fault Refusal :=
  hostRow port (fun w =>
    (w.modHostPort port fun p => { p with linkUp := up, fecLocked := fec }).hostCtr port 0x20 uncorr) s

/-- PFC_FRAME_RECEIVE (R478): on the priority that ADDR_SET names. -/
def execPfcFrameReceive (port prio : Nat) (pause : Bool) (s : State) : Host.Outcome State Fault Refusal :=
  hostRow port (fun w =>
    let w := w.hostIn port 64
    if (w.hostPort port).pfcPriority ≠ prio ∨ prio ≥ 8 then w
    else if pause then w.modHostPort port fun p => { p with paused := true } else w.unpause port) s

end Sys2Proof.Machine
end

