-- ==== Sys2Proof/Machine/Template.lean ====
section
/-! DEFINITION. The events of the bell template (R50 to R53) as rows: those of one tick act in the order of R53. What each does
stands with its unit. -/

namespace Sys2Proof.Machine

/-- An event of the plan fires at this tick (R51, R387). -/
def Blk.eventDue (b : Blk) (e : BellRec) : Bool :=
  match e.kind with
  | 1 => match b.lastShiftPast e.part 0 0 with
    | some k => b.bell.st.counts && b.isMark e.part k
    | none => false
  | 7 => b.bell.st.counts && decide (b.now > b.bell.loaded) && b.now % 256 == e.off
  | _ => b.firesNow e.part e.off

/-- The events of a plan in the order in which those of one tick act (R53): by kind, then by partition, then by record.
Each has its place in the plan. R53 also says that a points change lands before a collective phase of the same tick, while by
kind COLLECTIVE_PHASE (2) comes before POINTS_SWITCH (3): the model goes by kind (log entry 142). -/
def Plan.eventOrder (p : Plan) : List (BellRec × Nat) :=
  [1, 2, 3, 4, 5, 6, 7].flatMap fun k => (List.range Config.nParts ++ [0xFF]).flatMap fun q =>
    p.bell.zipIdx.filter (fun x => x.1.kind == k && x.1.part == q)

/-- The events of this tick, and those of them that have not acted yet. -/
def Blk.eventsNow (b : Blk) : List (BellRec × Nat) := b.struct.plan.eventOrder.filter (fun x => b.eventDue x.1)
def Blk.eventsLeft (b : Blk) : List (BellRec × Nat) :=
  b.eventsNow.filter (fun x => !(b.dev.firedAt == b.now && decide (x.2 ∈ b.dev.fired)))

/-- What an event does. -/
def Work.eventActs (w : Work) (e : BellRec) : Work :=
  match e.kind with
  | 1 => w.shiftMark e.part
  | 2 => w.phaseStarts e.part e.arg0 e.arg1
  | 3 => if e.arg1 = (w.port e.arg0).pair then w else w.switchPoints e.arg0 e.arg1
  | 4 => if e.arg0 = 0 then w.hostDeadline e.part e.arg1 else w
  | 5 => w.reconfigBoundary e.part
  | 6 => w.windowOpens e.part
  | 7 => w.heartbeatSend
  | _ => w

/-- An event acts, once. -/
def Work.fire (w : Work) (x : BellRec × Nat) : Work :=
  (w.modDev fun d => { d with
    firedAt := w.now, fired := if d.firedAt = w.now then d.fired ++ [x.2] else [x.2] }).eventActs x.1

/-- The row of an event: every event of the tick that comes before it in the order of R53 acts first. One that has acted is
over. Where no such event is due at this tick, `late` is what the row does. -/
def Work.inTurn (w : Work) (mine : BellRec → Bool) (late : Work → Work) : Work :=
  match w.eventsLeft.find? (fun x => mine x.1) with
  | some x => (w.each (w.eventsLeft.takeWhile (fun y => !mine y.1)) Work.fire).fire x
  | none => if w.eventsNow.any (fun x => mine x.1) then w else late w

/-- The row of an event of kind `k` of partition `p`. -/
def eventRow (c : Bool) (k p : Nat) (mine : BellRec → Bool) (late : Work → Work) (s : State) :
    Host.Outcome State Fault Refusal :=
  runIf (c && decide (p < Config.nParts)) (fun w => w.inTurn (fun e => e.kind == k && e.part == p && mine e) late) s

/-- SHIFT_MARK (R51, R53). -/
def execShiftMark (p : Nat) (s : State) : Host.Outcome State Fault Refusal :=
  eventRow true 1 p (fun _ => true) (fun w => w.shiftMark p) s
/-- COLLECTIVE_PHASE (R399, R53). -/
def execCollectivePhase (p ring phase : Nat) (s : State) : Host.Outcome State Fault Refusal :=
  eventRow true 2 p (fun e => e.arg0 == ring && e.arg1 == phase) (fun w => w.phaseStarts p ring phase) s
/-- POINTS_SWITCH (R357, R53). -/
def execPointsSwitch (p port : Nat) (s : State) : Host.Outcome State Fault Refusal :=
  eventRow (port < Config.nPorts) 3 p (fun e => e.arg0 == port) (fun w => w) s
/-- HOST_DEADLINE (R297, R53). -/
def execHostDeadline (p layer : Nat) (s : State) : Host.Outcome State Fault Refusal :=
  eventRow true 4 p (fun e => e.arg0 == 0 && e.arg1 == layer) (fun w => w.hostDeadline p layer) s
/-- RECONFIG_BOUNDARY (R379, R414, R415, R53). -/
def execReconfigBoundary (p : Nat) (s : State) : Host.Outcome State Fault Refusal :=
  eventRow true 5 p (fun _ => true) (fun w => w) s
/-- SECURE_WINDOW_OPEN (R465, R53): waiting copies may go. -/
def execSecureWindowOpen (p : Nat) (s : State) : Host.Outcome State Fault Refusal :=
  eventRow true 6 p (fun _ => true) (fun w => w.windowOpens p) s
/-- HEARTBEAT_SEND (R375, R388, R53). -/
def execHeartbeatSend (s : State) : Host.Outcome State Fault Refusal :=
  run (fun w => w.inTurn (fun e => e.kind == 7) Work.heartbeatSend) s

end Sys2Proof.Machine
end

