-- ==== Sys2Proof/Machine/Clock.lean ====
section
/-! DEFINITION. One tick of the clocks (R25, R380, R383, R387, R482), which is what the block does when no command waits (log
entry 8), and what happens or is counted at each tick. -/

namespace Sys2Proof.Machine

/-- A channel of an UP port holds a flit that has no credit (R392). -/
def Port.stalls (p : Port) (vc : Nat) : Bool :=
  p.st == .up && nth p.avail vc == 0 && (p.held.any (fun f => f.vc == vc) || p.transit.any (fun f => f.fl.vc == vc))

/-- The credit-stall counters of the ports. -/
def Work.countStalls (w : Work) : Work :=
  w.each w.ports fun w e => w.each ((List.range 4).filter e.2.stalls) fun w vc => w.portCtr e.1 (0x30 + 8 * vc) 1

/-- The gallery whose skip engine waits for the credit that a flit of a row needs (R311). -/
def Blk.skipOf (b : Blk) (f : Flit) : Option Nat :=
  match f.own.bind b.txn? with
  | some t => if t.kind = .row ∨ t.kind = .pad then (b.flights.find? (fun x => x.id == t.owner)).map (·.face / 12) else none
  | none => none
/-- The galleries whose skip engines are stalled for routing credits (R311, R320). -/
def Blk.skipStalls (b : Blk) : List Nat :=
  (b.ports.flatMap (fun e => if e.2.stalls 2 then e.2.held.filterMap b.skipOf else [])).eraseDups

/-- What the ticks count: gated array cycles, copies that wait for a window, flits and skip engines that wait for credits.
`n` array cycles have begun in the tick. -/
def Work.countTick (w : Work) (n : Nat) : Work :=
  let w := if w.boot.st = .off then w
    else w.modPwr fun p => { p with gated := p.gated + cyc10PerTick p.mode * (16 - p.duty) }
  let w := if w.copyWaits then w.devCtr 0x0B08 1 else w
  (w.each w.skipStalls fun w g => w.galCtr g 0x0108 n).countStalls

/-- Bell time goes on by `n` (0 or 1) ticks, the spans that it times (R388) and the correction of its rate with it. -/
def Work.bellNext (w : Work) (n : Nat) (gather : Int) : Work :=
  { w with clk := { w.clk with bell := (w.clk.bell + n) % 2 ^ 64, span := w.clk.span + n }, bell := { w.bell with frac := w.bell.frac + gather } }
/-- The lease and array clocks go on by one tick of 4 ns. -/
def Work.leaseNext (w : Work) : Work :=
  let clk := { w.clk with lease := w.clk.lease + 1, span := w.clk.span + b2n (!w.bell.st.counts), cyc10 := w.clk.cyc10 + cyc10PerTick w.pwr.mode }
  ({ w with clk := clk } : Work).countTick (clk.cyc10 / 10 - w.clk.cyc10 / 10)

/-- Bell time gains a tick on the lease clock: the rate correction has gathered one (R383, log entry 118). -/
def Blk.gains (b : Blk) : Bool := b.bell.st.counts && decide (b.bell.frac ≥ 1000000)
/-- Bell time loses one. -/
def Blk.loses (b : Blk) : Bool := b.bell.st.counts && decide (b.bell.frac ≤ -1000000)

/-- A bell tick ends: the canaries evaluated in it tell a change of state, and the audits of its marks take their snapshots
(R127, R456). -/
def Work.bellTickEnds (w : Work) : Work :=
  if w.loses then w
  else (w.each (w.parts.map (·.1)) Work.canaryEnds).each (w.parts.map (·.1)) Work.snapshot

/-- One tick. First, what the tick that ends still has to bring: what its bell tick leaves to its end, and idle flits. In the
new one, deadlines that have passed (R110). Without the reference clock no clock of the module runs (R536). -/
def Work.tick (w : Work) : Work :=
  let w := w.bellTickEnds.each (w.ports.map (·.1)) Work.idleOut
  let w := w.pinTick
  let w := if !w.pwr.refclk then w
    else if w.gains then w.bellNext 1 (-1000000)
    else if w.loses then w.leaseNext.bellNext 0 1000000
    else if w.bell.st.counts then w.leaseNext.bellNext 1 w.bell.ppm
    else w.leaseNext
  w.missBounds

/-- The state after one tick. -/
def tick (s : State) : State := s.settle s.begin_.tick

end Sys2Proof.Machine
end

