-- ==== Sys2Proof/Machine/Dispatch.lean ====
section
/-! DEFINITION. One arm per command: the meaning it calls. -/

namespace Sys2Proof.Machine

def exec (i : Instr) (s : State) : Host.Outcome State Fault Refusal :=
  match i with
  | .nop q => Sys2Proof.Machine.execNop q s
  | .fence q => Sys2Proof.Machine.execFence q s
  | .branchIf q => Sys2Proof.Machine.execBranchIf q s
  | .call q => Sys2Proof.Machine.execCall q s
  | .ret q => Sys2Proof.Machine.execRet q s
  | .waitBell q => Sys2Proof.Machine.execWaitBell q s
  | .bounds q => Sys2Proof.Machine.execBounds q s
  | .shift q => Sys2Proof.Machine.execShift q s
  | .tagSignal q => Sys2Proof.Machine.execTagSignal q s
  | .tagWait q => Sys2Proof.Machine.execTagWait q s
  | .tagSet q => Sys2Proof.Machine.execTagSet q s
  | .tagRemote q => Sys2Proof.Machine.execTagRemote q s
  | .load q => Sys2Proof.Machine.execLoad q s
  | .store q => Sys2Proof.Machine.execStore q s
  | .prefetch q => Sys2Proof.Machine.execPrefetch q s
  | .copy q => Sys2Proof.Machine.execCopy q s
  | .tileMm f u parity => Sys2Proof.Machine.execTileMm f u parity s
  | .tileMv f u parity => Sys2Proof.Machine.execTileMv f u parity s
  | .tileSp f u parity => Sys2Proof.Machine.execTileSp f u parity s
  | .maskReg f u parity => Sys2Proof.Machine.execMaskReg f u parity s
  | .gather f u parity => Sys2Proof.Machine.execGather f u parity s
  | .merge f u parity => Sys2Proof.Machine.execMerge f u parity s
  | .segsort f u parity => Sys2Proof.Machine.execSegsort f u parity s
  | .vecOp f u parity => Sys2Proof.Machine.execVecOp f u parity s
  | .rowNorm f u parity => Sys2Proof.Machine.execRowNorm f u parity s
  | .rowSoftmax f u parity => Sys2Proof.Machine.execRowSoftmax f u parity s
  | .rowLoss f u parity => Sys2Proof.Machine.execRowLoss f u parity s
  | .optStep f u parity => Sys2Proof.Machine.execOptStep f u parity s
  | .route g => Sys2Proof.Machine.execRoute g s
  | .census g => Sys2Proof.Machine.execCensus g s
  | .grantWait q => Sys2Proof.Machine.execGrantWait q s
  | .amaxRound f u => Sys2Proof.Machine.execAmaxRound f u s
  | .collBucket f u => Sys2Proof.Machine.execCollBucket f u s
  | .kvPass f u => Sys2Proof.Machine.execKvPass f u s
  | .descCreate q => Sys2Proof.Machine.execDescCreate q s
  | .descDrop q => Sys2Proof.Machine.execDescDrop q s
  | .secure f => Sys2Proof.Machine.execSecure f s
  | .digest f => Sys2Proof.Machine.execDigest f s
  | .commandFetch f => Sys2Proof.Machine.execCommandFetch f s
  | .commandIssue f again => Sys2Proof.Machine.execCommandIssue f again s
  | .engineDispatch f c => Sys2Proof.Machine.execEngineDispatch f c s
  | .commandRetire q id => Sys2Proof.Machine.execCommandRetire q id s
  | .deadlineTest q id units => Sys2Proof.Machine.execDeadlineTest q id units s
  | .overrunTallyRecord q => Sys2Proof.Machine.execOverrunTallyRecord q s
  | .devDoorbell q tail => Sys2Proof.Machine.execDevDoorbell q tail s
  | .devTallyAck q consumed => Sys2Proof.Machine.execDevTallyAck q consumed s
  | .arm q => Sys2Proof.Machine.execArm q s
  | .stop q => Sys2Proof.Machine.execStop q s
  | .resumeRetry q => Sys2Proof.Machine.execResumeRetry q s
  | .resumeSkip q => Sys2Proof.Machine.execResumeSkip q s
  | .disarm q => Sys2Proof.Machine.execDisarm q s
  | .stoppingDrained q => Sys2Proof.Machine.execStoppingDrained q s
  | .devTagSignal tag value => Sys2Proof.Machine.execDevTagSignal tag value s
  | .faceReset f => Sys2Proof.Machine.execFaceReset f s
  | .galleryReset g => Sys2Proof.Machine.execGalleryReset g s
  | .partitionReset p => Sys2Proof.Machine.execPartitionReset p s
  | .warmReset => Sys2Proof.Machine.execWarmReset s
  | .coldReset => Sys2Proof.Machine.execColdReset s
  | .resetComplete => Sys2Proof.Machine.execResetComplete s
  | .shiftMark p => Sys2Proof.Machine.execShiftMark p s
  | .auditComplete p => Sys2Proof.Machine.execAuditComplete p s
  | .collectivePhase p ring phase => Sys2Proof.Machine.execCollectivePhase p ring phase s
  | .pointsPreIdle p port => Sys2Proof.Machine.execPointsPreIdle p port s
  | .pointsSwitch p port => Sys2Proof.Machine.execPointsSwitch p port s
  | .hostDeadline p layer => Sys2Proof.Machine.execHostDeadline p layer s
  | .grantDeadlineTest p layer => Sys2Proof.Machine.execGrantDeadlineTest p layer s
  | .grantInstall p layer shift => Sys2Proof.Machine.execGrantInstall p layer shift s
  | .reconfigBoundary p => Sys2Proof.Machine.execReconfigBoundary p s
  | .secureWindowOpen p => Sys2Proof.Machine.execSecureWindowOpen p s
  | .secureWindowClose p => Sys2Proof.Machine.execSecureWindowClose p s
  | .heartbeatSend => Sys2Proof.Machine.execHeartbeatSend s
  | .heartbeatLoss n => Sys2Proof.Machine.execHeartbeatLoss n s
  | .lossOfLight n => Sys2Proof.Machine.execLossOfLight n s
  | .seekLightDetect n => Sys2Proof.Machine.execSeekLightDetect n s
  | .trainComplete n => Sys2Proof.Machine.execTrainComplete n s
  | .trainingRecordReceive n r => Sys2Proof.Machine.execTrainingRecordReceive n r s
  | .trainingTimeout n => Sys2Proof.Machine.execTrainingTimeout n s
  | .pointsRetrainTimeout n => Sys2Proof.Machine.execPointsRetrainTimeout n s
  | .faultedTimeout n => Sys2Proof.Machine.execFaultedTimeout n s
  | .retrain n value => Sys2Proof.Machine.execRetrain n value s
  | .fabLostClear word value => Sys2Proof.Machine.execFabLostClear word value s
  | .writeTransactionReceive n l t => Sys2Proof.Machine.execWriteTransactionReceive n l t s
  | .readRequestReceive n l src part txn vc addr len => Sys2Proof.Machine.execReadRequestReceive n l src part txn vc addr len s
  | .readResponseReceive n l src txn vc data => Sys2Proof.Machine.execReadResponseReceive n l src txn vc data s
  | .ackReceive n l src txn => Sys2Proof.Machine.execAckReceive n l src txn s
  | .nakReceive n l src txn why => Sys2Proof.Machine.execNakReceive n l src txn why s
  | .tagSignalReceive n l src part txn tag value => Sys2Proof.Machine.execTagSignalReceive n l src part txn tag value s
  | .heartbeatReceive n l h => Sys2Proof.Machine.execHeartbeatReceive n l h s
  | .lossNoticeReceive n l lost tLoss declarer => Sys2Proof.Machine.execLossNoticeReceive n l lost tLoss declarer s
  | .badFlitReceive n uncorr => Sys2Proof.Machine.execBadFlitReceive n uncorr s
  | .flitForward n l fl => Sys2Proof.Machine.execFlitForward n l fl s
  | .transitCreditTimeout n => Sys2Proof.Machine.execTransitCreditTimeout n s
  | .settlementTimeout txn => Sys2Proof.Machine.execSettlementTimeout txn s
  | .collectiveFlitReceive n l fl => Sys2Proof.Machine.execCollectiveFlitReceive n l fl s
  | .closeFlitReceive n l part ring seq count => Sys2Proof.Machine.execCloseFlitReceive n l part ring seq count s
  | .resolveFlitReceive n l part ring pass qmin => Sys2Proof.Machine.execResolveFlitReceive n l part ring pass qmin s
  | .kvReadyReceive n l part ring seq step => Sys2Proof.Machine.execKvReadyReceive n l part ring seq step s
  | .collectiveIdleTimeout q id => Sys2Proof.Machine.execCollectiveIdleTimeout q id s
  | .ptpMessage port domain ipv6 locked ptpNs offset => Sys2Proof.Machine.execPtpMessage port domain ipv6 locked ptpNs offset s
  | .freerunTimeout => Sys2Proof.Machine.execFreerunTimeout s
  | .masterTimeout => Sys2Proof.Machine.execMasterTimeout s
  | .upstreamReselectTimeout => Sys2Proof.Machine.execUpstreamReselectTimeout s
  | .holdoverTimeout => Sys2Proof.Machine.execHoldoverTimeout s
  | .canaryEvaluation => Sys2Proof.Machine.execCanaryEvaluation s
  | .stopeRampStep f a => Sys2Proof.Machine.execStopeRampStep f a s
  | .stopeIdleTimeout f a => Sys2Proof.Machine.execStopeIdleTimeout f a s
  | .stopeWindStep f a => Sys2Proof.Machine.execStopeWindStep f a s
  | .faceStopeCtrl f value => Sys2Proof.Machine.execFaceStopeCtrl f value s
  | .regulatorRefill => Sys2Proof.Machine.execRegulatorRefill s
  | .scrubRead pc ecc raced => Sys2Proof.Machine.execScrubRead pc ecc raced s
  | .save => Sys2Proof.Machine.execSave s
  | .healthSaveComplete => Sys2Proof.Machine.execHealthSaveComplete s
  | .memRepairCtrl value => Sys2Proof.Machine.execMemRepairCtrl value s
  | .memRepairCmd value => Sys2Proof.Machine.execMemRepairCmd value s
  | .devPartQuiesce value => Sys2Proof.Machine.execDevPartQuiesce value s
  | .quiesceComplete p => Sys2Proof.Machine.execQuiesceComplete p s
  | .commit => Sys2Proof.Machine.execCommit s
  | .discard => Sys2Proof.Machine.execDiscard s
  | .validationComplete => Sys2Proof.Machine.execValidationComplete s
  | .applyComplete => Sys2Proof.Machine.execApplyComplete s
  | .devGrantArea p value => Sys2Proof.Machine.execDevGrantArea p value s
  | .devRatioArea p value => Sys2Proof.Machine.execDevRatioArea p value s
  | .devRosterArea p value => Sys2Proof.Machine.execDevRosterArea p value s
  | .registerWrite addr value => Sys2Proof.Machine.execRegisterWrite addr value s
  | .spdm h m => Sys2Proof.Machine.execSpdm h m s
  | .secured outer spdm macOk h r => Sys2Proof.Machine.execSecured outer spdm macOk h r s
  | .sessionOpen h mode leaseLog2 rsv label => Sys2Proof.Machine.execSessionOpen h mode leaseLog2 rsv label s
  | .leaseRenew h => Sys2Proof.Machine.execLeaseRenew h s
  | .sessionClose h => Sys2Proof.Machine.execSessionClose h s
  | .custodyClaim h => Sys2Proof.Machine.execCustodyClaim h s
  | .regRead h addrs => Sys2Proof.Machine.execRegRead h addrs s
  | .regWrite h pairs => Sys2Proof.Machine.execRegWrite h pairs s
  | .memRead h addr len rsv => Sys2Proof.Machine.execMemRead h addr len rsv s
  | .memWrite h addr data => Sys2Proof.Machine.execMemWrite h addr data s
  | .doorbell h entries => Sys2Proof.Machine.execDoorbell h entries s
  | .reset h scope index rsv => Sys2Proof.Machine.execReset h scope index rsv s
  | .imageWrite h off rsv data => Sys2Proof.Machine.execImageWrite h off rsv data s
  | .grant h part layer rsv body => Sys2Proof.Machine.execGrant h part layer rsv body s
  | .eventAck h upTo => Sys2Proof.Machine.execEventAck h upTo s
  | .telemetrySet h periodLog2 rsv addrs => Sys2Proof.Machine.execTelemetrySet h periodLog2 rsv addrs s
  | .windowOpen h w => Sys2Proof.Machine.execWindowOpen h w s
  | .windowClose h w rsv => Sys2Proof.Machine.execWindowClose h w rsv s
  | .addrSet h body => Sys2Proof.Machine.execAddrSet h body s
  | .telemetry session => Sys2Proof.Machine.execTelemetry session s
  | .eventResend session => Sys2Proof.Machine.execEventResend session s
  | .leaseExpiry session => Sys2Proof.Machine.execLeaseExpiry session s
  | .fragmentTimeout session seq => Sys2Proof.Machine.execFragmentTimeout session seq s
  | .reservationExpiry => Sys2Proof.Machine.execReservationExpiry s
  | .neighborPacket port k => Sys2Proof.Machine.execNeighborPacket port k s
  | .rdmaWrite port w rkey psn va data imm ecn => Sys2Proof.Machine.execRdmaWrite port w rkey psn va data imm ecn s
  | .rdmaRead port w rkey psn va len ecn => Sys2Proof.Machine.execRdmaRead port w rkey psn va len ecn s
  | .roceInvalidRequest port w psn ecn => Sys2Proof.Machine.execRoceInvalidRequest port w psn ecn s
  | .cnpReceive port w => Sys2Proof.Machine.execCnpReceive port w s
  | .roceRateRestore => Sys2Proof.Machine.execRoceRateRestore s
  | .fwStage => Sys2Proof.Machine.execFwStage s
  | .fwCommit => Sys2Proof.Machine.execFwCommit s
  | .planSave => Sys2Proof.Machine.execPlanSave s
  | .planClear => Sys2Proof.Machine.execPlanClear s
  | .anchorAdd => Sys2Proof.Machine.execAnchorAdd s
  | .anchorClear => Sys2Proof.Machine.execAnchorClear s
  | .flashOpComplete => Sys2Proof.Machine.execFlashOpComplete s
  | .romSelfTestComplete pair0 pair1 => Sys2Proof.Machine.execRomSelfTestComplete pair0 pair1 s
  | .identityComplete ok => Sys2Proof.Machine.execIdentityComplete ok s
  | .hfVerifyComplete badRead => Sys2Proof.Machine.execHfVerifyComplete badRead s
  | .hfStartComplete badRead fails => Sys2Proof.Machine.execHfStartComplete badRead fails s
  | .planLoadComplete => Sys2Proof.Machine.execPlanLoadComplete s
  | .vinRise straps => Sys2Proof.Machine.execVinRise straps s
  | .vinLow => Sys2Proof.Machine.execVinLow s
  | .undervoltageTrip => Sys2Proof.Machine.execUndervoltageTrip s
  | .overcurrentTrip => Sys2Proof.Machine.execOvercurrentTrip s
  | .vinRemove => Sys2Proof.Machine.execVinRemove s
  | .resetNAssert => Sys2Proof.Machine.execResetNAssert s
  | .resetNRelease => Sys2Proof.Machine.execResetNRelease s
  | .refclkLoss => Sys2Proof.Machine.execRefclkLoss s
  | .refclkRecover => Sys2Proof.Machine.execRefclkRecover s
  | .brakeNAssert => Sys2Proof.Machine.execBrakeNAssert s
  | .brakeNRelease => Sys2Proof.Machine.execBrakeNRelease s
  | .governorSample pinW vinMv iin10ma => Sys2Proof.Machine.execGovernorSample pinW vinMv iin10ma s
  | .thermalLevelRise t => Sys2Proof.Machine.execThermalLevelRise t s
  | .thermalLevelFall t => Sys2Proof.Machine.execThermalLevelFall t s
  | .inletHigh => Sys2Proof.Machine.execInletHigh s
  | .smbusReadStatus => Sys2Proof.Machine.execSmbusReadStatus s
  | .smbusReadInput => Sys2Proof.Machine.execSmbusReadInput s
  | .smbusReadTemp => Sys2Proof.Machine.execSmbusReadTemp s
  | .smbusReadId => Sys2Proof.Machine.execSmbusReadId s
  | .smbusWrite cmd => Sys2Proof.Machine.execSmbusWrite cmd s
  | .idleFlitReceive n l replay corrected => Sys2Proof.Machine.execIdleFlitReceive n l replay corrected s
  | .ptpLockLoss => Sys2Proof.Machine.execPtpLockLoss s
  | .spdmHeartbeatTimeout spdm => Sys2Proof.Machine.execSpdmHeartbeatTimeout spdm s
  | .hostLinkChange port up fec uncorr => Sys2Proof.Machine.execHostLinkChange port up fec uncorr s
  | .pfcFrameReceive port prio pause => Sys2Proof.Machine.execPfcFrameReceive port prio pause s
  | .reservedMessageType h type => Sys2Proof.Machine.execReservedMessageType h type s
  | .hostPacketDiscard port f => Sys2Proof.Machine.execHostPacketDiscard port f s
  | .memRepairData write value => Sys2Proof.Machine.execMemRepairData write value s

end Sys2Proof.Machine
end

