-- ==== Sys2Proof/Safety.lean ====
section
/-! DEFINITION. What counts as a sound state of the part, and the words in which the statements speak of a next state. -/

namespace Sys2Proof

open Machine

/-- The memory is in canonical form: addresses strictly rising, no byte listed that reads as an unlisted one. -/
def MemoryCanonical (s : State) : Prop := s.memWf = true

/-- A command that has been run: its watermark is known, and it waits to retire. -/
def ranAs (x : Flight) (wm : Nat) : Flight := { x with phase := .done, wm := wm }

/-- The state in which command `x` has been run with watermark `wm`, and nothing else has changed. -/
def withRun (s : State) (x : Flight) (wm : Nat) : State :=
  { s with flights := s.flights.map (fun y => if y.id = x.id then ranAs y wm else y) }

/-- The state in which a context has changed. -/
def withCtx (s : State) (q : Nat) (f : Ctx → Ctx) : State := { s with ctxs := s.ctxs.upd {} q f }

/-- A TAG_WAIT that waits on tag `t` for a value that counter `v` satisfies (R113). -/
def satisfies (t : Nat) (v : W32) (x : Flight) : Prop :=
  opOf x.cmd = 0x11 ∧ x.phase = .wait ∧ tagOf x.cmd = t ∧ (v - BitVec.ofNat 32 (cb x.cmd 4 4)).toNat < 2 ^ 31

/-- The state in which tag `t` has taken value `v`: waits that it satisfies have ended, with the stamp of now. -/
def withTag (s : State) (t : Nat) (v : W32) : State :=
  { s with
    tags := s.tags.set 0 t v
    flights := s.flights.map (fun x =>
      if opOf x.cmd = 0x11 ∧ x.phase = .wait ∧ tagOf x.cmd = t ∧ waitMet v (BitVec.ofNat 32 (cb x.cmd 4 4)) then
        { x with phase := .done, wm := 1, stamp := some (x.stamp.getD s.now) }
      else x) }

/-- In `t` the command with number `id` has been run with watermark `wm`. -/
def HasRun (t : State) (id wm : Nat) : Prop := (t.flight? id).map (fun y => (y.phase, y.wm)) = some (.done, wm)

/-- Units that pass: none faults, needs a remote read or waits for one. -/
def AllPass (us : List URes) : Prop := ∀ u ∈ us, u.bad = 0 ∧ u.needs = [] ∧ u.waits = false

/-- Units whose writes are all in this device's memory. -/
def AllLocal (us : List URes) : Prop := ∀ u ∈ us, ∀ o ∈ u.wr, o.pos = none

/-- The bytes that the writes of some units touch. -/
def TouchedBy (us : List URes) (a : Nat) : Prop :=
  ∃ u ∈ us, ∃ o ∈ u.wr, (bitSpan o.at_ o.n).1 ≤ a ∧ a < (bitSpan o.at_ o.n).1 + (bitSpan o.at_ o.n).2

/-- Every byte outside what the units touch reads as before. -/
def OnlyTouches (s t : State) (us : List URes) : Prop := ∀ a, ¬ TouchedBy us a → t.byte a = s.byte a

/-- Every byte of memory reads as before. -/
def SameMemory (s t : State) : Prop := ∀ a, t.byte a = s.byte a

/-- Memory is what the writes of some units, in order, make of it. -/
def Written (s t : State) (us : List URes) : Prop :=
  ∀ a, (t.byte a).toNat = (s.begin_.doWops (us.flatMap (·.wr))).byte a

/-- Nothing has changed but commands that wait to retire, memory and its system, the faces and galleries' counters, the
partitions' records and the marks of set bits where a corrected HBM sector may have been counted, and the model's counter of free
values. -/
def EngineFrame (s t : State) : Prop :=
  (s.ms.softSectors = [] → t.parts = s.parts ∧ t.dev = s.dev) ∧
  { t with
    clk := { t.clk with free := s.clk.free }, ms := s.ms, faces := s.faces, gals := s.gals, parts := s.parts, dev := s.dev
    flights := s.flights, mem := s.mem } = s

/-- An engine command whose units pass completes: it has been run, and where its writes are local, memory is what its units'
writes make of it, changed only in the bytes that they touch, and everything outside the engine is as it was. -/
def Completes (r : Host.Outcome State Fault Refusal) (s : State) (x : Flight) (us : List URes) (wm : Nat) : Prop :=
  ∃ t, r = .next t ∧ HasRun t x.id wm ∧ (AllLocal us → Written s t us ∧ OnlyTouches s t us ∧ EngineFrame s t)

/-- The state in which a port has changed. -/
def withPort (s : State) (n : Nat) (f : Port → Port) : State := { s with ports := s.ports.upd {} n f }

/-- The state in which a face has changed. -/
def withFace (s : State) (n : Nat) (f : Face → Face) : State := { s with faces := s.faces.upd {} n f }

/-- The state in which one stope array has changed. -/
def withArr (s : State) (f a : Nat) (g : Arr → Arr) : State :=
  { s with faces := s.faces.upd {} f (fun x => { x with arrs := updAt x.arrs a g }) }

/-- The state once a stall of the face's oldest unissued command has been counted (R94). -/
def stallCounted (s : State) (f : Nat) : State :=
  match s.stallOf (s.issueOrder f) with
  | some k => withFace s f (fun x => { x with ctr := x.ctr.bump (0x0100 + 8 * k) 1 })
  | none => s

/-- A context stands in the queue for a fetch slot of its face, or holds one. -/
def AsksFetch (s : State) (q : Nat) : Prop := q ∈ (s.face (s.ctx q).face).slots ∨ q ∈ (s.face (s.ctx q).face).waiting

/-- The state after an attempt of a face to issue has begun: in the array cycle of the last attempt (`again`) or in a new one; a
face's first attempt in a cycle counts a stall of its oldest unissued command (R94, log entry 134). -/
def attempt (s : State) (f : Nat) (again : Bool) : State :=
  let c := if again = true ∧ s.dev.cycleAt = s.clk.cyc10 ∧ 0 < s.dev.cycle then s.dev.cycle else s.dev.cycle + 1
  let b : State := { s with dev := { s.dev with cycle := c, cycleAt := s.clk.cyc10 } }
  if (s.face f).cycle = c then b else stallCounted (withFace b f (fun x => { x with cycle := c, issued := 0 })) f

/-- A context's next command neither issues nor faults at issue. -/
def HoldsBack (s : State) (q : Nat) : Prop := s.tryIssue q = .nothing ∨ ∃ m, s.tryIssue q = .stall m

/-- The tick that comes ends the trip of a module that has been tripped (R548). -/
def TripEnds (s : State) : Prop :=
  s.pwr.tripped ≠ 0 ∧ (250000000 ≤ s.pwr.away + b2n (!s.pwr.vin) ∨ 250000 ≤ s.pwr.low + b2n (!s.pwr.resetN))

/-- No evaluation of a canary and no audit has something left for the end of its bell tick, or that tick goes on. -/
def NothingLeft (s : State) : Prop :=
  s.loses = true ∨ ∀ e ∈ s.parts, e.2.audit.taking = false ∧ ∀ v, e.2.canary.eval = some v → v.told = true

/-- A reset of face `f` takes context `q` to IDLE. -/
def Idles (s : State) (f q : Nat) : Prop := (s.ctx q).face = f ∧ (s.ctx q).st ≠ .idle

/-- Address `a` lies in the writeback area of context `q` (R88). -/
def InWriteback (s : State) (q a : Nat) : Prop := (s.ctx q).wb ≠ 0 ∧ (s.ctx q).wb ≤ a ∧ a < (s.ctx q).wb + 16

/-- The writeback of a context that goes to IDLE (R88). -/
def idleWriteback (s : State) (q : Nat) : List Nat := leBytes 8 (s.retiredBelow q) ++ leBytes 4 (s.ctx q).produced ++ [0, 0, 0, 0]

/-- The writeback area of a context lies in HBM, or there is none. -/
def WritebackInHbm (s : State) (q : Nat) : Prop := (s.ctx q).wb = 0 ∨ (s.ctx q).wb + 16 ≤ Config.hbmEnd

/-- What a reset leaves of flash before it rejects a running trial: the records that were being written, as far as they got
(R521). -/
def flashCut (s : State) : Flash :=
  let f := match s.boot.flashJob with
    | some j => s.flash.writes j (Config.torn s.clk.free)
    | none => s.flash
  match s.ms.saving with
  | some r => f.setHealth (Config.torn s.clk.free 8) { f.health with remove := r }
  | none => f

/-- A value is the old or the new one. -/
def OldOrNew {α : Type} (x old new : α) : Prop := x = old ∨ x = new

/-- No flit waits in an egress queue. -/
def NoneHeld (s : State) : Prop := ∀ e ∈ s.ports, e.2.held = [] ∧ e.2.transit = []

/-- The state once a port has taken the link fields of `k` flits of channel `vc`, of which `free` leave their buffers at once,
and has sent what it then may (R364, R366). -/
def arrived (s : State) (n vc k free : Nat) (l : LinkIn) : State := s.settle (s.begin_.linkIn n vc k free l)

/-! ## Events of the bell template -/

/-- The row of an event acts by itself: the event is none of this tick, or it is the first of this tick's that has not acted
(R53). -/
def ActsAlone (s : State) (mine : BellRec → Bool) : Prop :=
  (∀ x ∈ s.eventsNow, mine x.1 = false) ∨ ∃ x l, s.eventsLeft = x :: l ∧ mine x.1 = true

/-- The device's record of the events that have acted, once this one has. -/
def firedDev (s : State) (mine : BellRec → Bool) : Dev :=
  match s.eventsLeft.find? (fun x => mine x.1) with
  | some x => { s.dev with
      firedAt := s.clk.bell, fired := if s.dev.firedAt = s.clk.bell then s.dev.fired ++ [x.2] else [x.2] }
  | none => s.dev

/-! ## Host requests -/

/-- The command that carries a request. -/
def ofReq (h : Hdr) : Req → Instr
  | .sessionOpen mode leaseLog2 rsv label => .sessionOpen h mode leaseLog2 rsv label
  | .leaseRenew => .leaseRenew h
  | .sessionClose => .sessionClose h
  | .custodyClaim => .custodyClaim h
  | .regRead addrs => .regRead h addrs
  | .regWrite pairs => .regWrite h pairs
  | .memRead addr len rsv => .memRead h addr len rsv
  | .memWrite addr data => .memWrite h addr data
  | .doorbell entries => .doorbell h entries
  | .reset scope index rsv => .reset h scope index rsv
  | .imageWrite off rsv data => .imageWrite h off rsv data
  | .grant part layer rsv body => .grant h part layer rsv body
  | .eventAck upTo => .eventAck h upTo
  | .telemetrySet periodLog2 rsv addrs => .telemetrySet h periodLog2 rsv addrs
  | .windowOpen x => .windowOpen h x
  | .windowClose x rsv => .windowClose h x rsv
  | .addrSet body => .addrSet h body
  | .reservedType t => .reservedMessageType h t

/-- The header with which a request comes in one datagram. -/
def whole (h : Hdr) (r : Req) : Hdr := { h with fragIndex := 0, fragCount := 1, bodyLen := (reqSize? r).getD 0 }
/-- The command that brings a request in one datagram. -/
def asks (h : Hdr) (r : Req) : Instr := ofReq (whole h r) r
/-- A request goes in one datagram: always inside an SPDM session, and else where its body is short enough. -/
def OneDatagram (h : Hdr) (r : Req) : Prop :=
  (reqSize? r).getD 0 ≤ 65536 ∧ (h.spdm = none → (reqSize? r).getD 0 ≤ 8192)

/-- The header of a request, on a part in READY whose host port can reach its sender. -/
def WholeRequest (s : State) (h : Hdr) : Prop :=
  s.boot.st = .ready ∧ h.version = 1 ∧ h.flags = 0 ∧ h.rsv = 0 ∧ h.status = 0 ∧ s.spdmOk h = true
    ∧ (s.hostPort h.port).canReach h.src = true

/-- A whole request of session `x` that comes in its turn: it is the one that the session expects next, and none waits or has
acted beyond it. -/
def InTurn (s : State) (h : Hdr) (x : Session) : Prop :=
  WholeRequest s h ∧ h.session ≠ 0 ∧ s.session? h.session = some x ∧ h.spdm = x.spdm ∧ h.seq = x.nextSeq ∧ h.seq < 2 ^ 32
    ∧ x.ahead = [] ∧ x.held = []

/-- The datagrams of the reply that a request of type `t` draws: one for each fragment, to where the request came from. -/
def repliesOf (h : Hdr) (t code : Nat) (body : List Nat) : List Out :=
  let l := if h.spdm.isSome then fragments 30 16 body else fragments 0 0 body
  l.zipIdx.map fun x => .reply (hdrBack h) h.spdm t h.session h.seq code (x.2, l.length) x.1.2

/-- The datagrams in which a session is sent a device-initiated message (R482, R501). -/
def messagesOf (x : Session) (seq : Nat) (again : Bool) (m : DevMsg) : List Out :=
  let l := if x.spdm.isSome then m.pieces 30 16 else m.pieces 0 0
  l.zipIdx.map fun y => .message x.to_ x.id seq again (y.2, l.length) y.1.2

/-- The request is answered, and nothing else is sent; its session goes on to the next number; the next state meets `ok`. -/
def Answered (s : State) (h : Hdr) (r : Req) (code : Nat) (body : List Nat) (ok : State → Prop) : Prop :=
  ∃ u, exec (asks h r) s = .next u ∧ u.out = s.out ++ repliesOf h (reqType r) code body
    ∧ (u.session? h.session).map (·.nextSeq) = some ((h.seq + 1) % 2 ^ 32) ∧ ok u

end Sys2Proof
end

