-- ==== Sys2Proof/WellFormed.lean ====
section
/-! DEFINITION. Which commands are well formed: operands name units that the part has (R19, R22, R23, R426), and values lie in
the widths of their fields. -/

namespace Sys2Proof

/-- A queue context (R23). -/
def okCtx (q : Nat) : Bool := decide (q < Config.nCtxs)
/-- A face. -/
def okFace (f : Nat) : Bool := decide (f < Config.nFaces)
/-- A gallery. -/
def okGal (g : Nat) : Bool := decide (g < Config.nGals)
/-- A partition (R19). -/
def okPart (p : Nat) : Bool := decide (p < Config.nParts)
/-- A fabric port (R22). -/
def okPort (n : Nat) : Bool := decide (n < Config.nPorts)
/-- A host port (R22). -/
def okHost (n : Nat) : Bool := decide (n < 2)
/-- A tag (R23). -/
def okTag (t : Nat) : Bool := decide (t < Config.nTags)
/-- A stope array of a face (R21). -/
def okArr (a : Nat) : Bool := decide (a < 4)
/-- A pseudo-channel (R426). -/
def okPc (p : Nat) : Bool := decide (p < Config.nPcs)
/-- A ring of a partition (R397). -/
def okRing (r : Nat) : Bool := decide (r < 8)
/-- A position of the shaft (R354). -/
def okPos (p : Nat) : Bool := decide (p < 256)
/-- A RoCEv2 window (R503). -/
def okWindow (i : Nat) : Bool := decide (i < 64)
/-- A layer of a grant area (R301). -/
def okLayer (l : Nat) : Bool := decide (l < 256)
/-- A value of `n` bits. -/
def fits (n x : Nat) : Bool := decide (x < 2 ^ n)
/-- Bytes. -/
def okBytes (l : List Nat) : Bool := l.all (fits 8)
/-- The header of an Adit datagram (R481). -/
def okHdr (h : Hdr) : Bool :=
  okHost h.port && fits 8 h.version && fits 8 h.flags && fits 32 h.session && fits 32 h.seq && fits 8 h.fragIndex
    && fits 8 h.fragCount && fits 16 h.status && fits 32 h.bodyLen && fits 128 h.src && fits 16 h.udp
/-- The link fields of a flit (R363). -/
def okLink (l : LinkIn) : Bool := fits 16 l.ack && okBytes [l.c0, l.c1, l.c2, l.c3]

/-- The fields of a request's body (R483). -/
def okReq : Req → Bool
  | .sessionOpen mode lease _ label => fits 8 mode && fits 8 lease && okBytes label
  | .leaseRenew | .sessionClose | .custodyClaim => true
  | .regRead l => l.all (fits 64)
  | .regWrite l => l.all (fun x => fits 64 x.1 && fits 64 x.2)
  | .memRead a n _ => fits 64 a && fits 32 n
  | .memWrite a l => fits 64 a && okBytes l
  | .doorbell l => l.all (fun x => fits 16 x.1 && fits 16 x.2.1 && fits 32 x.2.2)
  | .reset scope index _ => fits 8 scope && fits 8 index
  | .imageWrite off _ l => fits 32 off && okBytes l
  | .grant p layer _ l => fits 8 p && fits 16 layer && okBytes l
  | .eventAck n => fits 32 n
  | .telemetrySet k _ l => fits 8 k && l.all (fits 64)
  | .windowOpen x => fits 8 x.window && fits 8 x.part && fits 8 x.access && fits 32 x.destQpn && fits 64 x.base && fits 64 x.length
      && fits 128 x.gid && fits 32 x.startPsn
  | .windowClose i _ => fits 8 i
  | .addrSet l => okBytes l
  | .reservedType t => fits 8 t

/-- The types that R483 defines. -/
def definedTypes : List Nat :=
  [0x01, 0x02, 0x10, 0x11, 0x12, 0x13, 0x20, 0x21, 0x22, 0x23, 0x24, 0x25, 0x26, 0x30, 0x31, 0x32, 0x33, 0x40, 0x41, 0x50,
   0x51, 0x60]

/-- Sensor readings are bytes (R554). -/
def okTemps (t : Temps) : Bool :=
  okBytes [t.inlet, t.outlet, t.hbm, t.die0, t.die1, t.die2, t.die3, t.photonic]

/-- A command is well formed. -/
def Instr.wf : Instr → Bool
  | .nop q | .fence q | .branchIf q | .call q | .ret q | .waitBell q | .bounds q | .shift q | .tagSignal q | .tagWait q
  | .tagSet q | .tagRemote q | .load q | .store q | .prefetch q | .copy q | .grantWait q | .descCreate q | .descDrop q
  | .overrunTallyRecord q | .arm q | .stop q | .resumeRetry q | .resumeSkip q | .disarm q | .stoppingDrained q => okCtx q
  | .tileMm f u _ => okFace f && decide (u < 4)
  | .tileMv f u _ | .tileSp f u _ | .maskReg f u _ | .gather f u _ | .merge f u _ | .segsort f u _ | .vecOp f u _
  | .rowNorm f u _ | .rowSoftmax f u _ | .rowLoss f u _ | .optStep f u _ => okFace f && decide (u < 1)
  | .amaxRound f _ | .collBucket f _ | .kvPass f _ => okFace f
  | .secure f | .digest f | .commandFetch f | .commandIssue f _ | .faceReset f => okFace f
  | .route g | .census g | .galleryReset g => okGal g
  | .engineDispatch f _ => okFace f
  | .commandRetire q _ | .deadlineTest q _ _ | .collectiveIdleTimeout q _ => okCtx q
  | .devDoorbell q x | .devTallyAck q x => okCtx q && fits 32 x
  | .devTagSignal t x => okTag t && fits 32 x
  | .partitionReset p | .shiftMark p | .auditComplete p | .reconfigBoundary p | .secureWindowOpen p | .secureWindowClose p
  | .quiesceComplete p => okPart p
  | .collectivePhase p ring phase => okPart p && okRing ring && fits 16 phase
  | .pointsPreIdle p n | .pointsSwitch p n => okPart p && okPort n
  | .hostDeadline p layer | .grantDeadlineTest p layer => okPart p && okLayer layer
  | .grantInstall p layer n => okPart p && okLayer layer && fits 32 n
  | .heartbeatLoss n | .lossOfLight n | .seekLightDetect n | .trainComplete n | .trainingTimeout n | .pointsRetrainTimeout n
  | .faultedTimeout n | .transitCreditTimeout n => okPort n
  | .trainingRecordReceive n r => okPort n && okPos r.position
  | .retrain n x => okPort n && fits 64 x
  | .fabLostClear i x => decide (i < 4) && fits 64 x
  | .writeTransactionReceive n l t => okPort n && okLink l && okPos t.src && okPart t.part && okBytes t.data
  | .readRequestReceive n l src p _ vc a len =>
    okPort n && okLink l && okPos src && okPart p && decide (vc < 4) && fits 48 a && fits 32 len
  | .readResponseReceive n l src _ vc d => okPort n && okLink l && okPos src && decide (vc < 4) && okBytes d
  | .ackReceive n l src _ => okPort n && okLink l && okPos src
  | .nakReceive n l src _ _ => okPort n && okLink l && okPos src
  | .tagSignalReceive n l src p _ t x => okPort n && okLink l && okPos src && okPart p && fits 16 t && fits 32 x
  | .heartbeatReceive n l h => okPort n && okLink l && okPos h.position && fits 64 h.bellT
  | .lossNoticeReceive n l lost _ declarer => okPort n && okLink l && okPos lost && okPos declarer
  | .badFlitReceive n _ => okPort n
  | .flitForward n l x => okPort n && okLink l && okPos x.src && okPos x.dst && decide (x.vc < 4)
  | .collectiveFlitReceive n l x =>
    okPort n && okLink l && okPos x.src && okPart x.part && okRing x.ring && decide (x.stage < 5) && okBytes x.data
  | .closeFlitReceive n l p ring _ _ | .resolveFlitReceive n l p ring _ _ | .kvReadyReceive n l p ring _ _ =>
    okPort n && okLink l && okPart p && okRing ring
  | .idleFlitReceive n l _ _ => okPort n && okLink l
  | .ptpMessage port domain _ _ t x => okHost port && fits 8 domain && fits 64 t && fits 64 x
  | .stopeRampStep f a | .stopeIdleTimeout f a | .stopeWindStep f a => okFace f && okArr a
  | .faceStopeCtrl f x => okFace f && fits 64 x
  | .scrubRead pc _ _ => okPc pc
  | .memRepairCtrl x | .memRepairCmd x | .devPartQuiesce x => fits 64 x
  | .devGrantArea p x | .devRatioArea p x | .devRosterArea p x => okPart p && fits 64 x
  | .registerWrite a x => fits 48 a && fits 64 x
  | .spdm h _ => okHdr h
  | .secured o _ _ h r => okHdr o && okHdr h && okReq r
  | .sessionOpen h mode lease rsv label => okHdr h && okReq (.sessionOpen mode lease rsv label)
  | .leaseRenew h | .sessionClose h | .custodyClaim h => okHdr h
  | .regRead h l => okHdr h && okReq (.regRead l)
  | .regWrite h l => okHdr h && okReq (.regWrite l)
  | .memRead h a n rsv => okHdr h && okReq (.memRead a n rsv)
  | .memWrite h a l => okHdr h && okReq (.memWrite a l)
  | .doorbell h l => okHdr h && okReq (.doorbell l)
  | .reset h scope index rsv => okHdr h && okReq (.reset scope index rsv)
  | .imageWrite h off rsv l => okHdr h && okReq (.imageWrite off rsv l)
  | .grant h p layer rsv l => okHdr h && okReq (.grant p layer rsv l)
  | .eventAck h n => okHdr h && okReq (.eventAck n)
  | .telemetrySet h k rsv l => okHdr h && okReq (.telemetrySet k rsv l)
  | .windowOpen h x => okHdr h && okReq (.windowOpen x)
  | .windowClose h i rsv => okHdr h && okReq (.windowClose i rsv)
  | .addrSet h l => okHdr h && okReq (.addrSet l)
  | .reservedMessageType h t => okHdr h && fits 8 t && !decide (t ∈ definedTypes)
  | .telemetry x | .eventResend x | .leaseExpiry x => fits 32 x
  | .fragmentTimeout x seq => fits 32 x && fits 32 seq
  | .neighborPacket port _ | .hostLinkChange port _ _ _ => okHost port
  | .hostPacketDiscard port f => okHost port && fits 16 f.size && fits 128 f.addr
  | .pfcFrameReceive port prio _ => okHost port && decide (prio < 8)
  | .rdmaWrite port i rkey psn va l _ _ => okHost port && okWindow i && fits 32 rkey && fits 24 psn && fits 64 va && okBytes l
  | .rdmaRead port i rkey psn va n _ => okHost port && okWindow i && fits 32 rkey && fits 24 psn && fits 64 va && fits 32 n
  | .roceInvalidRequest port i psn _ => okHost port && okWindow i && fits 24 psn
  | .cnpReceive port i => okHost port && okWindow i
  | .hfVerifyComplete bad => fits 4 bad
  | .hfStartComplete bad l => fits 4 bad && l.all (fun x => okPc x.pc)
  | .vinRise x => fits 8 x
  | .governorSample a b c => fits 16 a && fits 16 b && fits 16 c
  | .thermalLevelRise t | .thermalLevelFall t => okTemps t
  | .smbusWrite x => fits 8 x
  | .memRepairData _ x => fits 64 x
  | .warmReset | .coldReset | .resetComplete | .heartbeatSend | .settlementTimeout _ | .freerunTimeout | .masterTimeout
  | .upstreamReselectTimeout | .holdoverTimeout | .canaryEvaluation | .regulatorRefill | .save | .healthSaveComplete | .commit
  | .discard | .validationComplete | .applyComplete | .reservationExpiry | .roceRateRestore | .fwStage | .fwCommit | .planSave
  | .planClear | .anchorAdd | .anchorClear | .flashOpComplete | .romSelfTestComplete _ _ | .identityComplete _
  | .planLoadComplete | .vinLow | .undervoltageTrip | .overcurrentTrip | .vinRemove | .resetNAssert | .resetNRelease
  | .refclkLoss | .refclkRecover | .brakeNAssert | .brakeNRelease | .inletHigh | .smbusReadStatus | .smbusReadInput
  | .smbusReadTemp | .smbusReadId | .ptpLockLoss | .spdmHeartbeatTimeout _ => true

/-- The units that a command names exist: what its meaning asks of it. -/
def Instr.unitsExist : Instr → Bool
  | .nop q | .fence q | .branchIf q | .call q | .ret q | .waitBell q | .bounds q | .shift q | .tagSignal q | .tagWait q
  | .tagSet q | .tagRemote q | .load q | .store q | .prefetch q | .copy q | .grantWait q | .descCreate q | .descDrop q
  | .overrunTallyRecord q | .arm q | .stop q | .resumeRetry q | .resumeSkip q | .disarm q | .stoppingDrained q
  | .commandRetire q _ | .deadlineTest q _ _ | .collectiveIdleTimeout q _ | .devDoorbell q _ | .devTallyAck q _ => okCtx q
  | .tileMm f u _ => okFace f && decide (u < 4)
  | .tileMv f u _ | .tileSp f u _ | .maskReg f u _ | .gather f u _ | .merge f u _ | .segsort f u _ | .vecOp f u _
  | .rowNorm f u _ | .rowSoftmax f u _ | .rowLoss f u _ | .optStep f u _ => okFace f && decide (u < 1)
  | .amaxRound f _ | .collBucket f _ | .kvPass f _ | .secure f | .digest f | .commandFetch f | .commandIssue f _ | .faceReset f
  | .engineDispatch f _ | .faceStopeCtrl f _ => okFace f
  | .route g | .census g | .galleryReset g => okGal g
  | .devTagSignal t _ => okTag t
  | .partitionReset p | .shiftMark p | .auditComplete p | .reconfigBoundary p | .secureWindowOpen p | .secureWindowClose p
  | .quiesceComplete p | .collectivePhase p _ _ | .hostDeadline p _ | .grantDeadlineTest p _ | .grantInstall p _ _
  | .devGrantArea p _ | .devRatioArea p _ | .devRosterArea p _ => okPart p
  | .pointsPreIdle p n | .pointsSwitch p n => okPart p && okPort n
  | .heartbeatLoss n | .lossOfLight n | .seekLightDetect n | .trainComplete n | .trainingTimeout n | .pointsRetrainTimeout n
  | .faultedTimeout n | .transitCreditTimeout n | .trainingRecordReceive n _ | .retrain n _ | .writeTransactionReceive n _ _
  | .readRequestReceive n _ _ _ _ _ _ _ | .readResponseReceive n _ _ _ _ _ | .ackReceive n _ _ _ | .nakReceive n _ _ _ _
  | .tagSignalReceive n _ _ _ _ _ _ | .heartbeatReceive n _ _ | .lossNoticeReceive n _ _ _ _ | .badFlitReceive n _
  | .flitForward n _ _ | .collectiveFlitReceive n _ _ | .closeFlitReceive n _ _ _ _ _ | .resolveFlitReceive n _ _ _ _ _
  | .kvReadyReceive n _ _ _ _ _ | .idleFlitReceive n _ _ _ => okPort n
  | .fabLostClear i _ => decide (i < 4)
  | .ptpMessage port _ _ _ _ _ | .neighborPacket port _ | .hostLinkChange port _ _ _ | .hostPacketDiscard port _
  | .pfcFrameReceive port _ _ => okHost port
  | .stopeRampStep f a | .stopeIdleTimeout f a | .stopeWindStep f a => okFace f && okArr a
  | .scrubRead pc _ _ => okPc pc
  | .rdmaWrite port i _ _ _ _ _ _ | .rdmaRead port i _ _ _ _ _ | .roceInvalidRequest port i _ _ | .cnpReceive port i =>
    okHost port && okWindow i
  | .memRepairCtrl _ | .memRepairCmd _ | .devPartQuiesce _ | .registerWrite _ _ | .spdm _ _ | .secured _ _ _ _ _
  | .sessionOpen _ _ _ _ _ | .leaseRenew _ | .sessionClose _ | .custodyClaim _ | .regRead _ _ | .regWrite _ _
  | .memRead _ _ _ _ | .memWrite _ _ _ | .doorbell _ _ | .reset _ _ _ _ | .imageWrite _ _ _ _ | .grant _ _ _ _ _
  | .eventAck _ _ | .telemetrySet _ _ _ _ | .windowOpen _ _ | .windowClose _ _ _ | .addrSet _ _ | .reservedMessageType _ _
  | .telemetry _ | .eventResend _ | .leaseExpiry _ | .fragmentTimeout _ _ | .hfVerifyComplete _ | .hfStartComplete _ _
  | .vinRise _ | .governorSample _ _ _ | .thermalLevelRise _ | .thermalLevelFall _ | .smbusWrite _ | .memRepairData _ _
  | .warmReset | .coldReset | .resetComplete | .heartbeatSend | .settlementTimeout _ | .freerunTimeout | .masterTimeout
  | .upstreamReselectTimeout | .holdoverTimeout | .canaryEvaluation | .regulatorRefill | .save | .healthSaveComplete | .commit
  | .discard | .validationComplete | .applyComplete | .reservationExpiry | .roceRateRestore | .fwStage | .fwCommit | .planSave
  | .planClear | .anchorAdd | .anchorClear | .flashOpComplete | .romSelfTestComplete _ _ | .identityComplete _
  | .planLoadComplete | .vinLow | .undervoltageTrip | .overcurrentTrip | .vinRemove | .resetNAssert | .resetNRelease
  | .refclkLoss | .refclkRecover | .brakeNAssert | .brakeNRelease | .inletHigh | .smbusReadStatus | .smbusReadInput
  | .smbusReadTemp | .smbusReadId | .ptpLockLoss | .spdmHeartbeatTimeout _ => true

end Sys2Proof
end

