-- ==== Sys2Proof/Certificates/Slice0/Obligations.lean ====
section
/-! DEFINITION. The statements for the provers. -/

open Sys2Proof Sys2Proof.Machine


/-! ## The machine -/

/-- A step takes the command at the front of the queue and does what that command does, on the state with the rest of the
queue. The queue and its order are the model's choice (log entry 21). -/
def Obligations.StepRunsTheFrontCommand : Prop :=
  ∀ (c : Instr) (s : State) (rest : List Instr), s.pending = c :: rest → step s = exec c { s with pending := rest }

/-- With no command waiting, a step is one tick of the clocks; without the reference clock they stand. Bell time counts on
unless the rate correction takes a tick out, and gains one without the other clocks where it has gathered one; the span clock
goes with it, or with the lease clock while bell time does not count. A context whose next command has missed its deadline
gets late_flag, once. The rest of the part stays but for counters of ticks, where no evaluation and no audit has something
left for the end of its tick, no trip ends and no port has credits or a link_ack to return. The tick, the tick gained or lost,
what is left to its end and the idle flits are the model's choice (log entries 8, 118, 126 and 115). -/
def Obligations.IdleStepTicks : Prop :=
  ∀ s : State, s.pending = [] → ∃ t, step s = .next t
    ∧ t.clk.lease = (if s.pwr.refclk ∧ ¬ s.gains then s.clk.lease + 1 else s.clk.lease)
    ∧ t.clk.bell = (if s.pwr.refclk ∧ s.bell.st.counts ∧ (s.gains ∨ ¬ s.loses) then (s.clk.bell + 1) % 2 ^ 64 else s.clk.bell)
    ∧ t.clk.span = (if s.pwr.refclk ∧ (s.gains ∨ ¬ s.loses) then s.clk.span + 1 else s.clk.span)
    ∧ t.clk.cyc10 = (if s.pwr.refclk ∧ ¬ s.gains then s.clk.cyc10 + cyc10PerTick s.pwr.mode else s.clk.cyc10)
    ∧ (∀ q, t.ctx q = (if (s.ctx q).bound.any (fun d => !d.missed) ∧ ({ s with clk := t.clk } : State).boundPast q then
        { s.ctx q with lateFlag := true, bound := (s.ctx q).bound.map (fun d => { d with missed := true }) } else s.ctx q))
    ∧ t.pending = [] ∧ t.tags = s.tags ∧ t.descs = s.descs ∧ t.struct = s.struct
    ∧ (¬ TripEnds s → t.boot = s.boot ∧ t.flash = s.flash ∧ t.pwr.duty = s.pwr.duty ∧ t.pwr.pwrGood = s.pwr.pwrGood)
    ∧ (NothingLeft s →
        t.mem = s.mem ∧ t.faces = s.faces ∧ t.rings = s.rings ∧ t.ms = s.ms
        ∧ t.parts = s.parts ∧ t.flights = s.flights ∧ t.txns = s.txns ∧ t.host = s.host
        ∧ ((∀ e ∈ s.ports, e.2.st = .up → e.2.told = e.2.rxSeq ∧ ∀ k ∈ e.2.owed, k = 0) → t.out = s.out))

/-- Registers read their reset values after reset, memory lists nothing, no session is open and the boot state is OFF. The
boot state and what memory that is not listed reads as are the model's choice (log entries 7, 1 and 2). -/
def Obligations.ResetRegisters : Prop :=
  State.reset.pending = [] ∧ State.reset.mem = [] ∧ State.reset.host.sessions = [] ∧ State.reset.boot.st = .off
    ∧ State.reset.readReg Config.devBase = 0x00004A7C5C40A000
    ∧ State.reset.readReg (Config.devBase + 8) = 0x0011100C2410100C
    ∧ State.reset.readReg (Config.fabBase + 0x0400) = 0x3F3F
    ∧ State.reset.readReg (Config.bellBase + 0x0018) = 4
    ∧ State.reset.readReg (Config.memBase + 0x00A0) = 0x0000010000000040
    ∧ State.reset.readReg Config.hfcBase = 0
    ∧ State.reset.readReg (Config.hfcBase + 0x0100) = 0xFF0000000000
    ∧ State.reset.readReg (Config.faceRegBase + 0x0718) = 1
    ∧ State.reset.readReg (Config.devBase + 0x0388) = 0

/-- The memory after reset is in canonical form. -/
def Obligations.MemoryCanonicalAtReset : Prop :=
 MemoryCanonical State.reset

/-- Every step keeps the memory in canonical form. -/
def Obligations.MemoryCanonicalKept : Prop :=
  ∀ s t : State, MemoryCanonical s → step s = .next t → MemoryCanonical t

/-- No command changes the queue of commands that wait (log entry 21). -/
def Obligations.QueueKept : Prop :=
 ∀ (c : Instr) (s t : State), exec c s = .next t → t.pending = s.pending

/-- Every well-formed command completes, in every state. A command that names a unit the part does not have faults in every
state. The fault is the model's choice (log entry 11). -/
def Obligations.UnitsDecide : Prop :=
  (∀ (c : Instr) (s : State), c.wf = true → ∃ t, exec c s = .next t)
  ∧ (∀ (c : Instr) (s : State), c.unitsExist = false → exec c s = .fault .noSuchUnit)


/-! ## Sequencer and tags -/

/-- NOP, FENCE and WAIT_BELL run with watermark 1 and change nothing else: FENCE once every earlier command of its context has
retired, WAIT_BELL once bell time has reached its tick. Until then both wait. SHIFT sets the context's shift number: to the
operand, by adding it, or to the partition's current shift. BOUNDS gives its context the bounds of the next command, once that
command is there and is no control command; until it is there, BOUNDS waits. Where the deadline has passed already, the
command has missed it, and late_flag is set (log entry 44). Before a control command BOUNDS faults with 0x020A; a next command
that cannot be read counts as one (log entry 133). -/
def Obligations.SequencerCommands : Prop :=
  (∀ (q : Nat) (s : State) (x : Flight), q < Config.nCtxs →
      (s.seqNext q 0x00 = some x → exec (.nop q) s = .next (withRun s x 1))
      ∧ (s.seqNext q 0x01 = some x → (∀ y ∈ s.flights, y.q = q → x.id ≤ y.id) → exec (.fence q) s = .next (withRun s x 1))
      ∧ (s.seqNext q 0x01 = some x → (∃ y ∈ s.flights, y.q = q ∧ y.id < x.id) → exec (.fence q) s = .next s)
      ∧ (s.seqNext q 0x05 = some x → s.bell.st.counts = true → s.waitTick x ≤ s.clk.bell →
          exec (.waitBell q) s = .next (withRun s x 1))
      ∧ (s.seqNext q 0x05 = some x → s.clk.bell < s.waitTick x → exec (.waitBell q) s = .next s))
  ∧ (∀ (q : Nat) (s : State) (x : Flight), q < Config.nCtxs → s.seqNext q 0x07 = some x →
      exec (.shift q) s = .next (withRun (withCtx s x.q (fun c => { c with
        shift := if cb x.cmd 8 1 = 0 then BitVec.ofNat 32 (cb x.cmd 4 4)
          else if cb x.cmd 8 1 = 1 then c.shift + BitVec.ofNat 32 (cb x.cmd 4 4) else s.curShift x.part })) x 1))
  ∧ (∀ (q : Nat) (s : State) (x : Flight), q < Config.nCtxs → s.seqNext q 0x06 = some x →
      ((s.ctx x.q).next? = none → exec (.bounds q) s = .next s)
      ∧ (∀ n, (s.ctx x.q).next? = some n →
        let b := withCtx s x.q (fun c => { c with bound := some (boundOf x.cmd) })
        (0x10 ≤ opOf n.cmd → b.boundPast x.q = false → exec (.bounds q) s = .next (withRun b x 1))
        ∧ (0x10 ≤ opOf n.cmd → b.boundPast x.q = true → exec (.bounds q) s = .next (withRun (withCtx s x.q (fun c => { c with
            lateFlag := true, bound := some { boundOf x.cmd with missed := true } })) x 1))
        ∧ (opOf n.cmd < 0x10 → ∃ t, exec (.bounds q) s = .next t ∧ t.flight? x.id = none ∧ (t.ctx x.q).lastFault = 0x020A
            ∧ t.tags = s.tags)))

/-- The current shift of a partition at bell T. -/
def Obligations.CurrentShift : Prop :=
  ∀ (s : State) (p phase period : Nat),
    (s.struct.plan.mark p = some (phase, period) → phase ≤ s.clk.bell →
      s.curShift p = BitVec.ofNat 32 ((s.clk.bell - phase) / period))
    ∧ (s.struct.plan.mark p = some (phase, period) → s.clk.bell < phase → s.curShift p = 0)
    ∧ (s.struct.plan.mark p = none → s.curShift p = 0)

/-- CALL enters a subroutine, one level deeper, at its target; RET goes back to the caller, or to the ring from the outermost
subroutine. A context that goes on in a subroutine asks for a fetch. Memory and every other context stay. BRANCH_IF: not
taken, it clears the flags it names and goes on, with no check of its count or target (log entry 107); taken with action skip
in the ring, it also consumes n commands, and in a subroutine it goes on at the command n places from the next; taken with
action call it enters a subroutine as CALL does. Taken on SAT, its record has status WIDENED (2) and the saturation count. A
skip of less than 0 in the ring, and one of -1 in a subroutine, fault with 0x0209. -/
def Obligations.ControlFlow : Prop :=
  (∀ (q : Nat) (s : State) (x : Flight), q < Config.nCtxs →
      (s.seqNext q 0x03 = some x → (s.ctx x.q).calls.length < 4 → s.targetOk x.part (cb x.cmd 4 6) = true →
        ∃ t, exec (.call q) s = .next t ∧ (t.ctx x.q).calls.length = (s.ctx x.q).calls.length + 1
          ∧ (t.ctx x.q).pc = cb x.cmd 4 6 ∧ (t.ctx x.q).subBuf = [] ∧ t.flights = (withRun s x 1).flights ∧ t.mem = s.mem
          ∧ AsksFetch t x.q ∧ ∀ k, k ≠ x.q → t.ctx k = s.ctx k)
      ∧ (∀ a l, s.seqNext q 0x04 = some x → (s.ctx x.q).calls = some a :: l →
        ∃ t, exec (.ret q) s = .next t ∧ (t.ctx x.q).calls = l ∧ (t.ctx x.q).pc = a ∧ (t.ctx x.q).subBuf = []
          ∧ t.flights = (withRun s x 1).flights ∧ t.mem = s.mem ∧ AsksFetch t x.q ∧ ∀ k, k ≠ x.q → t.ctx k = s.ctx k)
      ∧ (∀ l, s.seqNext q 0x04 = some x → (s.ctx x.q).calls = none :: l →
        exec (.ret q) s = .next (withRun (withCtx s x.q (fun c => { c with calls := [], subBuf := [] })) x 1)))
  ∧ (∀ (q : Nat) (s : State) (x : Flight), q < Config.nCtxs → s.seqNext q 0x02 = some x →
      (branchTaken (s.ctx x.q) (cb x.cmd 4 1) = false →
        exec (.branchIf q) s = .next (withRun (withCtx s x.q (fun c => c.clearFlags (cb x.cmd 6 1))) x 1))
      ∧ (∀ n : Nat, branchTaken (s.ctx x.q) (cb x.cmd 4 1) = true → cb x.cmd 4 1 ≠ 1 → cb x.cmd 5 1 ≠ 1
          → (s.ctx x.q).calls = [] → s32 (cb x.cmd 8 4) = n →
        ∃ t, exec (.branchIf q) s = .next t ∧ (t.ctx x.q).buf = (s.ctx x.q).buf.drop n
          ∧ (t.ctx x.q).skip = (s.ctx x.q).skip + (n - (s.ctx x.q).buf.length)
          ∧ t.flights = (withRun s x 1).flights ∧ t.mem = s.mem)
      ∧ (∀ n : Nat, branchTaken (s.ctx x.q) (cb x.cmd 4 1) = true → cb x.cmd 4 1 = 1 → cb x.cmd 5 1 ≠ 1
          → (s.ctx x.q).calls = [] → s32 (cb x.cmd 8 4) = n →
        ∃ t, exec (.branchIf q) s = .next t ∧ (t.ctx x.q).buf = (s.ctx x.q).buf.drop n
          ∧ t.flights = s.flights.map (fun y => if y.id = x.id then
              { y with phase := .done, status := 2, wm := min (s.ctx x.q).satCount 0xFFFFFFFF } else y) ∧ t.mem = s.mem)
      ∧ (branchTaken (s.ctx x.q) (cb x.cmd 4 1) = true → cb x.cmd 4 1 ≠ 1 → cb x.cmd 5 1 ≠ 1
          → (s.ctx x.q).calls ≠ [] → s32 (cb x.cmd 8 4) ≠ -1 →
        ∃ t, exec (.branchIf q) s = .next t
          ∧ (t.ctx x.q).pc = (((s.ctx x.q).nextAddr : Int) + 16 * s32 (cb x.cmd 8 4)).toNat
          ∧ (t.ctx x.q).calls = (s.ctx x.q).calls ∧ (t.ctx x.q).subBuf = [] ∧ (t.ctx x.q).buf = (s.ctx x.q).buf
          ∧ t.flights = (withRun s x 1).flights ∧ t.mem = s.mem)
      ∧ (branchTaken (s.ctx x.q) (cb x.cmd 4 1) = true → cb x.cmd 4 1 ≠ 1 → cb x.cmd 5 1 = 1
          → (s.ctx x.q).calls.length < 4 → s.targetOk x.part (cb x.cmd 8 6) = true →
        ∃ t, exec (.branchIf q) s = .next t ∧ (t.ctx x.q).calls.length = (s.ctx x.q).calls.length + 1
          ∧ (t.ctx x.q).pc = cb x.cmd 8 6 ∧ (t.ctx x.q).subBuf = [] ∧ t.flights = (withRun s x 1).flights ∧ t.mem = s.mem)
      ∧ (branchTaken (s.ctx x.q) (cb x.cmd 4 1) = true → cb x.cmd 5 1 ≠ 1 →
          ((s.ctx x.q).calls = [] ∧ s32 (cb x.cmd 8 4) < 0 ∨ (s.ctx x.q).calls ≠ [] ∧ s32 (cb x.cmd 8 4) = -1) →
        ∃ t, exec (.branchIf q) s = .next t ∧ t.flight? x.id = none ∧ (t.ctx x.q).lastFault = 0x0209
          ∧ ((s.ctx x.q).st = .active → (t.ctx x.q).st = .faulted)))

/-- TAG_SIGNAL adds its value to its tag and TAG_SET gives the tag its value; waits that the new value satisfies end.
TAG_REMOTE opens one transaction and has run. To the device's own position the signal is applied at once, or refused where the
tag cannot take it (0x0214); to a position without a route it is unreachable (0x0610), to one declared lost it is lost
(0x0611), and no tag changes: with that code the command ends. That the own position is settled within the row is log entry
94; what a partition byte above 15 does is log entry 143. -/
def Obligations.TagSignals : Prop :=
  (∀ (q : Nat) (s : State) (x : Flight), q < Config.nCtxs →
      (s.seqNext q 0x10 = some x →
        exec (.tagSignal q) s =
          .next (withRun (withTag s (tagOf x.cmd) (s.tag (tagOf x.cmd) + BitVec.ofNat 32 (cb x.cmd 4 4))) x 1))
      ∧ (s.seqNext q 0x12 = some x →
        exec (.tagSet q) s = .next (withRun (withTag s (tagOf x.cmd) (BitVec.ofNat 32 (cb x.cmd 4 4))) x 1)))
  ∧ (∀ (q : Nat) (s : State) (x : Flight), q < Config.nCtxs → s.seqNext q 0x13 = some x →
      ∃ t, exec (.tagRemote q) s = .next t ∧ HasRun t x.id 1 ∧ t.ctxs = s.ctxs ∧ t.mem = s.mem
        ∧ t.dev.nextTxn = s.dev.nextTxn + 1
        ∧ (let settled := fun (st : TxnSt) (code : Nat) =>
            (∃ y ∈ t.txns, y.id = s.dev.nextTxn ∧ y.owner = x.id ∧ y.dst = cb x.cmd 8 1 ∧ y.st = st)
            ∧ (x.fault = none → (∀ y ∈ s.txns, y.owner ≠ x.id) →
                t.endFault (ranAs x 1) = if code = 0 then none else some (code, 0))
          (cb x.cmd 8 1 = s.ownPos → s.tagAcceptable (cb x.cmd 9 1) (tagOf x.cmd) = true →
            t.tag (tagOf x.cmd) = s.tag (tagOf x.cmd) + BitVec.ofNat 32 (cb x.cmd 4 4) ∧ settled .accepted 0)
          ∧ (cb x.cmd 8 1 = s.ownPos → s.tagAcceptable (cb x.cmd 9 1) (tagOf x.cmd) = false →
            t.tags = s.tags ∧ settled .refused 0x0214)
          ∧ (cb x.cmd 8 1 ≠ s.ownPos → t.tags = s.tags)
          ∧ (cb x.cmd 8 1 ≠ s.ownPos → s.egress (cb x.cmd 8 1) = none → settled .unreachable 0x0610 ∧ t.out = s.out)
          ∧ (cb x.cmd 8 1 ≠ s.ownPos → (s.egress (cb x.cmd 8 1)).isSome = true → s.isLost (cb x.cmd 8 1) = true →
            settled .lost 0x0611 ∧ t.out = s.out)
          ∧ (cb x.cmd 8 1 ≠ s.ownPos → (s.egress (cb x.cmd 8 1)).isSome = true → s.isLost (cb x.cmd 8 1) = false →
            settled .opened 0)))

/-- A write of DEV_TAG_SIGNAL adds its value to the tag it names as TAG_SIGNAL does; one that names a tag in no defined
partition is ignored. -/
def Obligations.DevTagSignalWrite : Prop :=
  ∀ (tag value : Nat) (s : State), tag < Config.nTags →
    ((s.struct.plan.partOfTag tag).isSome = true →
      exec (.devTagSignal tag value) s = .next (withTag s tag (s.tag tag + BitVec.ofNat 32 value)))
    ∧ (s.struct.plan.partOfTag tag = none → exec (.devTagSignal tag value) s = .next s)

/-- A wait for value v on a tag with counter c is satisfied when (c − v) mod 2^32 < 2^31. A TAG_WAIT that has been satisfied
when it runs, by the value its tag has or by the one the tag had at its issue, ends; otherwise it waits. It ends at the first
value that satisfies it which a signal or a set gives the tag: DEV_TAG_SIGNAL, TAG_SIGNAL, TAG_SET, a TAG_REMOTE to the own
position (log entry 94), a remote signal, or the sig of a command that retires. -/
def Obligations.TagWaitCommand : Prop :=
  (∀ (q : Nat) (s : State) (x : Flight), q < Config.nCtxs → s.seqNext q 0x11 = some x →
    ((s.tag (tagOf x.cmd) - BitVec.ofNat 32 (cb x.cmd 4 4)).toNat < 2 ^ 31 ∨ x.stamp.isSome = true →
      ∃ t, exec (.tagWait q) s = .next t ∧ HasRun t x.id 1 ∧ t.tags = s.tags ∧ t.ctxs = s.ctxs ∧ t.mem = s.mem)
    ∧ (2 ^ 31 ≤ (s.tag (tagOf x.cmd) - BitVec.ofNat 32 (cb x.cmd 4 4)).toNat → x.stamp = none → exec (.tagWait q) s = .next s))
  ∧ (∀ (tag : Nat) (v : W32) (s : State) (y : Flight), y ∈ s.flights → satisfies tag v y →
    let ends := fun (i : Instr) => ∃ t, exec i s = .next t ∧ t.tag tag = v ∧ ∃ z ∈ t.flights, z.id = y.id ∧ z.phase = .done
    (∀ value, tag < Config.nTags → (s.struct.plan.partOfTag tag).isSome = true → v = s.tag tag + BitVec.ofNat 32 value →
      ends (.devTagSignal tag value))
    ∧ (∀ q x, q < Config.nCtxs → s.seqNext q 0x10 = some x → tag = tagOf x.cmd →
        v = s.tag tag + BitVec.ofNat 32 (cb x.cmd 4 4) → ends (.tagSignal q))
    ∧ (∀ q x, q < Config.nCtxs → s.seqNext q 0x12 = some x → tag = tagOf x.cmd → v = BitVec.ofNat 32 (cb x.cmd 4 4) →
        ends (.tagSet q))
    ∧ (∀ q x, q < Config.nCtxs → s.seqNext q 0x13 = some x → tag = tagOf x.cmd → cb x.cmd 8 1 = s.ownPos →
        s.tagAcceptable (cb x.cmd 9 1) tag = true → v = s.tag tag + BitVec.ofNat 32 (cb x.cmd 4 4) → ends (.tagRemote q))
    ∧ (∀ n l src part txn value, n < Config.nPorts → (s.port n).st = .up → (s.port n).inOrder l.seq = true →
        roleTakes (s.port n).role 0 6 = true → s.tagAcceptable part tag = true → v = s.tag tag + BitVec.ofNat 32 value →
        ends (.tagSignalReceive n l src part txn tag value))
    ∧ (∀ q id x, q < Config.nCtxs → s.flights.find? (fun x => x.id = id ∧ x.q = q) = some x →
        s.mayRetire x = true → s.endFault x = none → fSig x.cmd = true → tag = tagOf x.cmd → v = s.tag tag + 1 → y.id ≠ id →
        ends (.commandRetire q id)))


/-! ## Engines -/

/-- LOAD, STORE, PREFETCH and COPY: the oldest one of a context that a data mover has taken completes when each row of its
tile passes, with the number of rows as its watermark. Local writes change the bytes of its destination and nothing else.
LOAD, STORE, PREFETCH or COPY whose rows need data of another position that has not been asked for opens a read transaction
for each run of addresses, and goes on waiting; one whose data has been asked for waits until it is there. Memory is as
before. -/
def Obligations.DataMovement : Prop :=
  (∀ (q : Nat) (s : State) (x : Flight), q < Config.nCtxs →
      let us := moveUnits s.begin_ x
      AllPass us →
      (s.runningOf q 0x20 = some x → Completes (exec (.load q) s) s x us us.length)
      ∧ (s.runningOf q 0x21 = some x → Completes (exec (.store q) s) s x us us.length)
      ∧ (s.runningOf q 0x22 = some x → Completes (exec (.prefetch q) s) s x us us.length)
      ∧ (s.runningOf q 0x23 = some x → Completes (exec (.copy q) s) s x us us.length))
  ∧ (∀ (q : Nat) (s : State) (x : Flight), q < Config.nCtxs →
      ∀ e ∈ ([(0x20, .load q), (0x21, .store q), (0x22, .prefetch q), (0x23, .copy q)] : List (Nat × Instr)),
      s.runningOf q e.1 = some x →
      let us := moveUnits s.begin_ x
      let asks := (us.flatMap (fun u => remoteReads u.needs)).eraseDups
      (∀ u ∈ us, u.bad = 0) →
      (asks ≠ [] → ∃ t, exec e.2 s = .next t ∧ t.dev.nextTxn = s.dev.nextTxn + asks.length ∧ SameMemory s t ∧ t.ctxs = s.ctxs
        ∧ (t.flight? x.id).map (·.phase) = (s.flight? x.id).map (·.phase)
        ∧ ∀ r ∈ asks, ∃ y ∈ t.txns, s.dev.nextTxn ≤ y.id ∧ y.kind = .read ∧ y.owner = x.id ∧ y.dst = r.1 ∧ y.addr = r.2.1
            ∧ y.len = r.2.2)
      ∧ (asks = [] → (∃ u ∈ us, u.waits = true) → exec e.2 s = .next s))

/-- TILE_MM and TILE_MV run on the array or path that took them: TILE_MM when its array is ON, one unit for each row-segment;
TILE_MV one unit for each column group. A split TILE_MM keeps both halves' ends. A parity error stops TILE_MV, and TILE_MM on
an array that is ON, after the units below it: the command ends as a fault with code 0x0291, or 0x0290, so its context is
faulted or was not active. In a split TILE_MM it stops one of the halves. -/
def Obligations.DenseEngines : Prop :=
  (∀ (f u : Nat) (s : State) (x : Flight), f < Config.nFaces →
      (u < 4 → s.runningOn f u 0x30 = some x → ((s.face f).arrs.getD u {}).pw = .on → mmSplit x.cmd = false →
        AllPass (mmUnits s.begin_ x) →
        Completes (exec (.tileMm f u none) s) s x (mmUnits s.begin_ x) (wmOf (mmUnits s.begin_ x)))
      ∧ (u < 4 → s.runningOn f u 0x30 = some x → ((s.face f).arrs.getD u {}).pw ≠ .on →
        ∀ par, exec (.tileMm f u par) s = .next s)
      ∧ (u < 4 → s.runningOn f u 0x30 = some x → ((s.face f).arrs.getD u {}).pw = .on → mmSplit x.cmd = true →
        (∀ h ∈ halfRows ((tileOf s.begin_ x).a.e 1), AllPass (tileUnits s.begin_ x (tileOf s.begin_ x) h.2.1 h.2.2)) →
        ∃ t, exec (.tileMm f u none) s = .next t ∧
          (t.flight? x.id).map (fun y => (y.phase, y.halves.map (fun h => (h.wm, h.code)))) =
            some (.done, (halfRows ((tileOf s.begin_ x).a.e 1)).map
              (fun h => (wmOf (tileUnits s.begin_ x (tileOf s.begin_ x) h.2.1 h.2.2), 0))))
      ∧ (u < 1 → s.runningOn f u 0x31 = some x → AllPass (mvUnits s.begin_ x) →
        Completes (exec (.tileMv f u none) s) s x (mvUnits s.begin_ x) (wmOf (mvUnits s.begin_ x))))
  ∧ (∀ (f n : Nat) (s : State) (x : Flight), f < Config.nFaces → (∀ y ∈ s.txns, y.owner ≠ x.id) →
      let faults := fun (i : Instr) (code : Nat) => ∃ t, exec i s = .next t ∧ t.flight? x.id = none ∧ (t.ctx x.q).lastFault = code
        ∧ ((s.ctx x.q).st = .active → (t.ctx x.q).st = .faulted) ∧ (t.ctx x.q).lateFlag = (s.ctx x.q).lateFlag
        ∧ ((s.ctx x.q).produced < (t.ctx x.q).produced ∨ (s.ctx x.q).owed.length < (t.ctx x.q).owed.length)
      (s.runningOn f 0 0x31 = some x → AllPass (mvUnits s.begin_ x) → AllLocal (mvUnits s.begin_ x) →
        n < (mvUnits s.begin_ x).length → faults (.tileMv f 0 (some n)) 0x0291)
      ∧ (∀ u < 4, s.runningOn f u 0x30 = some x → ((s.face f).arrs.getD u {}).pw = .on →
        (mmSplit x.cmd = false → AllPass (mmUnits s.begin_ x) → AllLocal (mmUnits s.begin_ x) → n < (mmUnits s.begin_ x).length →
          faults (.tileMm f u (some n)) 0x0290)
        ∧ (mmSplit x.cmd = true →
          (∀ h ∈ halfRows ((tileOf s.begin_ x).a.e 1), AllPass (tileUnits s.begin_ x (tileOf s.begin_ x) h.2.1 h.2.2)
            ∧ AllLocal (tileUnits s.begin_ x (tileOf s.begin_ x) h.2.1 h.2.2)) →
          (∃ h ∈ halfRows ((tileOf s.begin_ x).a.e 1), h.1 = n % 2
            ∧ n / 2 < (tileUnits s.begin_ x (tileOf s.begin_ x) h.2.1 h.2.2).length) →
          faults (.tileMm f u (some n)) 0x0290)))

/-- The riffle engine and the tram: TILE_SP, the registration and release of a mask, GATHER, MERGE and SEGSORT complete when
each of their units passes. A registration leaves its mask in its slot; a release waits for the TILE_SPs that use the mask and
then counts its 40 cycles but for those in which the command before it still drains (log entry 14). -/
def Obligations.SparseAndTram : Prop :=
  ∀ (f : Nat) (s : State) (x : Flight), f < Config.nFaces →
    (s.runningOn f 0 0x40 = some x → AllPass (tileSpUnits s.begin_ x) →
      Completes (exec (.tileSp f 0 none) s) s x (tileSpUnits s.begin_ x) (wmOf (tileSpUnits s.begin_ x)))
    ∧ (s.runningOn f 0 0x41 = some x → mrOp x.cmd ≠ 2 → AllPass (registerUnits s.begin_ x) →
      Completes (exec (.maskReg f 0 none) s) s x (registerUnits s.begin_ x) (registerUnits s.begin_ x).length
      ∧ ∃ t, exec (.maskReg f 0 none) s = .next t ∧ t.slot x.face (mrSlot x.cmd) =
          ⟨.registering, mrKw x.cmd, mrNw x.cmd, mrOp x.cmd, s.img x.part (mrRows x.cmd), s.img x.part (mrCols x.cmd)⟩)
    ∧ (s.runningOn f 0 0x41 = some x → mrOp x.cmd = 2 → s.slotUsed x = false →
      exec (.maskReg f 0 none) s = .next (withRun (withFace (withFace s x.face (fun c => { c with
          tail := if s.behind x then Busy.tail ⟨[(0, 40)], 40⟩ c.tail else [] })) x.face (fun c => { c with
          ctr := c.ctr.bump 0x0500 (Busy.cycles ⟨[(0, 40)], 40⟩ (s.face x.face).tail) })) x 1))
    ∧ (s.runningOn f 0 0x41 = some x → mrOp x.cmd = 2 → s.slotUsed x = true → exec (.maskReg f 0 none) s = .next s)
    ∧ (s.runningOn f 0 0x50 = some x → AllPass (gatherUnits s.begin_ x) →
      Completes (exec (.gather f 0 none) s) s x (gatherUnits s.begin_ x) (gatherUnits s.begin_ x).length)
    ∧ (s.runningOn f 0 0x51 = some x → AllPass (mergePlan s.begin_ x).us →
      Completes (exec (.merge f 0 none) s) s x (mergePlan s.begin_ x).us (mergePlan s.begin_ x).us.length)
    ∧ (s.runningOn f 0 0x52 = some x → AllPass (segsortUnits s.begin_ x) →
      Completes (exec (.segsort f 0 none) s) s x (segsortUnits s.begin_ x) (segsortUnits s.begin_ x).length)

/-- The vector and row units: VEC_OP, OPT_STEP and the three row commands complete when each of their units passes. -/
def Obligations.VectorAndRow : Prop :=
  ∀ (f : Nat) (s : State) (x : Flight), f < Config.nFaces →
    (s.runningOn f 0 0x60 = some x → AllPass (vecOpUnits s.begin_ x) →
      Completes (exec (.vecOp f 0 none) s) s x (vecOpUnits s.begin_ x) (vecOpUnits s.begin_ x).length)
    ∧ (s.runningOn f 0 0x64 = some x → AllPass (optParts s.begin_ x).2 →
      Completes (exec (.optStep f 0 none) s) s x (optParts s.begin_ x).2 (optParts s.begin_ x).2.length)
    ∧ (AllPass ((rowsOf s.begin_ x).map (·.u)) →
      (s.runningOn f 0 0x61 = some x → Completes (exec (.rowNorm f 0 none) s) s x ((rowsOf s.begin_ x).map (·.u)) (rowsOf s.begin_ x).length)
      ∧ (s.runningOn f 0 0x62 = some x → Completes (exec (.rowSoftmax f 0 none) s) s x ((rowsOf s.begin_ x).map (·.u)) (rowsOf s.begin_ x).length)
      ∧ (s.runningOn f 0 0x63 = some x → Completes (exec (.rowLoss f 0 none) s) s x ((rowsOf s.begin_ x).map (·.u)) (rowsOf s.begin_ x).length))

/-- DESC_CREATE copies its image into the entry it holds, with watermark 1; DESC_DROP runs once no command that issued before
it holds the descriptor. -/
def Obligations.DescriptorCommands : Prop :=
  ∀ (q : Nat) (s : State) (x : Flight), q < Config.nCtxs →
    (s.runningOf q 0x90 = some x → x.cap = [1] → descIdx x.cmd < (s.struct.plan.bud x.part).descs →
      cb x.cmd 8 6 % 64 = 0 → s.readCode x.part (cb x.cmd 8 6) 64 = 0 →
      descImageCode s.toBlk x.part (s.begin_.bytes (cb x.cmd 8 6) 64) = 0 →
      ∃ t, exec (.descCreate q) s = .next t ∧ HasRun t x.id 1 ∧ SameMemory s t
        ∧ t.desc x.part (descIdx x.cmd) = ⟨.held, readImg (s.begin_.bytes (cb x.cmd 8 6) 64)⟩
        ∧ ∀ p i, 4096 * p + i ≠ 4096 * x.part + descIdx x.cmd → t.desc p i = s.desc p i)
    ∧ (s.runningOf q 0x91 = some x →
      (∀ y ∈ s.flights, y.id < x.id → y.part = x.part → descIdx x.cmd ∉ s.descsOf y.part y.cmd) →
      exec (.descDrop q) s = .next (withRun s x 1))
    ∧ (s.runningOf q 0x91 = some x →
      (∃ y ∈ s.flights, y.id < x.id ∧ y.part = x.part ∧ descIdx x.cmd ∈ s.descsOf y.part y.cmd) →
      exec (.descDrop q) s = .next s)


/-! ## Expert routing -/

/-- The grant deadline test of a layer, for the last shift whose tick D + 1 has come: an accepted grant stands; with none, the
default grant is taken for the shift, marked defaulted and counted; with no default either, the grant stays undecided and the
GRANT_WAITs of that layer and shift fault. -/
def Obligations.GrantDeadline : Prop :=
  ∀ (p layer off k : Nat) (s : State), p < Config.nParts → s.hostEvent p layer 1 = some off → s.lastShiftPast p off 1 = some k →
    s.bell.st.counts = true → s.inGrantArea p layer = true → s.grantTested p layer (u32 k) = false →
    let g := s.grantLog p layer (u32 k)
    (g.stage ≠ .none → ∃ t, exec (.grantDeadlineTest p layer) s = .next t
        ∧ t.grantLog p layer (u32 k) = { g with tested := true } ∧ { t with grants := s.grants } = s)
    ∧ (∀ body, g.stage = .none → s.struct.plan.defGrant p layer = some body →
      ∃ t, exec (.grantDeadlineTest p layer) s = .next t
        ∧ (t.grantLog p layer (u32 k)).stage = .accepted ∧ (t.grantLog p layer (u32 k)).tested = true
        ∧ (t.grantLog p layer (u32 k)).defaulted = true ∧ (t.grantLog p layer (u32 k)).body = defaultBody body (u32 k)
        ∧ t.dev.ctr.ctr 0x0680 = s.dev.ctr.ctr 0x0680 + 1 ∧ SameMemory s t ∧ t.ctxs = s.ctxs ∧ t.flights = s.flights)
    ∧ (g.stage = .none → s.struct.plan.defGrant p layer = none →
      ∃ t, exec (.grantDeadlineTest p layer) s = .next t ∧ (t.grantLog p layer (u32 k)).stage = .refusedByTest
        ∧ ∀ y ∈ s.flights, y.waitsGrant p layer (u32 k) = true →
            t.flight? y.id = none ∧ (t.ctx y.q).lastFault = 0x0515)

/-- The oldest accepted grant of a half (log entry 127) is written to it, in the half of its shift's parity, once no ROUTE of
two shifts before is unretired and HBM is open; only then is it decided, and the GRANT_WAITs for it complete. Nothing else in
memory changes. GRANT_WAIT waits until the grant for its layer and shift is decided; it then completes with watermark 1, with
status 4 where the grant is a default. -/
def Obligations.GrantInstallAndWait : Prop :=
  (∀ (p layer shift : Nat) (s : State) (g : GrantLog), p < Config.nParts →
      (s.grant p layer shift).nextWrite = some g → g.shift = shift →
      (s.inGrantArea p layer = true → s.ms.repairEn = false → s.routing p layer (u32 (shift + 2 ^ 32 - 2)) = false →
        ∃ t, exec (.grantInstall p layer shift) s = .next t ∧ (t.grantLog p layer shift).stage = .decided
          ∧ (t.grant p layer shift).inArea = some shift
          ∧ (∀ i < g.body.length, (t.byte (s.grantHalf p layer shift + i)).toNat = nth g.body i % 256)
          ∧ (∀ a, (a < s.grantHalf p layer shift ∨ s.grantHalf p layer shift + g.body.length ≤ a) → t.byte a = s.byte a)
          ∧ (∀ y ∈ s.flights, y.waitsGrant p layer shift = true → ∃ z ∈ t.flights, z.id = y.id ∧ z.phase = .done ∧ z.wm = 1)
          ∧ t.ctxs = s.ctxs ∧ t.parts = s.parts)
      ∧ (s.routing p layer (u32 (shift + 2 ^ 32 - 2)) = true →
        exec (.grantInstall p layer shift) s = .next s))
  ∧ (∀ (q : Nat) (s : State) (x : Flight), q < Config.nCtxs → s.waiting q 0x72 = some x →
      let g := s.grantLog x.part (cb x.cmd 4 1) x.shift.toNat
      (g.stage = .decided →
        exec (.grantWait q) s = .next { s with flights := s.flights.map (fun y =>
          if y.id = x.id then { y with
            phase := .done, wm := 1, stamp := some s.clk.bell
            status := if g.defaulted then 4 else y.status } else y) })
      ∧ (g.stage ≠ .decided → exec (.grantWait q) s = .next s))

/-- A ROUTE that has not started starts: afterwards it stands as started, or it has ended in a fault. It leaves the tags, the
descriptors and the plan. A ROUTE whose rows and pad rows, which go after the token rows (log entry 36), have all been
accepted is run, with the number of its tokens as its watermark, and its transactions are forgotten; while one is open it
waits. -/
def Obligations.RouteCommand : Prop :=
  (∀ (g : Nat) (s : State) (x : Flight), g < Config.nGals → s.onSkip g 0x70 = some x → x.coll.started = false →
      ∃ t, exec (.route g) s = .next t ∧ (∀ y, t.flight? x.id = some y → y.coll.started = true) ∧ t.tags = s.tags
        ∧ t.descs = s.descs ∧ t.struct = s.struct)
  ∧ (∀ (g : Nat) (s : State) (x : Flight), g < Config.nGals → s.onSkip g 0x70 = some x → s.flight? x.id = some x →
      x.coll.started = true →
      (x.coll.sentBlock = true → x.fault = none → (∀ t ∈ s.txns, t.owner = x.id → t.st = .accepted) →
        exec (.route g) s = .next { withRun s x ((s.img x.part (roIdx x.cmd 2)).e 1) with
          txns := s.txns.filter (fun t => t.owner ≠ x.id) })
      ∧ ((∃ t ∈ s.txns, t.owner = x.id ∧ t.st = .opened) → exec (.route g) s = .next s))

/-- The slots that a token's choices get lie in the grant's ranges, with room left in each; no expert is chosen twice, nor one
that was taken. -/
def Obligations.TokenChoicesFollowTheGrant : Prop :=
  ∀ (cfg : RouteCfg) (entries : List (Nat × Nat)) (rank : List Nat) (tid pos n c nxt : Nat) (taken used : List Nat),
    let r := tokenChoices cfg entries rank tid pos n c nxt taken used
    r.1.length = n
    ∧ (∀ slot e, some (slot, e) ∈ r.1 → (entries.getD e (0, 0)).1 ≤ slot ∧
        slot < (entries.getD e (0, 0)).1 + (entries.getD e (0, 0)).2 ∧ e ∉ taken)
    ∧ ((r.1.filterMap id).map (·.2)).Nodup
    ∧ (∀ e, nth used e ≤ nth r.2 e)

/-- CENSUS runs with watermark 1 when its tokens, and the closed book that its record reports, can be read and its record can
be written: its record goes to the control session, in as many fragments as its size takes, or is counted where there is none.
A host that its port cannot reach gets nothing: each frame is counted as dropped. While an audit of the shift that it reports
is still to finish it waits. When a census is late, and which books it reports, is log entry 37. Past a layer's census
deadline every CENSUS of the layer and shift that has not been run is late; nothing else changes but the record of the events
that have acted (log entry 125). One that has ended past it sets late_flag as it retires (log entry 37). -/
def Obligations.CensusAndDeadline : Prop :=
  (∀ (g : Nat) (s : State) (x : Flight), g < Config.nGals → s.onSkip g 0x71 = some x →
      let cfg := cfgOf x.cap
      let tok := s.img x.part (roIdx x.cmd 0)
      let toks := (List.range (tok.e 1)).map (tokenIn s.begin_ x cfg tok (s.img x.part (roIdx x.cmd 1)))
      let out := s.img x.part (roIdx x.cmd 3)
      let old := u32 (x.shift.toNat + 2)
      let book := s.book x.part cfg.layer old
      let valid := x.shift == s.curShift x.part && book.toReport && book.shift == u32 (x.shift.toNat + 2 ^ 32 - 2)
      let closed := if valid then [12, 20, 24, 28].map (s.begin_.bookGet x.part cfg.layer old) else [0, 0, 0, 0]
      let m := DevMsg.census (censusBytes s.toBlk x cfg (tok.e 1 * cfg.topK) (s.censusLate x.part cfg.layer x.shift) valid closed
        (demandOf cfg toks))
      (∀ k ∈ toks, k.u.bad = 0) →
      (valid = true → s.eccAt (s.bookAddr x.part cfg.layer old + 12) 20 = none) →
      ((s.part x.part).audit.pending = true → x.shift = s.curShift x.part → exec (.census g) s = .next s)
      ∧ (((s.part x.part).audit.pending = false ∨ x.shift ≠ s.curShift x.part) →
        (∀ i < 8 + cfg.experts, (writeRef s.begin_ x out (resolve s.begin_ x out [(i : Int)]) 0 none).bad = 0) →
        (∀ i < 8 + cfg.experts, ∀ o ∈ (writeRef s.begin_ x out (resolve s.begin_ x out [(i : Int)]) 0 none).wr, o.pos = none) →
        ∃ t, exec (.census g) s = .next t ∧ HasRun t x.id 1
          ∧ (∀ c, s.control? = some c → s.session? c.id = some c →
            let l := if c.spdm.isSome then m.pieces 30 16 else m.pieces 0 0
            ((s.hostPort c.port).canReach c.addr = true → t.out = s.out ++ l.zipIdx.map (fun y =>
              Out.message c.to_ c.id c.evSeq false (y.2, l.length) y.1.2))
            ∧ ((s.hostPort c.port).canReach c.addr = false → t.out = s.out
              ∧ (t.hostPort c.port).ctr.ctr 0x08 = (s.hostPort c.port).ctr.ctr 0x08 + BitVec.ofNat 64 l.length))
          ∧ (s.control? = none → t.dev.ctr.ctr 0x0690 = s.dev.ctr.ctr 0x0690 + 1 ∧ t.out = s.out)
          ∧ t.ctxs = s.ctxs ∧ t.tags = s.tags ∧ (s.ms.softSectors = [] → t.parts = s.parts)))
  ∧ ((∀ (p layer : Nat) (s : State), p < Config.nParts → s.bell.st.counts = true →
      let mine := fun (e : BellRec) => e.kind == 4 && e.part == p && (e.arg0 == 0 && e.arg1 == layer)
      ActsAlone s mine →
      exec (.hostDeadline p layer) s = .next { s with dev := firedDev s mine, flights := s.flights.map (fun y =>
        if opOf y.cmd = 0x71 ∧ y.part = p ∧ y.phase ≠ .done ∧ (cfgOf y.cap).layer = layer ∧ s.censusLate p layer y.shift = true then
          { y with late := true } else y) })
    ∧ (∀ (q id : Nat) (s : State) (x : Flight), q < Config.nCtxs → s.flights.find? (fun x => x.id = id ∧ x.q = q) = some x →
      opOf x.cmd = 0x71 → s.mayRetire x = true → s.endFault x = none → s.censusMissed x = true →
      ∃ t, exec (.commandRetire q id) s = .next t ∧ t.flight? id = none ∧ (t.ctx q).lateFlag = true))


/-! ## Collectives -/

/-- A collective command on its unit starts once its ring is live and its phase has come: it takes the size and rank of the
ring it runs on. Before that it waits. At a phase of a ring, a KV_PASS that waited on its unit for the phase starts. Beside
that, the event is recorded as one that has acted (log entry 125). An open collective command that has neither sent nor
received for 16,777,216 ticks faults with code 0x0626; before that it does not. The ticks are those of bell time, or of the
lease clock while bell time does not count. -/
def Obligations.CollectiveCommands : Prop :=
  (∀ (f u : Nat) (s : State) (x : Flight), f < Config.nFaces → x.coll.started = false →
      (∀ c ∈ s.collIn, CollIn.isFor x c = false) → s.flight? x.id = some x →
      let starts := fun (i : Instr) => ∃ t, exec i s = .next t
        ∧ (t.flight? x.id).map (fun y => (y.coll.started, y.coll.n, y.coll.rank)) =
            some (true, (s.viewOf x).n, (s.viewOf x).rank)
        ∧ t.ctxs = s.ctxs ∧ t.tags = s.tags
      (s.runningOn f u 0x80 = some x → s.collMay x = true → (collOwn s.begin_ x (s.viewOf x)).2.bad = 0 → starts (.amaxRound f u))
      ∧ (s.runningOn f u 0x81 = some x → s.collMay x = true → (collOwn s.begin_ x (s.viewOf x)).2.bad = 0 → starts (.collBucket f u))
      ∧ (s.runningOn f u 0x82 = some x → s.collMay x = true → x.coll.ready = false → starts (.kvPass f u))
      ∧ (s.runningOn f u 0x80 = some x → s.collMay x = false → exec (.amaxRound f u) s = .next s)
      ∧ (s.runningOn f u 0x81 = some x → s.collMay x = false → exec (.collBucket f u) s = .next s)
      ∧ (s.runningOn f u 0x82 = some x → s.collMay x = false → exec (.kvPass f u) s = .next s))
  ∧ (∀ (p ring phase u : Nat) (s : State) (x : Flight), p < Config.nParts → phase ≠ 0xFF →
      s.openColl p ring = [x] → x.phase = .running u → collPhase x.cmd = phase → isKv x.cmd = true → s.flight? x.id = some x →
      x.coll.started = false → x.coll.ready = false → (∀ c ∈ s.collIn, CollIn.isFor x c = false) →
      let mine := fun (e : BellRec) => e.kind == 2 && e.part == p && (e.arg0 == ring && e.arg1 == phase)
      ActsAlone s mine → ({ s with dev := firedDev s mine } : State).collMay x = true →
      exec (.collectivePhase p ring phase) s = .next { s with dev := firedDev s mine, flights := s.flights.map (fun y =>
        if y.id = x.id then { y with coll := { y.coll with
          started := true, n := (s.viewOf x).n, rank := (s.viewOf x).rank, lr := (s.viewOf x).lr } } else y) })
  ∧ (∀ (q id : Nat) (s : State) (x : Flight), q < Config.nCtxs → s.flight? id = some x → x.q = q → isColl x.cmd = true →
      (x.coll.lastIo + 16777216 ≤ s.clk.span →
        ∃ t, exec (.collectiveIdleTimeout q id) s = .next t ∧ t.flight? id = none ∧ (t.ctx q).lastFault = 0x0626
          ∧ ((s.ctx q).st = .active → (t.ctx q).st = .faulted) ∧ t.tags = s.tags)
      ∧ (s.clk.span < x.coll.lastIo + 16777216 → exec (.collectiveIdleTimeout q id) s = .next s))

/-- Flits of a collective whose command has not issued here wait, in the order of arrival, each in its buffer, whose credit
does not go back; a resolve flit waits for the boundary. A flit that does not come in order is discarded: it changes nothing.
-/
def Obligations.CollectiveFlitsWait : Prop :=
  ∀ (n p ring seq k : Nat) (l : LinkIn) (fl : CollFlit) (s : State), n < Config.nPorts → (s.port n).st = .up →
    ((s.port n).inOrder l.seq = false → exec (.collectiveFlitReceive n l fl) s = .next s
      ∧ exec (.closeFlitReceive n l p ring seq k) s = .next s ∧ exec (.kvReadyReceive n l p ring seq k) s = .next s
      ∧ exec (.resolveFlitReceive n l p ring k seq) s = .next s)
    ∧ ((s.port n).inOrder l.seq = true → roleTakes (s.port n).role 1 1 = true → (s.ring p ring).dead = 0 → s.collShut p = false →
      let a := arrived s n 1 1 0 l
      (fl.part = p → fl.ring = ring → fl.seq = seq → a.collOf p ring seq = none → a.collPast p ring seq = false →
        exec (.collectiveFlitReceive n l fl) s = .next { a with collIn := a.collIn ++ [.data n fl] })
      ∧ (a.collOf p ring seq = none → a.collPast p ring seq = false →
        exec (.closeFlitReceive n l p ring seq k) s = .next { a with collIn := a.collIn ++ [.close n p ring seq k] }
        ∧ exec (.kvReadyReceive n l p ring seq k) s = .next { a with
            collIn := a.collIn ++ [.ready n (a.port n).peerPos p ring seq k] })
      ∧ ((s.ring p ring).lost.isSome = true → (s.ring p ring).onBypass = false →
        exec (.resolveFlitReceive n l p ring k seq) s = .next { a with collIn := a.collIn ++ [.resolve n p ring k seq] }))

/-- Flits of an open command are taken. One of a command that has issued and not started joins it and waits for its start (log
entry 39); KV data is kept by its offset; a close ends the command whose count has come round; a ready flit from the member
that a KV_PASS sends to lets one that has not started know that its receiver is ready. Their buffers are free again. On the
second pass of a resolve, a member other than the first passes the number on and takes it: the DEV_RESOLVE registers hold the
lost position, the ring and the number, and the ring runs again. -/
def Obligations.CollectiveFlitsTaken : Prop :=
  (∀ (n p ring seq k : Nat) (l : LinkIn) (fl : CollFlit) (s : State) (x : Flight), n < Config.nPorts → (s.port n).st = .up →
      (s.port n).inOrder l.seq = true →
      roleTakes (s.port n).role 1 1 = true → (s.ring p ring).dead = 0 → s.collShut p = false → (s.ring p ring).resolving = false →
      let a := arrived s n 1 1 0 l
      let freed := withPort a n (fun p => { p with owed := updAt p.owed 1 (· + 1) })
      let heard := fun (f : Flight → Flight) => a.flights.map (fun y =>
        if y.id = x.id then f { y with coll := { y.coll with lastIo := s.clk.span } } else y)
      a.collOf p ring seq = some x → a.flight? x.id = some x →
      (fl.part = p → fl.ring = ring → fl.seq = seq → isKv x.cmd = false → x.coll.started = false →
        exec (.collectiveFlitReceive n l fl) s = .next { freed with
          flights := heard id, collIn := a.collIn ++ [.data Config.nPorts fl] })
      ∧ (fl.part = p → fl.ring = ring → fl.seq = seq → isKv x.cmd = true → x.phase ≠ .done → fl.stage = 4 → fl.last = false →
        x.coll.gotLast = false → fl.data.length ≤ 224 →
        ((fl.off + fl.data.length : Nat) : Int) ≤ (reachOf (s.img x.part (collDst x.cmd)).own).2
          - (reachOf (s.img x.part (collDst x.cmd)).own).1 + 1 →
        exec (.collectiveFlitReceive n l fl) s = .next { freed with flights := heard (fun y => { y with coll := { y.coll with
            fin := y.coll.fin ++ [(fl.off, fl.data)], gotLast := y.coll.gotLast } }) })
      ∧ (isKv x.cmd = false → x.phase ≠ .done → x.coll.complete = true → x.coll.n ≤ k + 1 →
        exec (.closeFlitReceive n l p ring seq k) s = .next { freed with flights := heard (fun y => { y with phase := .done }) })
      ∧ (isKv x.cmd = true → kvStep x.cmd = k → x.coll.started = false → x.coll.ready = false →
        (a.port n).peerPos = nth (a.viewOf x).pos ((a.viewOf x).kvTo (kvReverse x.cmd)).2 →
        ∃ t, exec (.kvReadyReceive n l p ring seq k) s = .next t ∧ (t.flight? x.id).map (·.coll.ready) = some true
          ∧ t.mem = s.mem ∧ t.ctxs = s.ctxs ∧ t.tags = s.tags ∧ t.collIn = s.collIn))
  ∧ (∀ (n p ring q l : Nat) (k : LinkIn) (s : State), n < Config.nPorts → (s.port n).st = .up → (s.port n).inOrder k.seq = true →
      roleTakes (s.port n).role 1 1 = true → s.collShut p = false → (s.ring p ring).dead = 0 → (s.ring p ring).lost = some l →
      (s.ring p ring).onBypass = true → (s.ring p ring).resolving = true → (s.begin_.viewNow p ring).rank ≠ 0 →
      s.openColl p ring = [] →
      ∃ t, exec (.resolveFlitReceive n k p ring 2 q) s = .next t ∧ t.dev.resolveLost = l ∧ t.dev.resolvePart = p
        ∧ t.dev.resolveRing = ring ∧ t.dev.resolveQ = q % 2 ^ 32 ∧ (t.ring p ring).resolving = false ∧ t.mem = s.mem
        ∧ t.tags = s.tags)


/-! ## Resilience -/

/-- SECURE: a close opens one write transaction with its point record and has run with watermark 1; a copy that is not to be
made runs with watermark 0; a copy runs at once with one unit for each 4096 bytes, and none of its flits leaves while no
window lets it go (log entry 42). DIGEST writes 16 bytes: the CRC-64 of its image, its shift and its length, continued from
what stands there in a chain. No other byte changes. Where the 16 bytes lie outside the partition's memory it faults with
0x0703. -/
def Obligations.SecureAndDigest : Prop :=
  (∀ (f : Nat) (s : State) (x : Flight), f < Config.nFaces → s.onResil f 0xA0 = some x →
      (seClose x.cmd = true → ∃ t, exec (.secure f) s = .next t ∧ HasRun t x.id 1 ∧ t.dev.nextTxn = s.dev.nextTxn + 1
        ∧ (∃ y ∈ t.txns, y.id = s.dev.nextTxn ∧ y.addr = seDst x.cmd ∧ y.data = pointRecord s.toBlk x) ∧ t.ctxs = s.ctxs)
      ∧ (seClose x.cmd = false → x.cap ≠ [1] → exec (.secure f) s = .next (withRun s x 0))
      ∧ (seClose x.cmd = false → x.cap = [1] →
        (imageUpTo s.begin_ x.part (imageRanges (s.img x.part (seSrc x.cmd)))).2 = none →
        ∃ t, exec (.secure f) s = .next t
          ∧ HasRun t x.id (ceilDiv ((imageRanges (s.img x.part (seSrc x.cmd))).map (·.2)).sum 4096) ∧ t.ctxs = s.ctxs
          ∧ (s.copyMay x.part = false → NoneHeld s → (∀ y ∈ s.txns, y.id < s.dev.nextTxn) → t.out = s.out)))
  ∧ (∀ (f : Nat) (s : State) (x : Flight), f < Config.nFaces → s.onResil f 0xA1 = some x →
      let rs := imageRanges (s.img x.part (seSrc x.cmd))
      let chain := bit (cb x.cmd 6 1) 0
      let a := dgOut x.cmd
      let l := (imageUpTo s.begin_ x.part rs).1
      (s.inPart x.part a 16 = false → ∃ t, exec (.digest f) s = .next t ∧ t.flight? x.id = none ∧ (t.ctx x.q).lastFault = 0x0703
        ∧ t.tags = s.tags)
      ∧ ((imageUpTo s.begin_ x.part rs).2 = none → s.inPart x.part a 16 = true → (chain = true → s.readCode x.part a 16 = 0) →
        s.hbmShut a = false →
        ∃ t, exec (.digest f) s = .next t ∧ HasRun t x.id 1 ∧ EngineFrame s t
          ∧ t.begin_.num a 8 = crc64 l (if chain then s.begin_.num a 8 else 0)
          ∧ t.begin_.num (a + 8) 4 = x.shift.toNat
          ∧ t.begin_.num (a + 12) 4 = ((if chain then s.begin_.num (a + 12) 4 else 0) + l.length) % 2 ^ 32
          ∧ ∀ b, (b < a ∨ a + 16 ≤ b) → t.byte b = s.byte b))

/-- A partition's secure window opens while bell time is in it, with its end, and closes once bell time has reached that end.
Where no flit waits in an egress queue, nothing else changes but the record of the events that have acted (log entry 125). At
each 16,384th bell tick, once (log entry 88), every defined partition's score is the larger of the weighted sum of its levels,
divided by 256 and limited, and fifteen sixteenths of the score before, and its state follows its thresholds; at other ticks
nothing happens. A change of state is counted when that bell tick ends, once (log entry 126). -/
def Obligations.WindowAndCanary : Prop :=
  (∀ (p e : Nat) (s : State), p < Config.nParts →
      let mine := fun (e : BellRec) => e.kind == 6 && e.part == p && true
      (ActsAlone s mine → s.bell.st.counts = true → s.windowEnd p = some e →
        ∃ t, exec (.secureWindowOpen p) s = .next t ∧ (t.part p).secureOpen = true ∧ (t.part p).secureUntil = e
          ∧ t.mem = s.mem ∧ t.ctxs = s.ctxs
          ∧ (NoneHeld s → t = { s with
              dev := firedDev s mine, parts := s.parts.upd {} p (fun y => { y with secureOpen := true, secureUntil := e }) }))
      ∧ (ActsAlone s mine → s.windowEnd p = none → exec (.secureWindowOpen p) s = .next { s with dev := firedDev s mine })
      ∧ ((s.part p).secureOpen = true → (s.part p).secureUntil ≤ s.clk.bell → exec (.secureWindowClose p) s = .next { s with
          parts := s.parts.upd {} p (fun y => { y with secureOpen := false }) })
      ∧ (s.clk.bell < (s.part p).secureUntil → exec (.secureWindowClose p) s = .next s))
  ∧ ((∀ s : State, s.bell.st.counts = true →
      (s.clk.bell % 16384 = 0 → (s.struct.plan.parts.map (·.part)).Nodup →
        (∀ r ∈ s.struct.plan.rings, s.eccAt ((s.part r.part).rosterArea.base + 512 * r.ring) 512 = none) →
        (∀ r ∈ s.struct.plan.parts, ∀ e, (s.part r.part).canary.eval = some e → e.tick ≠ s.clk.bell) → ∃ t, exec .canaryEvaluation s = .next t
        ∧ (∀ r ∈ s.struct.plan.parts,
            let rec_ := s.struct.plan.canary r.part
            let lv := canaryLevels (s.part r.part).canary.acc (s.begin_.peersLost r.part)
            let raw := min 65534 (((rec_.weights.zip lv).map (fun e => e.1 * e.2)).sum / 256)
            let prev := (s.part r.part).canary.score
            let c := (t.part r.part).canary
            c.raw = raw ∧ c.score = max raw (prev - prev / 16) ∧ c.levels = lv ∧ c.state = canaryStateOf rec_ c.score)
        ∧ t.mem = s.mem ∧ t.ctxs = s.ctxs ∧ (NoneHeld s → t.flights = s.flights))
      ∧ (s.clk.bell % 16384 ≠ 0 → exec .canaryEvaluation s = .next s))
    ∧ (∀ (s : State) (p : Nat) (e : CanaryEval), s.pending = [] → s.loses = false → p ∈ s.parts.map (·.1) →
      (∀ y ∈ s.parts, y.2.audit.taking = false ∧ (y.1 ≠ p → ∀ v, y.2.canary.eval = some v → v.told = true)) →
      (s.part p).canary.eval = some e → e.told = false → e.more = false →
      ∃ t, step s = .next t ∧ (t.part p).canary = { (s.part p).canary with eval := some { e with told := true } }
        ∧ t.dev.ctr.ctr 0x0B20 = s.dev.ctr.ctr 0x0B20 + (if (s.part p).canary.state = e.state then 0 else 1)))


/-! ## Issue, retirement, contexts -/

/-- COMMAND_FETCH reads one line of the ring of the context whose turn it is: the commands from its head to the end of the
line, or to its tail, join its buffer, and its head moves past them. In a subroutine whose line has been used up it reads the
next line there. Memory and every other context are as before. Each command carries its place among the device's fetches (log
entry 108). -/
def Obligations.CommandFetch : Prop :=
  ∀ (f p q : Nat) (s : State), f < Config.nFaces → (s.face f).resetting = false →
    s.pickFetch ((s.face f).fillSlots s.hasUnfetched) = some (p, q) →
    let c := s.ctx q
    let n := min (c.tail - c.head) (4 - c.head % 4)
    let a := c.ringBase + 16 * (c.head % 2 ^ c.ringLog2)
    (c.calls = [] → c.head < c.tail → c.skip = 0 → (∀ i < n, s.eccAt (a + 16 * i) 16 = none) →
      ∃ t, exec (.commandFetch f) s = .next t
        ∧ t.ctx q = { c with
            head := c.head + n
            buf := c.buf ++ (List.range n).map (fun i =>
              ⟨s.begin_.num (a + 16 * i) 16, c.head + i, 0, s.dev.nextFetch + i⟩) }
        ∧ (∀ k, k ≠ q → t.ctx k = s.ctx k) ∧ t.mem = s.mem ∧ t.flights = s.flights ∧ t.tags = s.tags)
    ∧ (∀ n', n' = 4 - c.pc / 16 % 4 → c.calls ≠ [] → c.subBuf = [] → s.inHbmPart (s.partOf q) c.pc 16 = true →
        (∀ i < n', s.eccAt (c.pc + 16 * i) 16 = none) →
      ∃ t, exec (.commandFetch f) s = .next t ∧ (t.ctx q).pc = c.pc + 16 * n'
        ∧ (t.ctx q).subBuf = (List.range n').map (fun i => ⟨s.begin_.num (c.pc + 16 * i) 16, c.pc + 16 * i, 0, s.dev.nextFetch + i⟩)
        ∧ (∀ k, k ≠ q → t.ctx k = s.ctx k) ∧ t.mem = s.mem ∧ t.flights = s.flights)

/-- COMMAND_ISSUE is one attempt of a face, in the array cycle of the last attempt or in a new one (log entry 134); the first
in a cycle counts a stall of the face's oldest unissued command (log entry 108). The first context in order whose next command
may issue issues it: it leaves the buffer and stands as an issued command with the context's shift; a TAG_WAIT that its tag's
value satisfies has its stamp; a collective takes its ring's next number. A DESC_DROP or a release faults the commands of
other contexts that name its descriptor or slot and issued in the same array cycle. A command that fails a check faults there,
and its context is faulted. Where no context can issue, or the face has issued four commands in the cycle, nothing else
happens. -/
def Obligations.CommandIssue : Prop :=
  (∀ (f : Nat) (again : Bool) (s : State), f < Config.nFaces →
    (∀ k ∈ s.issueOrder f, HoldsBack s k) ∨ 4 ≤ ((attempt s f again).face f).issued →
    exec (.commandIssue f again) s = .next (attempt s f again))
  ∧ (∀ (f q k : Nat) (s : State) (n : Fetched), f < Config.nFaces → s.issueOrder f = [q] → (s.ctx q).next? = some n →
    n.age < s.dev.nextFetch → s.tryIssue q = .stall (some k) → (s.face f).cycle ≠ s.dev.cycle + 1 →
    ((attempt s f false).face f).ctr = (s.face f).ctr.bump (0x0100 + 8 * k) 1)
  ∧ (∀ (f q : Nat) (again : Bool) (pre rest : List Nat) (s : State) (n : Fetched), f < Config.nFaces →
    s.issueOrder f = pre ++ q :: rest → (∀ k ∈ pre, HoldsBack s k) → (s.ctx q).next? = some n →
    ((attempt s f again).face f).issued < 4 →
    let b := attempt s f again
    let x := b.asFlight q n
    let e := engineIssue b.begin_ x
    let issues := fun (ok : State → Flight → Prop) => ∃ t, exec (.commandIssue f again) s = .next t
      ∧ t.dev.nextFlight = s.dev.nextFlight + 1 ∧ (t.ctx q).bound = none ∧ (t.ctx q).buf = (s.ctx q).pop.buf ∧ t.tags = s.tags
      ∧ (t.face f).issued = (b.face f).issued + 1
      ∧ ∃ y ∈ t.flights, y.id = s.dev.nextFlight ∧ y.q = q ∧ y.cmd = n.cmd ∧ y.shift = (s.ctx q).shift
            ∧ y.seq = (s.ctx q).seqOf n ∧ y.face = (s.ctx q).face ∧ ok t y
    (s.tryIssue q = .issue → e.1 = 0 → isColl n.cmd = false → (∀ y ∈ s.flights, x.besides y = false) →
      issues (fun t y => (∀ k, k ≠ q → t.ctx k = s.ctx k) ∧ (opOf n.cmd ≠ 0x60 → SameMemory s t)
        ∧ ((∀ z ∈ s.flights, z.id ≠ s.dev.nextFlight) → (∀ z ∈ s.flights, z ∈ t.flights) ∧ (opOf n.cmd = 0x11 →
            y.stamp = if waitMet (s.tag (tagOf n.cmd)) (BitVec.ofNat 32 (cb n.cmd 4 4)) = true then some s.clk.bell else none))))
    ∧ (s.tryIssue q = .issue → e.1 = 0 → opOf n.cmd = 0x91 → (∀ z ∈ s.flights, z.id < s.dev.nextFlight) →
      issues (fun t _ => ∀ z ∈ s.flights, x.besides z = true → z.part = x.part → descIdx n.cmd ∈ s.descsOf z.part z.cmd →
        t.flight? z.id = none ∧ (t.ctx z.q).lastFault = 0x0102))
    ∧ (s.tryIssue q = .issue → e.1 = 0 → opOf n.cmd = 0x41 → mrOp n.cmd = 2 → (∀ z ∈ s.flights, z.id < s.dev.nextFlight) →
      issues (fun t _ => ∀ z ∈ s.flights, x.besides z = true → z.face = x.face → spNames z.cmd (mrSlot n.cmd) = true →
        t.flight? z.id = none ∧ (t.ctx z.q).lastFault = 0x02A5))
    ∧ (s.tryIssue q = .issue → e.1 = 0 → isColl n.cmd = true → (∀ l < 256, s.isLost l = false) → s.collIn = [] →
      (s.ring x.part (collRing n.cmd)).onBypass = false → (∀ z ∈ s.flights, z.id ≠ s.dev.nextFlight) →
      issues (fun t y => y.coll.ringSeq = (s.ring x.part (collRing n.cmd)).nextSeq
        ∧ (t.ring x.part (collRing n.cmd)).nextSeq = (s.ring x.part (collRing n.cmd)).nextSeq + 1
        ∧ (∀ k, k ≠ q → t.ctx k = s.ctx k) ∧ SameMemory s t))
    ∧ (∀ code late, s.tryIssue q = .fault code late →
      ∃ t, exec (.commandIssue f again) s = .next t ∧ t.flights = s.flights ∧ (t.ctx q).lastFault = code
        ∧ (t.ctx q).st = .faulted ∧ (t.ctx q).buf = (s.ctx q).pop.buf ∧ (t.ctx q).bound = none ∧ t.tags = s.tags)
    ∧ (s.tryIssue q = .issue → e.1 ≠ 0 → (isColl n.cmd = false ∨ ∀ l < 256, s.isLost l = false) →
      ∃ t, exec (.commandIssue f again) s = .next t ∧ t.flights = s.flights ∧ (t.ctx q).st = .faulted
        ∧ (t.ctx q).lastFault = e.1 ∧ t.tags = s.tags))

/-- ENGINE_DISPATCH gives the oldest command of a class's queue to the free unit that is preferred, or, on an array or a
riffle engine, to one that can take it behind the command that it streams (log entry 45); a stope array that takes a tile is
asked to come up, and the tile's wait for it is counted (log entry 14). With nothing queued or no such unit nothing happens.
-/
def Obligations.EngineDispatch : Prop :=
  ∀ (f : Nat) (c : Cls) (s : State), f < Config.nFaces →
    let next := s.flights.find? (fun x => x.cls == c && x.phase == .queued && sharesEngine c f x.face)
    let put := fun (x : Flight) (u : Nat) => { s with flights := s.flights.map (fun y =>
      if y.id = x.id then { y with phase := .running u, unit := u } else y) }
    (∀ x u, next = some x → s.pickUnit f c = some u → c ≠ .stope → exec (.engineDispatch f c) s = .next (put x u))
    ∧ (∀ x u, next = some x → s.pickUnit f c = some u → c = .stope →
        exec (.engineDispatch f c) s = .next (withArr (withFace (put x u) f (fun y =>
          { y with ctr := y.ctr.bump 0x0330 (4 * (8 - ((s.face f).arrs.getD u {}).groups)) })) f u Arr.wake))
    ∧ (next = none ∨ s.pickUnit f c = none → exec (.engineDispatch f c) s = .next s)
    ∧ (∀ u, s.pickUnit f c = some u → u < unitCount c ∧ (s.unitFree f c u = true ∨ s.unitNext f c u = true))

/-- COMMAND_RETIRE: a command that is done and settled, and met no fault, is no longer issued: with sig its tag is signalled
by 1, otherwise no tag changes; with rec, or a status to report, it has written its records. One that met a fault ends in it.
A record that finds no room in the tally ring waits for it (log entry 106). -/
def Obligations.CommandRetire : Prop :=
  ∀ (q id : Nat) (s : State) (x : Flight), q < Config.nCtxs → s.flights.find? (fun x => x.id = id ∧ x.q = q) = some x →
    let recs := fun (t : State) (n : Nat) =>
      (t.ctx q).produced + (t.ctx q).owed.length = (s.ctx q).produced + (s.ctx q).owed.length + n
      ∧ (n ≤ (s.ctx q).tallyFree → (t.ctx q).produced = (s.ctx q).produced + n ∧ (t.ctx q).owed = (s.ctx q).owed)
    (s.mayRetire x = false → exec (.commandRetire q id) s = .next s)
    ∧ (s.mayRetire x = true → s.endFault x = none →
      ∃ t, exec (.commandRetire q id) s = .next t ∧ t.flight? id = none
        ∧ (fSig x.cmd = true → t.tag (tagOf x.cmd) = s.tag (tagOf x.cmd) + 1
            ∧ ∀ k, k ≠ tagOf x.cmd → t.tag k = s.tag k)
        ∧ (fSig x.cmd = false → t.tags = s.tags)
        ∧ recs t (if fRec x.cmd = false ∧ x.statusOf = 0 then 0 else if x.halves = [] then 1 else x.halves.length)
        ∧ (t.ctx q).shift = (s.ctx q).shift ∧ (t.ctx q).tail = (s.ctx q).tail)
    ∧ (∀ code wm, s.mayRetire x = true → s.endFault x = some (code, wm) → isColl x.cmd = false →
      ∃ t, exec (.commandRetire q id) s = .next t ∧ t.flight? id = none ∧ (t.ctx q).lastFault = code
        ∧ ((s.ctx q).st = .active → (t.ctx q).st = .faulted) ∧ recs t (faultRecs s.toBlk x code wm).length
        ∧ t.tags = s.tags)

/-- The deadline test of a command that still holds its comparator, once bell time is past its deadline: a stamp at or before
the deadline frees the comparator; otherwise the context's late flag is set, and the command is marked late, or, where it is
to be aborted and has not begun, faults. Before that nothing happens. -/
def Obligations.DeadlineTest : Prop :=
  ∀ (q id units : Nat) (s : State) (x : Flight), q < Config.nCtxs →
    s.flights.find? (fun x => x.id = id ∧ x.q = q) = some x → x.comp = true → s.bell.st.counts = true →
    let d := x.deadline.getD 0
    (s.clk.bell ≤ d → exec (.deadlineTest q id units) s = .next s)
    ∧ (∀ u, d < s.clk.bell → x.stamp = some u → u ≤ d → exec (.deadlineTest q id units) s = .next { s with
        flights := s.flights.map (fun y => if y.id = id then { y with comp := false } else y) })
    ∧ (d < s.clk.bell → (∀ u, x.stamp = some u → d < u) → x.abort = false →
      exec (.deadlineTest q id units) s = .next { withCtx s q (fun c => { c with lateFlag := true }) with
        flights := s.flights.map (fun y => if y.id = id then { y with comp := false, late := true } else y) })
    ∧ (d < s.clk.bell → (∀ u, x.stamp = some u → d < u) → x.abort = true → x.phase = .queued ∨ x.phase = .wait →
      isColl x.cmd = false →
      ∃ t, exec (.deadlineTest q id units) s = .next t ∧ t.flight? id = none ∧ (t.ctx q).lateFlag = true
        ∧ (t.ctx q).lastFault = 0x0210 ∧ t.tags = s.tags)

/-- A record that waits for tally room is written once there is room and HBM is open: 32 bytes at the next place of the tally
ring, with its phase bit. With no writeback area nothing else in memory changes. A doorbell moves a context's tail and asks
for a fetch; one that would overrun the ring moves nothing and faults the context with 0x0205. DEV_TALLY_ACK returns tally
space up to what has been produced. -/
def Obligations.TallyRing : Prop :=
  (∀ (q : Nat) (s : State) (r : Rec) (l : List Rec), q < Config.nCtxs → (s.ctx q).owed = r :: l →
      let c := s.ctx q
      let a := c.tallyBase + 32 * (c.produced % 2 ^ c.tallyLog2)
      (s.reserved q < c.tallyFree → c.wb = 0 → s.hbmShut c.tallyBase = false →
        ∃ t, exec (.overrunTallyRecord q) s = .next t ∧ (t.ctx q).owed = l ∧ (t.ctx q).produced = c.produced + 1
          ∧ (∀ i < 32, (t.byte (a + i)).toNat = nth (recBytes c.tallyLog2 c.produced r) i)
          ∧ (∀ b, (b < a ∨ a + 32 ≤ b) → t.byte b = s.byte b) ∧ t.flights = s.flights ∧ t.tags = s.tags)
      ∧ (c.tallyFree ≤ s.reserved q ∨ s.hbmShut c.tallyBase = true → exec (.overrunTallyRecord q) s = .next s))
  ∧ (∀ (q v : Nat) (s : State), q < Config.nCtxs →
      let c := s.ctx q
      let tail := unwrap32 c.tail (v % 2 ^ 32)
      let got := unwrap32 c.consumed (v % 2 ^ 32)
      (c.st ≠ .idle → tail < c.tail + 2 ^ 31 → tail - c.head ≤ 2 ^ c.ringLog2 →
        ∃ t, exec (.devDoorbell q v) s = .next t ∧ t.ctx q = { c with tail := tail }
          ∧ (q ∈ (t.face c.face).slots ∨ q ∈ (t.face c.face).waiting) ∧ t.mem = s.mem ∧ t.flights = s.flights
          ∧ ∀ k, k ≠ q → t.ctx k = s.ctx k)
      ∧ (c.st ≠ .idle → tail < c.tail + 2 ^ 31 → 2 ^ c.ringLog2 < tail - c.head →
        ∃ t, exec (.devDoorbell q v) s = .next t ∧ (t.ctx q).tail = c.tail ∧ (t.ctx q).lastFault = 0x0205
          ∧ (c.st = .active → (t.ctx q).st = .faulted))
      ∧ (c.st = .idle → exec (.devDoorbell q v) s = .next s)
      ∧ (got ≤ c.produced → exec (.devTallyAck q v) s = .next (withCtx s q (fun c => { c with consumed := got })))
      ∧ (c.produced < got → exec (.devTallyAck q v) s = .next s))

/-- ARM: an idle context whose table entry passes the checks becomes active with the entry's values; any other keeps its state
and reports the code of the first check that fails: 0x0220, 0x0224, the error in its entry (log entry 90), 0x0223, 0x0221 or
0x0222. Under repair access nothing happens (log entry 103). Its flags, its last fault and its secure set stand (log entry
43). The other transitions of a context: STOP from active to stopping, the drain from stopping to stopped, RESUME from stopped
or faulted to active, from the earliest ring command that faulted (log entry 29) or from the one after it, and DISARM to idle.
In any other state each leaves everything as it was. -/
def Obligations.ContextStates : Prop :=
  (∀ (q : Nat) (s : State), q < Config.nCtxs →
      (s.struct.plan.partOfCtx q = none → exec (.arm q) s = .next (withCtx s q (fun c => { c with lastFault := 0x0220 })))
      ∧ (∀ p, s.struct.plan.partOfCtx q = some p →
        let a := (s.part p).qctxTable + 64 * (q - s.struct.plan.ctxBase p)
        let l := s.begin_.ctxEntry p q
        let own := leAt l 9 1 < Config.nFaces ∧ s.struct.plan.partOfFace (leAt l 9 1) = some p
        let refused := fun (code : Nat) => ∃ t, exec (.arm q) s = .next t ∧ t.ctx q = { s.ctx q with lastFault := code }
          ∧ (∀ k, k ≠ q → t.ctx k = s.ctx k) ∧ t.mem = s.mem ∧ t.flights = s.flights ∧ t.tags = s.tags
        ((s.ctx q).st ≠ .idle → exec (.arm q) s = .next (withCtx s q (fun c => { c with lastFault := 0x0224 })))
        ∧ ((s.ctx q).st = .idle → s.hbmShut a = true → exec (.arm q) s = .next s)
        ∧ ((s.ctx q).st = .idle → s.hbmShut a = false →
          (∀ b c, s.eccAt a 64 = some (b, c) → c ≠ 0 → refused c)
          ∧ (s.eccAt a 64 = none → entryOk l = false → refused 0x0223)
          ∧ (s.eccAt a 64 = none → entryOk l = true → ¬ own → refused 0x0221)
          ∧ (s.eccAt a 64 = none → entryOk l = true → own → s.entryPlaced p l = false → refused 0x0222)
          ∧ (s.eccAt a 64 = none → entryOk l = true → own → s.entryPlaced p l = true →
            ∃ t, exec (.arm q) s = .next t ∧ (t.ctx q).st = .active ∧ (t.ctx q).face = leAt l 9 1 ∧ (t.ctx q).prio = leAt l 10 1
              ∧ (t.ctx q).ringBase = leAt l 0 8 ∧ (t.ctx q).ringLog2 = leAt l 8 1 ∧ (t.ctx q).tallyBase = leAt l 16 8
              ∧ (t.ctx q).tallyLog2 = leAt l 24 1 ∧ (t.ctx q).wb = leAt l 32 8
              ∧ (t.ctx q).tail = 0 ∧ (t.ctx q).head = 0 ∧ (t.ctx q).produced = 0 ∧ (t.ctx q).consumed = 0 ∧ (t.ctx q).buf = []
              ∧ (t.ctx q).shift = BitVec.ofNat 32 (leAt l 12 4) ∧ t.flights = s.flights ∧ t.tags = s.tags
              ∧ (t.ctx q).lateFlag = (s.ctx q).lateFlag ∧ (t.ctx q).lastFault = (s.ctx q).lastFault
              ∧ (t.ctx q).secSet = (s.ctx q).secSet ∧ ∀ k, k ≠ q → t.ctx k = s.ctx k))))
  ∧ (∀ (q : Nat) (s : State), q < Config.nCtxs →
      let c := s.ctx q
      let goes := fun (i : Instr) (ok : Ctx → Prop) => ∃ t, exec i s = .next t ∧ ok (t.ctx q) ∧ (∀ k, k ≠ q → t.ctx k = s.ctx k)
        ∧ t.flights = s.flights ∧ t.tags = s.tags ∧ (c.wb = 0 → t.mem = s.mem)
      (c.st = .active → goes (.stop q) (fun d => d = { c with st := .stopping }))
      ∧ (c.st ≠ .active → exec (.stop q) s = .next s)
      ∧ (c.st = .stopping → s.flightsOf q = [] → goes (.stoppingDrained q) (fun d => d = { c with st := .stopped }))
      ∧ (c.st ≠ .stopping → exec (.stoppingDrained q) s = .next s)
      ∧ (c.halted = true → ∀ n, c.faultSeq = some n →
          goes (.resumeRetry q) (fun d => d.st = .active ∧ d.head = n ∧ d.buf = [] ∧ d.calls = [] ∧ d.faultSeq = none)
          ∧ goes (.resumeSkip q) (fun d => d.st = .active ∧ d.head = n + 1 ∧ d.buf = [] ∧ d.calls = [] ∧ d.faultSeq = none))
      ∧ (c.halted = true → c.faultSeq = none → goes (.resumeRetry q) (fun d => d = { c with st := .active })
          ∧ goes (.resumeSkip q) (fun d => d = { c with st := .active }))
      ∧ (c.halted = false → exec (.resumeRetry q) s = .next s ∧ exec (.resumeSkip q) s = .next s ∧ exec (.disarm q) s = .next s)
      ∧ (c.halted = true → goes (.disarm q) (fun d => d = { c with st := .idle, owed := [] })))


/-! ## Resets and shift marks -/

/-- A face or gallery reset, while none is busy: the unit's store reads 0, its registers are at their reset values, its
commands are abandoned, its contexts go to IDLE, which writes their writebacks, and the reset is busy; no other byte of memory
and no tag changes, where no flit waits to leave (a token row that has not left is counted lost in its book: log entry 120).
While a reset is busy neither does anything. A partition reset of a defined partition: its tags read 0, its contexts and
descriptors are as after reset, and none of its commands and transactions is left; its faces' and galleries' stores read 0,
its grant area and the writebacks lying in HBM and no flit waiting to leave. A reset of a partition that the plan does not
define does nothing, which is the model's reading (log entry 61). The completion of a reset ends it and lets its units go. -/
def Obligations.UnitResets : Prop :=
  (∀ (f g : Nat) (s : State), f < Config.nFaces → g < Config.nGals →
      (s.dev.reset = none → ∃ t, exec (.faceReset f) s = .next t ∧ t.dev.reset = some ⟨1, f⟩
        ∧ t.face f = { resetting := true } ∧ (∀ y ∈ t.flights, y.face ≠ f)
        ∧ (∀ q, (s.ctx q).face = f → (t.ctx q).st = .idle)
        ∧ (∀ a, Config.faceBase + Config.faceSize * f ≤ a → a < Config.faceBase + Config.faceSize * (f + 1) → t.byte a = 0)
        ∧ (NoneHeld s → ∀ a, (a < Config.faceBase + Config.faceSize * f ∨ Config.faceBase + Config.faceSize * (f + 1) ≤ a) →
            (∀ q, Idles s f q → ¬ InWriteback s q a) → t.byte a = s.byte a)
        ∧ (NoneHeld s → s.ms.repairEn = false → ∀ q, Idles s f q → (s.ctx q).wb ≠ 0 → WritebackInHbm s q →
            (∀ r, r ≠ q → Idles s f r → ∀ a, InWriteback s q a → ¬ InWriteback s r a) →
            ∀ i < 16, (t.byte ((s.ctx q).wb + i)).toNat = nth (idleWriteback s q) i)
        ∧ t.tags = s.tags ∧ t.bell = s.bell ∧ t.struct = s.struct)
      ∧ (s.dev.reset = none → ∃ t, exec (.galleryReset g) s = .next t ∧ t.dev.reset = some ⟨2, g⟩
        ∧ t.gal g = { resetting := true } ∧ (NoneHeld s → ∀ i < 12, t.face (12 * g + i) = { resetting := true })
        ∧ (∀ y ∈ t.flights, y.face / 12 ≠ g)
        ∧ (∀ a, Config.galBase + Config.galSize * g ≤ a → a < Config.galBase + Config.galSize * (g + 1) → t.byte a = 0)
        ∧ (NoneHeld s → (∀ q, (s.ctx q).face / 12 = g → WritebackInHbm s q) → ∀ a, Config.faceBase + Config.faceSize * (12 * g) ≤ a →
            a < Config.faceBase + Config.faceSize * (12 * g + 12) → t.byte a = 0)
        ∧ (NoneHeld s → ∀ a < Config.hbmEnd, (∀ q, (s.ctx q).face / 12 = g → Idles s (s.ctx q).face q → ¬ InWriteback s q a) →
            t.byte a = s.byte a) ∧ t.tags = s.tags)
      ∧ (s.dev.reset ≠ none → exec (.faceReset f) s = .next s ∧ exec (.galleryReset g) s = .next s))
  ∧ (∀ (p : Nat) (s : State), p < Config.nParts →
      (s.struct.plan.defines p = true → s.dev.reset = none → ∃ t, exec (.partitionReset p) s = .next t
        ∧ t.dev.reset = some ⟨3, p⟩ ∧ (t.part p).resetting = true
        ∧ (∀ k, s.struct.plan.partOfTag k = some p → t.tag k = 0)
        ∧ (∀ q, s.struct.plan.partOfCtx q = some p → t.ctx q = {})
        ∧ (∀ i < 4096, t.desc p i = {}) ∧ (∀ y ∈ t.flights, y.part ≠ p)
        ∧ (∀ y ∈ t.txns, y.src ≠ p) ∧ (t.part p).canary = {} ∧ (t.part p).secure = {} ∧ (t.part p).tagIssued = 0 ∧ (t.part p).tagAcked = 0
        ∧ t.struct = s.struct ∧ t.bell = s.bell
        ∧ (NoneHeld s → (∀ q, WritebackInHbm s q) → ((s.part p).grantArea.enable = true →
              (s.part p).grantArea.base + 81920 * ((s.part p).grantArea.layersM1 + 1) ≤ Config.hbmEnd) →
            (∀ g < Config.nGals, s.struct.plan.partOfGal g = some p → ∀ a, Config.galBase + Config.galSize * g ≤ a →
                a < Config.galBase + Config.galSize * (g + 1) → t.byte a = 0)
            ∧ (∀ f < Config.nFaces, s.struct.plan.partOfFace f = some p → ∀ a, Config.faceBase + Config.faceSize * f ≤ a →
                a < Config.faceBase + Config.faceSize * (f + 1) → t.byte a = 0)))
      ∧ (s.struct.plan.defines p = false → exec (.partitionReset p) s = .next s)
      ∧ (s.dev.reset ≠ none → exec (.partitionReset p) s = .next s))
  ∧ (∀ s : State,
      (s.dev.reset = none → exec .resetComplete s = .next s)
      ∧ (∀ f, s.dev.reset = some ⟨1, f⟩ → exec .resetComplete s = .next { s with
          dev := { s.dev with reset := none }, faces := s.faces.upd {} f (fun x => { x with resetting := false }) })
      ∧ (∀ g, s.dev.reset = some ⟨2, g⟩ → ∃ t, exec .resetComplete s = .next t ∧ t.dev.reset = none
          ∧ (t.gal g).resetting = false ∧ (∀ i < 12, (t.face (12 * g + i)).resetting = false) ∧ t.mem = s.mem)
      ∧ (∀ p, s.dev.reset = some ⟨3, p⟩ → ∃ t, exec .resetComplete s = .next t ∧ t.dev.reset = none
          ∧ (t.part p).resetting = false ∧ t.mem = s.mem ∧ t.tags = s.tags))

/-- A warm or cold reset of a part that serves its host: the boot starts at ROM, no plan is in force, every face and gallery
store reads 0, HBM is kept by a warm reset, and flash is kept but for a trial that ran and what was being written: each of its
records is then the old one or the new. While a face, gallery or partition reset is busy it is ignored. That HBM reads 0 after
a cold reset, which operations a reset cuts short and what of a slot they leave are the model's choice, and so is what it does
in the other boot states (log entries 2, 65, 67, 68 and 148). -/
def Obligations.DeviceReset : Prop :=
  ∀ s : State,
    let stores := fun (t : State) =>
      (∀ a, Config.faceBase ≤ a → a < Config.faceBase + 192 * Config.faceSize → t.byte a = 0)
      ∧ (∀ a, Config.galBase ≤ a → a < Config.galBase + 16 * Config.galSize → t.byte a = 0)
    let flash := fun (t : State) => t.flash = (flashCut s).rejectTrials true
      ∧ (s.boot.flashJob = none → s.ms.saving = none → t.flash = s.flash.rejectTrials true)
      ∧ (∀ j, s.boot.flashJob = some j → OldOrNew t.flash.planSel s.flash.planSel (s.flash.doJob j).planSel
        ∧ OldOrNew t.flash.anchors s.flash.anchors (s.flash.doJob j).anchors
        ∧ OldOrNew t.flash.hfRollback s.flash.hfRollback (s.flash.doJob j).hfRollback
        ∧ OldOrNew t.flash.fabRollback s.flash.fabRollback (s.flash.doJob j).fabRollback)
      ∧ (∀ r, s.ms.saving = some r → OldOrNew t.flash.health s.flash.health { s.flash.health with remove := r })
    (s.dev.reset = none → s.boot.st.serves = true →
      (∃ t, exec .warmReset s = .next t ∧ t.boot.st = .rom ∧ t.boot.cold = false ∧ t.struct = {} ∧ t.tags = [] ∧ t.ctxs = []
        ∧ t.descs = [] ∧ t.flights = [] ∧ t.faces = [] ∧ t.host.sessions = [] ∧ t.bell = {} ∧ t.clk.lease = 0
        ∧ flash t ∧ stores t ∧ (∀ a < Config.hbmEnd, t.byte a = s.byte a))
      ∧ (∃ t, exec .coldReset s = .next t ∧ t.boot.st = .rom ∧ t.boot.cold = true ∧ t.struct = {} ∧ t.tags = [] ∧ t.ctxs = []
        ∧ t.flights = [] ∧ t.host.sessions = [] ∧ flash t ∧ stores t ∧ (∀ a < Config.hbmEnd, t.byte a = 0)))
    ∧ (s.dev.reset ≠ none → exec .warmReset s = .next s ∧ exec .coldReset s = .next s)

/-- The mark of a shift, at its tick and once: the shift is open, its audit begins, and the drop mark it reuses is clear,
where no event before it in the tick has still to act (events act in order: log entry 125). At any other tick nothing happens.
The snapshot of its books, with the failing code of the checks, is taken as the mark tick ends, which is the step after the
tick's last command (log entry 8). The audit of a mark finishes, once its snapshot is taken: balanced books leave nothing; a
failure sets the partition's bit of DEV_AUDIT_FAILED, and the first one its detail (log entry 34). The resets that it saw are
forgotten (log entry 135). The events of one tick that have still to act stand in the order of their kinds, then partitions,
then records. The row of one lets those before it act first, and one that has acted does not act again. -/
def Obligations.ShiftMarkAndAudit : Prop :=
  (∀ (p k : Nat) (s : State), p < Config.nParts → s.bell.st.counts = true → s.lastShiftPast p 0 0 = some k →
      let mine := fun (e : BellRec) => e.kind == 1 && e.part == p
      (ActsAlone s mine → s.isMark p k = true → ((s.part p).marked = false ∨ k ≠ (s.part p).markShift) →
        ∃ t, exec (.shiftMark p) s = .next t ∧ (t.part p).marked = true ∧ (t.part p).markShift = k
          ∧ (t.part p).audit = ⟨true, true, k, 0⟩
          ∧ bit (t.part p).dropped (u32 k % 4) = false ∧ t.ctxs = s.ctxs ∧ t.flights = s.flights ∧ t.tags = s.tags)
      ∧ (s.isMark p k = false → exec (.shiftMark p) s = .next s)
      ∧ (ActsAlone s mine → (s.part p).marked = true → (s.part p).markShift = k →
        exec (.shiftMark p) s = .next { s with dev := firedDev s mine })
      ∧ (∀ a, s.pending = [] → s.loses = false → ¬ TripEnds s → (s.part p).audit = a → a.taking = true →
        (∀ e ∈ s.parts, (∀ v, e.2.canary.eval = some v → v.told = true) ∧ (e.1 ≠ p → e.2.audit.taking = false)) →
        ∃ t, step s = .next t ∧ (t.part p).audit = { a with
          taking := false, code := s.auditCode p (BitVec.ofNat 32 a.shift) (s.begin_.auditBooks p (u32 a.shift)) }))
  ∧ (∀ (p : Nat) (s : State), p < Config.nParts →
      let a := (s.part p).audit
      (a.pending = false ∨ a.taking = true → exec (.auditComplete p) s = .next s)
      ∧ (a.pending = true → a.taking = false → a.code = 0 → exec (.auditComplete p) s = .next { s with
          parts := s.parts.upd {} p (fun y => { y with audit := { y.audit with pending := false }, resetSeen := false }) })
      ∧ (a.pending = true → a.taking = false → a.code ≠ 0 → ∃ t, exec (.auditComplete p) s = .next t ∧ bit t.dev.auditFailed p = true
          ∧ (s.dev.auditFailed = 0 → t.dev.auditCode = a.code ∧ t.dev.auditPart = p ∧ t.dev.auditShift = u32 a.shift
            ∧ t.dev.auditReset = (s.part p).resetSeen)
          ∧ (s.dev.auditFailed ≠ 0 → t.dev.auditDetail = s.dev.auditDetail)
          ∧ (t.part p).audit.pending = false ∧ (t.part p).resetSeen = false ∧ t.mem = s.mem ∧ t.tags = s.tags))
  ∧ ((∀ s : State, s.eventsLeft.Pairwise fun x y => x.1.kind < y.1.kind ∨ (x.1.kind = y.1.kind ∧
        (x.1.part < y.1.part ∨ (x.1.part = y.1.part ∧ x.2 < y.2))))
    ∧ (∀ (s : State) (x : BellRec × Nat) (l r : List (BellRec × Nat)), s.eventsLeft = l ++ x :: r → x.1.part < Config.nParts →
        (∀ y ∈ l, y.1.kind = x.1.kind → y.1.part ≠ x.1.part) →
        let inOrder := run (fun w => (w.each l Work.fire).fire x) s
        (x.1.kind = 1 → exec (.shiftMark x.1.part) s = inOrder)
        ∧ (x.1.kind = 2 → exec (.collectivePhase x.1.part x.1.arg0 x.1.arg1) s = inOrder)
        ∧ (x.1.kind = 3 → x.1.arg0 < Config.nPorts → exec (.pointsSwitch x.1.part x.1.arg0) s = inOrder)
        ∧ (x.1.kind = 4 → x.1.arg0 = 0 → exec (.hostDeadline x.1.part x.1.arg1) s = inOrder)
        ∧ (x.1.kind = 5 → exec (.reconfigBoundary x.1.part) s = inOrder)
        ∧ (x.1.kind = 6 → exec (.secureWindowOpen x.1.part) s = inOrder))
    ∧ (∀ (s : State) (x : BellRec × Nat) (l r : List (BellRec × Nat)), s.eventsLeft = l ++ x :: r → x.1.kind = 7 →
        (∀ y ∈ l, y.1.kind ≠ 7) → exec .heartbeatSend s = run (fun w => (w.each l Work.fire).fire x) s)
    ∧ (∀ (s : State) (p : Nat), p < Config.nParts → (∃ x ∈ s.eventsNow, x.1.kind = 1 ∧ x.1.part = p) →
        (∀ x ∈ s.eventsLeft, ¬ (x.1.kind = 1 ∧ x.1.part = p)) → exec (.shiftMark p) s = .next s))


/-! ## Plans, areas, registers -/

/-- Quiescing: a bit set in DEV_PART_QUIESCE takes a running partition to quiescing, and a quiescing one is quiesced once none
of its commands is left and its outbound traffic has drained; a bit cleared takes a quiescing or quiesced one back to running.
In LIMITED, and while repair access is enabled, no bit is cleared. -/
def Obligations.Quiesce : Prop :=
  ∀ (p v : Nat) (s : State), p < Config.nParts →
    (∃ t, exec (.devPartQuiesce v) s = .next t
      ∧ ((s.part p).st = .running → bit v p = true → bit s.dev.quiesce p = false → (t.part p).st = .quiescing)
      ∧ ((s.part p).st = .quiescing ∨ (s.part p).st = .quiesced → bit v p = false → bit s.dev.quiesce p = true → s.ms.repairEn = false →
          s.boot.st ≠ .limited → (t.part p).st = .running)
      ∧ (bit v p = false → s.ms.repairEn = true ∨ s.boot.st = .limited → t.part p = s.part p
          ∧ bit t.dev.quiesce p = bit s.dev.quiesce p)
      ∧ ((s.part p).st = .undefined → t.part p = s.part p)
      ∧ t.mem = s.mem ∧ t.flights = s.flights ∧ t.ctxs = s.ctxs ∧ t.tags = s.tags)
    ∧ ((s.part p).st = .quiescing → (∀ y ∈ s.flights, y.part ≠ p) → s.outbound p = false →
      exec (.quiesceComplete p) s = .next { s with parts := s.parts.upd {} p (fun y => { y with st := .quiesced }) })
    ∧ ((s.part p).st ≠ .quiescing ∨ (∃ y ∈ s.flights, y.part = p) ∨ s.outbound p = true → exec (.quiesceComplete p) s = .next s)

/-- COMMIT of a complete staged image starts its validation; of an incomplete one, or while one is validated or applied, it is
rejected with 0x0818, and in LIMITED with 0x0921, and leaves the plan; DISCARD empties staging unless an image is being
validated or applied. Validation ends: an image that fails a check after the check words is rejected with that check's code,
and the plan in force stays; one that fails a check word is rejected, and the default plan is to be applied; one that passes
is to be applied, unless it would affect a partition that is not quiesced: then it is rejected with 0x0819. The load state
after a rejection is the model's reading (log entry 62). The end of applying puts the new plan in force with its source,
empties staging and leaves the load state idle; no byte of HBM changes but the writebacks of the contexts that it takes to
IDLE, where no grant area is enabled. The load state after it, and the default plan that comes by it, are the model's reading
(log entries 62 and 64). -/
def Obligations.StructureLoad : Prop :=
  (∀ s : State,
      let st := s.struct.staging
      (s.boot.st ≠ .limited → 64 ≤ st.length → st.length = imgTotal st → s.struct.loadState < 2 →
        exec .commit s = .next { s with struct := { s.struct with loadState := 2, nextSource := 2 } })
      ∧ (s.boot.st = .limited → ∃ t, exec .commit s = .next t ∧ t.struct.rejected = true ∧ t.struct.faultCode = 0x0921
          ∧ t.struct.plan = s.struct.plan ∧ t.struct.loadState = s.struct.loadState ∧ t.parts = s.parts ∧ t.mem = s.mem)
      ∧ (s.boot.st ≠ .limited →
          st.length < 64 ∨ st.length ≠ imgTotal st ∨ s.struct.loadState = 2 ∨ s.struct.loadState = 3 →
          ∃ t, exec .commit s = .next t ∧ t.struct.rejected = true ∧ t.struct.faultCode = 0x0818
          ∧ t.struct.plan = s.struct.plan ∧ t.struct.loadState = s.struct.loadState ∧ t.parts = s.parts ∧ t.mem = s.mem)
      ∧ (s.struct.loadState < 2 →
        exec .discard s = .next { s with struct := { s.struct with staging := [], loadState := 0 } })
      ∧ (s.struct.loadState = 2 ∨ s.struct.loadState = 3 → exec .discard s = .next s))
  ∧ (∀ s : State,
      (s.struct.loadState ≠ 2 → exec .validationComplete s = .next s)
      ∧ (∀ f, s.struct.loadState = 2 → vCheckWord s.struct.staging = none →
          vRest s.struct.staging s.usable s.pwr.feed = some f →
          ∃ t, exec .validationComplete s = .next t ∧ t.struct.plan = s.struct.plan ∧ t.struct.loadState = 0
            ∧ t.struct.rejected = true ∧ t.struct.faultCode = f.code ∧ t.parts = s.parts ∧ t.mem = s.mem)
      ∧ (∀ f, s.struct.loadState = 2 → vCheckWord s.struct.staging = some f →
          ∃ t, exec .validationComplete s = .next t ∧ t.struct.plan = s.struct.plan ∧ t.struct.loadState = 3
            ∧ t.struct.next = some romPlan ∧ t.struct.nextSource = 0 ∧ t.struct.defaulted = true
            ∧ t.struct.rejected = true ∧ t.struct.faultCode = f.code)
      ∧ (s.struct.loadState = 2 → vCheckWord s.struct.staging = none →
          vRest s.struct.staging s.usable s.pwr.feed = none → s.ms.repairEn = false →
          (∀ i < Config.nParts, affects s.struct.plan (readPlan s.struct.staging) s.usable i = true →
            s.struct.plan.defines i = true → (s.part i).st = .quiesced) →
          ∃ t, exec .validationComplete s = .next t ∧ t.struct.plan = s.struct.plan ∧ t.struct.loadState = 3
            ∧ t.struct.next = some (readPlan s.struct.staging) ∧ t.struct.nextSource = 2 ∧ t.mem = s.mem
            ∧ ∀ i < Config.nParts, affects s.struct.plan (readPlan s.struct.staging) s.usable i = true →
                s.struct.plan.defines i = true → (t.part i).st = .applying)
      ∧ (∀ i, s.struct.loadState = 2 → vCheckWord s.struct.staging = none →
          vRest s.struct.staging s.usable s.pwr.feed = none → i < Config.nParts →
          affects s.struct.plan (readPlan s.struct.staging) s.usable i = true → s.struct.plan.defines i = true →
          (s.part i).st ≠ .quiesced →
          ∃ t, exec .validationComplete s = .next t ∧ t.struct.plan = s.struct.plan ∧ t.struct.loadState = 0
            ∧ t.struct.rejected = true ∧ t.struct.faultCode = 0x0819 ∧ t.parts = s.parts ∧ t.mem = s.mem))
  ∧ (∀ (s : State) (new : Plan), s.struct.loadState = 3 → s.struct.next = some new →
      ∃ t, exec .applyComplete s = .next t ∧ t.struct.plan = new ∧ t.struct.source = s.struct.nextSource
        ∧ t.struct.loadState = 0 ∧ t.struct.next = none ∧ t.struct.staging = [] ∧ t.pwr.mode = new.dev.mode
        ∧ t.struct.minorNewer = decide (0 < new.minor) ∧ t.struct.optSkipped = new.skipped
        ∧ (∀ a < Config.hbmEnd, (∀ i, (s.part i).grantArea.enable = false) → (∀ q, ¬ InWriteback s q a) → t.byte a = s.byte a))

/-- The area registers of a partition are written only while it is quiesced; enable stays clear where the area does not lie in
the partition's memory. Register writes: DEV_QCTX_SELECT, FACE_SK20_STATE, FAB_ROUTE_t, MEM_SCRUB_CTRL and BELL_EPOCH hold the
fields that they have of what is written; a write to an address that is no register, or to DEV_ID, which is read-only, changes
nothing. BELL_EPOCH cannot be written once its lock is set. -/
def Obligations.AreasAndRegisters : Prop :=
  (∀ (p v : Nat) (s : State), p < Config.nParts →
      ((s.part p).st ≠ .quiesced → exec (.devGrantArea p v) s = .next s ∧ exec (.devRatioArea p v) s = .next s
        ∧ exec (.devRosterArea p v) s = .next s)
      ∧ ((s.part p).st = .quiesced →
        (∃ t, exec (.devGrantArea p v) s = .next t
          ∧ (t.part p).grantArea = ⟨bit v 0 && s.inHbmPart p (bits v 47 12 * 4096) (81920 * (bits v 63 56 + 1)),
              bits v 47 12 * 4096, bits v 63 56⟩
          ∧ (t.part p).ratioArea = (s.part p).ratioArea ∧ (t.part p).rosterArea = (s.part p).rosterArea ∧ t.tags = s.tags
          ∧ t.flights = s.flights)
        ∧ exec (.devRatioArea p v) s = .next { s with parts := s.parts.upd {} p (fun y => { y with ratioArea :=
            ⟨bit v 0 && s.inHbmPart p (bits v 47 10 * 1024) (1024 * (bits v 63 52 + 1)), bits v 47 10 * 1024, bits v 63 52⟩ }) }
        ∧ exec (.devRosterArea p v) s = .next { s with parts := s.parts.upd {} p (fun y => { y with rosterArea :=
            ⟨bit v 0 && s.inHbmPart p (bits v 47 12 * 4096) 4096, bits v 47 12 * 4096, 0⟩ }) }))
  ∧ (∀ (v : Nat) (s : State),
      (∀ a, regOk a = false → exec (.registerWrite a v) s = .next s)
      ∧ exec (.registerWrite Config.devBase v) s = .next s
      ∧ exec (.registerWrite (Config.devBase + 0x0310) v) s = .next { s with dev := { s.dev with qctxSel := v % 2 ^ 16 } }
      ∧ (∀ f < Config.nFaces, ∃ t, exec (.registerWrite (Config.faceRegBase + 0x10000 * f + 0x0718) v) s = .next t
          ∧ t.readReg (Config.faceRegBase + 0x10000 * f + 0x0718) = v % 2 ^ 64 ∧ t.mem = s.mem)
      ∧ (∀ k < 256, ∃ t, exec (.registerWrite (Config.fabBase + 0x0400 + 8 * k) v) s = .next t
          ∧ t.readReg (Config.fabBase + 0x0400 + 8 * k) = 2 ^ 63 * (v / 2 ^ 63 % 2) + 2 ^ 8 * bits v 13 8 + bits v 5 0
          ∧ t.mem = s.mem)
      ∧ (∃ t, exec (.registerWrite (Config.memBase + 0x00A0) v) s = .next t
          ∧ t.readReg (Config.memBase + 0x00A0) = 2 ^ 32 * bits v 63 32 + bits v 7 0 ∧ t.mem = s.mem)
      ∧ (s.bell.epochLock = true → exec (.registerWrite (Config.bellBase + 0x0010) v) s = .next s)
      ∧ (s.bell.epochLock = false → ∃ t, exec (.registerWrite (Config.bellBase + 0x0010) v) s = .next t
          ∧ t.readReg (Config.bellBase + 0x0010) = v % 2 ^ 64))


/-! ## Links -/

/-- The link states of a port: light takes it from SEEK to TRAIN; training done takes it to NEGOTIATE and sends its training
record; a record that passes the checks takes it UP with full credits, one that fails leaves it FAULTED with the code; too
long a training leaves it FAULTED with 0x0605; a FAULTED port seeks again after 2,500,000 ticks or by RETRAIN. The link
sequence numbers after training are the model's choice (log entry 112). -/
def Obligations.LinkTraining : Prop :=
  ∀ (n v : Nat) (r : TrainRec) (s : State), n < Config.nPorts →
    let p := s.port n
    let goes := fun (i : Instr) (ok : Port → Prop) => ∃ t, exec i s = .next t ∧ ok (t.port n)
      ∧ (∀ k, k ≠ n → t.port k = s.port k) ∧ t.mem = s.mem ∧ t.tags = s.tags
    (p.st = .seek → goes (.seekLightDetect n) (fun y => y = { p with st := .train, since := s.clk.span, leftSeek := s.clk.span }))
    ∧ (p.st ≠ .seek → exec (.seekLightDetect n) s = .next s)
    ∧ (p.st = .train → ∃ t, exec (.trainComplete n) s = .next t ∧ (t.port n).st = .negotiate
        ∧ t.out = s.out ++ [.flit n (s.wire p { type := 9, vc := 0, dst := 0, part := 0, txn := 0, addr := 0, data := s.trainBytes n } 0)]
        ∧ t.mem = s.mem)
    ∧ (p.st ≠ .train → exec (.trainComplete n) s = .next s)
    ∧ (p.st = .negotiate → s.trainCode n r = 0 → p.held = [] → p.transit = [] → (∀ e ∈ s.rings, e.2.txq = []) →
        goes (.trainingRecordReceive n r) (fun y => y.st = .up ∧ y.peerPos = r.position ∧ y.peerPort = r.port
          ∧ y.avail = [64, 1024, 1024, 512] ∧ y.infl = [0, 0, 0, 0] ∧ y.replay = [] ∧ y.txSeq = 0 ∧ y.rxSeq = 0xFFFF ∧ y.pair = p.pair ∧ y.role = p.role))
    ∧ (p.st = .negotiate → s.trainCode n r ≠ 0 →
        goes (.trainingRecordReceive n r) (fun y => y = { p with
          st := .faulted, since := s.clk.span, lastFault := s.trainCode n r }))
    ∧ (p.st ≠ .negotiate → exec (.trainingRecordReceive n r) s = .next s)
    ∧ ((p.st = .train ∨ p.st = .negotiate) → p.leftSeek + 250000 ≤ s.clk.span →
        ∃ t, exec (.trainingTimeout n) s = .next t ∧ (t.port n).st = .faulted ∧ (t.port n).lastFault = 0x0605)
    ∧ (s.clk.span < p.leftSeek + 250000 → exec (.trainingTimeout n) s = .next s)
    ∧ (p.st = .faulted → p.since + 2500000 ≤ s.clk.span →
        goes (.faultedTimeout n) (fun y => y = { p with st := .seek, since := s.clk.span }))
    ∧ (p.st = .faulted → s.clk.span < p.since + 2500000 → exec (.faultedTimeout n) s = .next s)
    ∧ (p.st = .faulted → bit v 0 = true →
        goes (.retrain n v) (fun y => y = { p with st := .seek, since := s.clk.span }))
    ∧ (p.st ≠ .faulted ∨ bit v 0 = false → exec (.retrain n v) s = .next s)

/-- An UP port that loses light, or has heard no heartbeat for 4,100 ticks, and is not being moved as planned, goes down and
seeks again: this is counted, the device's own open transactions by it are lost, and its peer is lost where no other UP port
has it. That it seeks at once is the model's reading (log entry 48). A loss notice on an UP port of the management or data
role marks its position lost, with the earlier of its time and now; on an inter-shaft port, or out of order, it is discarded.
Writing 1 to bits of FAB_LOST clears them and no others, but not those that the device has set in the same tick. What counts
as the same cycle, and the time of a loss while bell time does not count, are the model's reading (log entries 124 and 50). -/
def Obligations.PortLossAndLostPositions : Prop :=
  (∀ (n : Nat) (s : State), n < Config.nPorts → (s.port n).st = .up →
      let down := fun (t : State) => (t.port n).st = .seek ∧ (t.port n).avail = [0, 0, 0, 0] ∧ (t.port n).replay = []
        ∧ ((s.txns.map (·.id)).Nodup → (∀ y ∈ s.txns, y.id < s.dev.nextTxn) → ∀ y ∈ s.txns, y.st = .opened → bit y.ports n = true →
            ∀ z ∈ t.txns, z.id = y.id → z.st = .lost)
        ∧ ((s.port n).peerValid = true → (∀ k < Config.nPorts, k ≠ n → (s.port k).st ≠ .up) → t.isLost (s.port n).peerPos = true)
      (s.moving n = false → ∃ t, exec (.lossOfLight n) s = .next t ∧ down t
        ∧ (t.port n).ctr.ctr 0x50 = (s.port n).ctr.ctr 0x50 + 1)
      ∧ (s.moving n = true → exec (.lossOfLight n) s = .next s ∧ exec (.heartbeatLoss n) s = .next s)
      ∧ (s.moving n = false → (s.port n).hbAt + 4100 ≤ s.clk.span → ∃ t, exec (.heartbeatLoss n) s = .next t ∧ down t
        ∧ (t.port n).ctr.ctr 0x58 = (s.port n).ctr.ctr 0x58 + 1)
      ∧ (s.clk.span < (s.port n).hbAt + 4100 → exec (.heartbeatLoss n) s = .next s))
  ∧ (∀ (n lost tl d i v : Nat) (l : LinkIn) (s : State), n < Config.nPorts → i < 4 →
      let at_ := Config.fabBase + 0xC00 + 8 * i
      let c := s.w1cClears at_ v
      ((s.port n).st = .up → (s.port n).inOrder l.seq = true → ((s.port n).role = 1 ∨ (s.port n).role = 2) → lost < 256 →
        ∃ t, exec (.lossNoticeReceive n l lost tl d) s = .next t
        ∧ t.isLost lost = true
        ∧ (s.isLost lost = false → Tab.get 0 t.fab.tLoss lost = if s.bell.st.counts then min s.clk.bell tl else tl)
        ∧ (∀ k, k ≠ lost → t.isLost k = s.isLost k))
      ∧ ((s.port n).st = .up → (s.port n).inOrder l.seq = true → (s.port n).role = 3 → exec (.lossNoticeReceive n l lost tl d) s = .next (arrived s n 0 1 1 l))
      ∧ ((s.port n).st ≠ .up ∨ (s.port n).inOrder l.seq = false → exec (.lossNoticeReceive n l lost tl d) s = .next s)
      ∧ (∀ j, bit c j = (bit v j && !(s.dev.w1cAt == s.clk.lease && bit (Tab.get 0 s.dev.w1c at_) j)))
      ∧ (∃ t, exec (.fabLostClear i v) s = .next t ∧ { t with fab := s.fab } = s
        ∧ (∀ j < 64, bit c j = true → t.isLost (64 * i + j) = false)
        ∧ (∀ k, (k / 64 ≠ i ∨ bit c (k % 64) = false) → t.isLost k = s.isLost k)))

/-- The planned move of a port: before it only idle flits are sent; at its tick the port takes the other pair, discards its
replay buffer and, if it was UP, trains again, where no event before it in the tick has still to act; a transaction with a
flit that the link has not confirmed is lost; if the port is not UP 2,048 ticks later it is FAULTED with 0x0605. That a move
to the pair in use does nothing, and that events act in their order, are the model's reading (log entries 46 and 125). At a
reconfiguration boundary every position that was lost 8,192 ticks before or earlier is bounded, and a port whose primary peer
it is moves to its alternate pair and trains, where no event before it in the tick has still to act. With no such event now
nothing happens. -/
def Obligations.PointsAndBoundary : Prop :=
  (∀ (p n : Nat) (s : State), p < Config.nParts → n < Config.nPorts →
      let mine := fun (e : BellRec) => e.kind == 3 && e.part == p && e.arg0 == n
      ((s.port n).st = .up → (∃ e ∈ s.moves p n, s.aroundEvent p e.off 256 0 = true ∧ s.firesNow p e.off = false) →
        exec (.pointsPreIdle p n) s = .next (withPort s n (fun y => { y with idleOnly := true })))
      ∧ ((s.port n).st ≠ .up → exec (.pointsPreIdle p n) s = .next s)
      ∧ (∀ x, ActsAlone s mine → s.eventsLeft.find? (fun x => mine x.1) = some x → x.1.arg1 ≠ (s.port n).pair →
        ∃ t, exec (.pointsSwitch p n) s = .next t
        ∧ (t.port n).pair = x.1.arg1 ∧ (t.port n).replay = [] ∧ (t.port n).bypass = false ∧ (t.port n).idleOnly = false
        ∧ (t.port n).st = (if (s.port n).st = .up then .train else (s.port n).st) ∧ t.tags = s.tags
        ∧ ((s.txns.map (·.id)).Nodup → (∀ y ∈ s.txns, y.id < s.dev.nextTxn) → ∀ y ∈ s.txns, y.st = .opened →
            (∃ f, (f ∈ (s.port n).held ∨ ∃ r ∈ (s.port n).replay, r.flit = some f) ∧ f.own = some y.id) →
            ∀ z ∈ t.txns, z.id = y.id → z.st = .lost))
      ∧ (∀ x, ActsAlone s mine → s.eventsLeft.find? (fun x => mine x.1) = some x → x.1.arg1 = (s.port n).pair →
        exec (.pointsSwitch p n) s = .next { s with dev := firedDev s mine })
      ∧ ((∀ x ∈ s.eventsNow, mine x.1 = false) → exec (.pointsSwitch p n) s = .next s)
      ∧ (∀ m, (s.port n).moveAt = some m → (s.port n).st ≠ .up → m + 2048 ≤ s.clk.span →
        ∃ t, exec (.pointsRetrainTimeout n) s = .next t ∧ (t.port n).st = .faulted ∧ (t.port n).lastFault = 0x0605
          ∧ (t.port n).moveAt = none)
      ∧ ((s.port n).moveAt = none → exec (.pointsRetrainTimeout n) s = .next s))
  ∧ (∀ (p : Nat) (s : State), p < Config.nParts →
      let mine := fun (e : BellRec) => e.kind == 5 && e.part == p
      (ActsAlone s mine → (∃ x ∈ s.eventsLeft, mine x.1 = true) →
        ∃ t, exec (.reconfigBoundary p) s = .next t
          ∧ (∀ l < 256, s.isLost l = true → Tab.get 0 s.fab.tLoss l + 8192 ≤ s.clk.bell → bit t.fab.bounded l = true)
          ∧ (∀ l < 256, ∀ n < Config.nPorts, s.isLost l = true → bit s.fab.bounded l = false →
              Tab.get 0 s.fab.tLoss l + 8192 ≤ s.clk.bell → (s.port n).st ≠ .dark → (s.port n).pair = 0 → (s.port n).role ≠ 3 →
              bit (s.struct.plan.portRec n).flags 0 = true → s.primaryPeer n = some l →
              (t.port n).pair = 1 ∧ (t.port n).bypass = true ∧ (t.port n).bypassFor = l ∧ (t.port n).st = .train))
      ∧ ((∀ e ∈ s.struct.plan.bell, e.kind = 5 → e.part = p → s.firesNow p e.off = false) →
        exec (.reconfigBoundary p) s = .next s))


/-! ## Transactions -/

/-- A write transaction that is acceptable, on a port whose role carries it, is written: its bytes stand in memory, and, if it
carries no token row, no other byte changes; a token row is counted. One that is not acceptable changes no memory, and one
that reaches a unit under reset is counted (log entry 111). One that the port's role does not carry has no effect beyond its
link fields (log entry 116), and one out of order none (log entry 13). A read request that is acceptable and meets no error is
answered with the bytes that stand there, by the port that leads back, or by the inter-shaft port it came by to that port's
far end (log entry 93), when the port may send; before it go the events of corrected sectors that the read has met. A remote
tag signal that is acceptable is applied to its tag, one that is not leaves it. Neither changes memory. One that the port's
role does not carry has no effect beyond its link fields (log entry 116), and one out of order none (log entry 13). -/
def Obligations.RemoteTransactions : Prop :=
  (∀ (n : Nat) (l : LinkIn) (x : WriteTxn) (s : State), n < Config.nPorts → (s.port n).st = .up →
      let due := (s.port n).inOrder l.seq
      (due = false → exec (.writeTransactionReceive n l x) s = .next s) ∧
      (due = true → roleTakes (s.port n).role (x.vc % 4) 1 = false → exec (.writeTransactionReceive n l x) s
        = .next (arrived s n (x.vc % 4) (flitCount x.data.length) (flitCount x.data.length) l)) ∧
      (due = true → roleTakes (s.port n).role (x.vc % 4) 1 = true →
      (s.acceptable x.part x.addr x.data.length = true → x.row = none →
        ∃ t, exec (.writeTransactionReceive n l x) s = .next t
          ∧ (∀ i < x.data.length, (t.byte (x.addr + i)).toNat = nth x.data i % 256)
          ∧ (∀ a, (a < x.addr ∨ x.addr + x.data.length ≤ a) → t.byte a = s.byte a)
          ∧ t.ctxs = s.ctxs ∧ t.tags = s.tags ∧ (NoneHeld s → t.flights = s.flights) ∧ t.bell = s.bell)
      ∧ (∀ layer shift, s.acceptable x.part x.addr x.data.length = true → x.row = some (layer, shift) →
        ∃ t, exec (.writeTransactionReceive n l x) s = .next t ∧ t.dev.ctr.ctr 0x0698 = s.dev.ctr.ctr 0x0698 + 1 ∧ t.tags = s.tags)
      ∧ (s.acceptable x.part x.addr x.data.length = false →
        ∃ t, exec (.writeTransactionReceive n l x) s = .next t ∧ t.mem = s.mem ∧ t.tags = s.tags ∧ t.ctxs = s.ctxs
          ∧ t.dev.resetNaks = s.dev.resetNaks + (if s.underReset x.part x.addr x.data.length then 1 else 0))))
  ∧ (∀ (n src part txn vc addr len k tag value : Nat) (l : LinkIn) (s : State), n < Config.nPorts → (s.port n).st = .up →
      let far := (s.port n).role == 3
      let due := (s.port n).inOrder l.seq
      let u := arrived s n (vc % 4) 1 1 l
      (due = true → roleTakes (s.port n).role (vc % 4) 2 = true → s.acceptable part addr len = true → s.eccAt addr len = none →
        (if far then some n else s.egress src) = some k → len ≤ 224 →
        (u.port k).maySend (vc % 4) = true → (u.port k).held = [] → (u.port k).transit = [] →
        ∃ t events, exec (.readRequestReceive n l src part txn vc addr len) s = .next t ∧ t.mem = s.mem
          ∧ (s.ms.softSectors = [] → events = [])
          ∧ t.out = u.out ++ events ++ [.flit k (u.wire (u.port k) {
              type := 3, vc := vc % 4, dst := if far then 0 else src, part := part, txn := txn, addr := addr
              data := s.begin_.bytes addr len, far := far } (u.port k).txSeq)]
          ∧ t.tags = s.tags)
      ∧ (due = true → roleTakes (s.port n).role (vc % 4) 2 = false → exec (.readRequestReceive n l src part txn vc addr len) s = .next u)
      ∧ (due = true → roleTakes (s.port n).role 0 6 = true → s.tagAcceptable part tag = true →
        ∃ t, exec (.tagSignalReceive n l src part txn tag value) s = .next t
          ∧ t.tag tag = s.tag tag + BitVec.ofNat 32 value ∧ (∀ j, j ≠ tag → t.tag j = s.tag j) ∧ t.mem = s.mem ∧ t.ctxs = s.ctxs)
      ∧ (due = true → roleTakes (s.port n).role 0 6 = true → s.tagAcceptable part tag = false →
        ∃ t, exec (.tagSignalReceive n l src part txn tag value) s = .next t
          ∧ t.tags = s.tags ∧ t.mem = s.mem ∧ (NoneHeld s → t.flights = s.flights))
      ∧ (due = true → roleTakes (s.port n).role 0 6 = false → exec (.tagSignalReceive n l src part txn tag value) s
          = .next (arrived s n 0 1 1 l))
      ∧ (due = false → exec (.readRequestReceive n l src part txn vc addr len) s = .next s
          ∧ exec (.tagSignalReceive n l src part txn tag value) s = .next s))

/-- An answer settles the open transaction it is for: an acknowledgement and a read response of its length as accepted, with
the response's data; a negative acknowledgement as its reason says; 1,048,576 ticks without an answer as lost. A negative
acknowledgement from a device on the way is matched by its tag (log entry 24); an answer that comes by an inter-shaft port is
for none (log entry 116), and one out of order is discarded (log entry 13). -/
def Obligations.Answers : Prop :=
  ∀ (n src txn vc : Nat) (l : LinkIn) (data : List Nat) (why : NakReason) (s : State) (y : Txn),
    n < Config.nPorts → (s.port n).st = .up → s.txn? y.id = some y → y.st = .opened → y.orphan = false →
    let due := (s.port n).inOrder l.seq
    let on := due = true ∧ ((s.port n).role = 1 ∨ (s.port n).role = 2)
    let settles := fun (i : Instr) (st : TxnSt) => ∃ t, exec i s = .next t ∧ (t.txn? y.id).map (·.st) = some st
      ∧ t.tags = s.tags ∧ t.ctxs = s.ctxs
    (on → s.answered src txn = some y → y.kind ≠ .read → settles (.ackReceive n l src txn) .accepted)
    ∧ (due = true → (s.port n).role = 2 → s.answered src txn = some y → y.kind = .read → data.length = y.len →
        settles (.readResponseReceive n l src txn vc data) .accepted
        ∧ ∃ t, exec (.readResponseReceive n l src txn vc data) s = .next t ∧ (t.txn? y.id).map (·.data) = some data
          ∧ t.mem = s.mem)
    ∧ (on → s.nakked src txn = some y → settles (.nakReceive n l src txn why) (NakReason.outcome why))
    ∧ (due = true → (s.port n).role = 3 → exec (.ackReceive n l src txn) s = .next (arrived s n 0 1 1 l)
        ∧ exec (.nakReceive n l src txn why) s = .next (arrived s n 0 1 1 l))
    ∧ (due = false → exec (.ackReceive n l src txn) s = .next s ∧ exec (.nakReceive n l src txn why) s = .next s
        ∧ exec (.readResponseReceive n l src txn vc data) s = .next s)
    ∧ (y.sentAt + 1048576 ≤ s.clk.span → (∀ e ∈ s.ports, ∀ f ∈ e.2.held, f.own ≠ some y.id) →
        settles (.settlementTimeout y.id) .lost)
    ∧ (s.clk.span < y.sentAt + 1048576 → exec (.settlementTimeout y.id) s = .next s)

/-- A transit flit leaves by the port of its destination with one hop less; without a route, or with no hop left, it is
discarded and counted; a transit flit that has waited 65,536 ticks for a credit is discarded and counted too. A flit out of
order is discarded, and nothing else comes of it (log entries 13 and 116). A flit with errors is discarded: its uncorrectable
codewords are counted, and a replay is asked for from link_ack + 1. An idle flit returns credits and confirms what it names;
one that asks for a replay has every flit that is not confirmed sent again, in order, and counted, unless the port sends only
idle flits before a move. When idle flits are sent is the model's choice (log entry 115). Returning credits moves them from in
flight to available: their sum in each channel stays as it was. -/
def Obligations.FlitHandling : Prop :=
  (∀ (n k : Nat) (l : LinkIn) (fl : TransitFlit) (s : State), n < Config.nPorts →
      let u := arrived s n fl.vc 1 0 l
      let passes := (s.port n).st = .up ∧ (s.port n).inOrder l.seq = true ∧ (s.port n).role ≠ 3 ∧ roleTakes (s.port n).role fl.vc fl.type = true ∧ fl.dst ≠ s.ownPos
      (passes → fl.vc < 4 → s.egress fl.dst = some k → 0 < fl.ttl → (u.port k).maySend fl.vc = true →
        (u.port k).held = [] → (u.port k).transit = [] →
        ∃ t, exec (.flitForward n l fl) s = .next t
          ∧ t.out = u.out ++ [.forward k { fl with ttl := fl.ttl - 1 } (u.port k).txSeq (u.port k).rxSeq
              ((u.port k).owed.map (min 255))]
          ∧ t.mem = s.mem ∧ t.txns = u.txns ∧ t.fab = s.fab)
      ∧ (passes → (s.egress fl.dst = none ∨ fl.ttl = 0) →
        ∃ t, exec (.flitForward n l fl) s = .next t ∧ t.fab.discards = s.fab.discards + 1 ∧ t.mem = s.mem)
      ∧ ((s.port n).st ≠ .up ∨ (s.port n).inOrder l.seq = false → exec (.flitForward n l fl) s = .next s)
      ∧ (∃ t, exec (.transitCreditTimeout n) s = .next t ∧ t.mem = s.mem
        ∧ (∀ f ∈ (t.port n).transit, f ∈ (s.port n).transit ∧ s.clk.span < f.since + 65536)
        ∧ ((∀ f ∈ (s.port n).transit, s.egress f.fl.src = none) →
            (t.port n).transit = (s.port n).transit.filter (fun f => decide (s.clk.span < f.since + 65536)))
        ∧ t.fab.discards = s.fab.discards + BitVec.ofNat 64
            ((s.port n).transit.filter (fun f => decide (f.since + 65536 ≤ s.clk.span))).length))
  ∧ (∀ (n u c : Nat) (l : LinkIn) (s : State), n < Config.nPorts →
      let seqOf := fun (o : Out) => match o with
        | .flit _ f => f.seq
        | .forward _ _ q _ _ => q
        | _ => 0
      (∃ t, exec (.badFlitReceive n u) s = .next t ∧ (t.port n).ctr.ctr 0x20 = (s.port n).ctr.ctr 0x20 + BitVec.ofNat 64 u
        ∧ (∀ k, k ≠ n → t.port k = s.port k) ∧ t.mem = s.mem ∧ t.tags = s.tags ∧ t.ctxs = s.ctxs ∧ t.txns = s.txns
        ∧ t.out = s.out ++ (if (s.port n).st = .up then [.replayAsk n (((s.port n).rxSeq + 1) % 2 ^ 16)] else []))
      ∧ ((s.port n).st = .up → (s.port n).held = [] → (s.port n).transit = [] →
        ∀ asks, asks = false ∨ (s.port n).idleOnly = true →
        ∃ t, exec (.idleFlitReceive n l asks c) s = .next t
          ∧ t.port n = { (s.port n).linkIn 0 0 0 l with ctr := (s.port n).ctr.bump 0x18 c }
          ∧ (∀ k, k ≠ n → t.port k = s.port k) ∧ t.mem = s.mem ∧ t.out = s.out)
      ∧ (let left := confirm l.ack (s.port n).replay
        (s.port n).st = .up → (s.port n).held = [] → (s.port n).transit = [] → (s.port n).idleOnly = false →
        (∀ x ∈ left, x.flit.isSome ∨ x.transit.isSome) →
        ∃ t again, exec (.idleFlitReceive n l true c) s = .next t ∧ t.out = s.out ++ again
          ∧ again.map seqOf = left.map (·.seq) ∧ (t.port n).replay = left ∧ t.mem = s.mem
          ∧ (t.port n).ctr.ctr 0x28 = (s.port n).ctr.ctr 0x28 + BitVec.ofNat 64 left.length)
      ∧ (∀ again, (s.port n).st ≠ .up → exec (.idleFlitReceive n l again c) s
          = .next (withPort s n (fun p => { p with ctr := p.ctr.bump 0x18 c }))))
  ∧ (∀ (p : Port) (vc n v : Nat), p.avail.length = 4 → p.infl.length = 4 → v < 4 →
      nth (p.credit vc n).avail v + nth (p.credit vc n).infl v = nth p.avail v + nth p.infl v
      ∧ (0 < nth p.avail vc → nth (p.spend vc).avail v + nth (p.spend vc).infl v = nth p.avail v + nth p.infl v))


/-! ## The bell -/

/-- Heartbeats: at its own tick the device sends one by every UP port, to the far end by an inter-shaft port, and one that
leaves at once carries that tick; while bell time does not count, every 256 lease ticks. A heartbeat received in order keeps
its port alive; the one of the upstream takes an unsynchronised bell to acquiring, and, where it counts and the epochs agree,
an acquiring bell to locked, at the sender's time with the delay of the link; a locked or free-running bell sets its rate by
at most 100 ppm, an amount that is not stated (log entry 118). Events of a tick act in their order (log entry 125). -/
def Obligations.Heartbeats : Prop :=
  ∀ (n : Nat) (l : LinkIn) (h : Heartbeat) (s : State), n < Config.nPorts →
    let mine := fun (e : BellRec) => e.kind == 7
    (ActsAlone s mine → s.bell.st.counts = true → s.clk.bell % 256 = s.struct.plan.heartbeat →
      ∃ t, exec .heartbeatSend s = .next t ∧ t.mem = s.mem ∧ t.bell = s.bell
        ∧ ∀ k < Config.nPorts, (s.port k).st = .up →
          ((s.port k).maySend 0 = true → (s.port k).held = [] → (s.port k).transit = [] →
            (0 < s.clk.bell → s.clk.bell < 2 ^ 64 → (t.port k).txHb = 16 * s.clk.bell)
            ∧ ∃ f : Wire, Out.flit k f ∈ t.out ∧ f.type = 7 ∧ f.vc = 0 ∧ f.data = s.heartbeatBytes (s.port k) ∧ f.far = decide ((s.port k).role = 3)
              ∧ f.dst = (if (s.port k).role = 3 then 0 else (s.port k).peerPos)))
    ∧ ((∀ x ∈ s.eventsNow, mine x.1 = false) → s.bell.st.counts = true → s.clk.bell % 256 ≠ s.struct.plan.heartbeat →
      exec .heartbeatSend s = .next s)
    ∧ (s.bell.st.counts = false → s.clk.lease % 256 ≠ 0 → exec .heartbeatSend s = .next s)
    ∧ ((s.port n).st ≠ .up ∨ (s.port n).inOrder l.seq = false → exec (.heartbeatReceive n l h) s = .next s)
    ∧ ((s.port n).st = .up → (s.port n).inOrder l.seq = true → (s.port n).role = 3 →
      exec (.heartbeatReceive n l h) s = .next (withPort (arrived s n 0 1 1 l) n (fun p => { p with hbAt := s.clk.span })))
    ∧ ((s.port n).st = .up → (s.port n).inOrder l.seq = true → ((s.port n).role = 1 ∨ (s.port n).role = 2) →
      ∃ t, exec (.heartbeatReceive n l h) s = .next t
      ∧ (t.port n).hbAt = s.clk.span ∧ t.mem = s.mem ∧ (NoneHeld s → t.flights = s.flights) ∧ t.tags = s.tags
      ∧ (t.bell.upstream = n → s.bell.st = .locked → h.counts = true → t.bell.st = .locked ∧ t.bell.ppm.natAbs ≤ 100)
      ∧ (t.bell.upstream = n → s.bell.st = .freerun → h.counts = true → t.bell.st = .freerun ∧ t.bell.ppm.natAbs ≤ 100)
      ∧ (t.bell.upstream = n → s.bell.st = .unsync → t.bell.st = .acquiring)
      ∧ (t.bell.upstream = n → s.bell.st = .acquiring → (s.port n).peerEpoch = s.bell.epoch.toNat % 2 ^ 32 → h.counts = true →
          t.bell.st = .locked ∧ t.clk.bell = (h.bellT + (h.sixteenths + (t.port n).delay.toNat) / 16) % 2 ^ 64)
      ∧ (t.bell.upstream = n → s.bell.st = .acquiring → (s.port n).peerEpoch ≠ s.bell.epoch.toNat % 2 ^ 32 →
          t.bell.st = .acquiring ∧ t.bell.mismatch = true ∧ t.bell.lastCode = 0x0618))

/-- The master's clock and the timeouts of the bell: a PTP message that the client listens to and that locks takes an
unsynchronised master's bell to locked, at the time since the epoch in units of 4 ns, and a free-running one's to locked at
its own time, with its rate set by at most 100 ppm; without one for 2,500,000 ticks it runs free from 0; a device elects its
master at every timeout; a bell without an upstream for 1,024 ticks goes to holdover, and after 65,536 ticks of holdover it is
unaligned. How much a rate changes, and which ticks a span counts, are the model's choice (log entries 118 and 8). Of two
candidates for master the one of higher lock class ranks first, then of higher priority, then of lower position; no two
different candidates rank alike. -/
def Obligations.BellStates : Prop :=
  (∀ (port dom ns off : Nat) (v6 : Bool) (s : State), port < 2 →
      let hears := s.boot.st.lit = true ∧ s.electMaster = some s.ownPos ∧ s.bell.hearsPtp port dom v6 = true
      (hears → s.bell.st = .unsync → s.bell.epoch.toNat ≤ ns →
        ∃ t, exec (.ptpMessage port dom v6 true ns off) s = .next t ∧ t.bell.st = .locked
          ∧ t.clk.bell = (ns - s.bell.epoch.toNat) / 4 % 2 ^ 64 ∧ t.mem = s.mem)
      ∧ (hears → s.bell.st = .freerun →
        ∃ t, exec (.ptpMessage port dom v6 true ns off) s = .next t ∧ t.bell.st = .locked ∧ t.clk.bell = s.clk.bell
          ∧ t.bell.ppm.natAbs ≤ 100 ∧ t.mem = s.mem)
      ∧ (∀ locked, s.bell.hearsPtp port dom v6 = false →
        ∃ t, exec (.ptpMessage port dom v6 locked ns off) s = .next t ∧ t.bell.st = s.bell.st ∧ t.clk.bell = s.clk.bell)
      ∧ (∃ t, exec (.ptpMessage port dom v6 false ns off) s = .next t ∧ t.bell.st = s.bell.st ∧ t.clk.bell = s.clk.bell ∧ t.mem = s.mem)
      ∧ (∃ t, exec .ptpLockLoss s = .next t ∧ t.bell.ptpLocked = false ∧ t.bell.st = s.bell.st ∧ { t with bell := s.bell } = s)
      ∧ (s.bell.st = .unsync → s.electMaster = some s.ownPos → s.bell.ptpLocked = false →
          s.bell.since + 2500000 ≤ s.clk.span →
          ∃ t, exec .freerunTimeout s = .next t ∧ t.bell.st = .freerun ∧ t.clk.bell = 0 ∧ t.bell.since = s.clk.span)
      ∧ (∃ t, exec .masterTimeout s = .next t ∧ t.bell.masterValid = s.electMaster.isSome
          ∧ t.bell.master = s.electMaster.getD 0 ∧ t.bell.isMaster = decide (s.electMaster = some s.ownPos)
          ∧ { t with bell := s.bell } = s)
      ∧ (∀ u, s.begin_.elect.bell.upLost = some u → s.bell.st = .locked → u + 1024 ≤ s.clk.span →
          ∃ t, exec .upstreamReselectTimeout s = .next t ∧ t.bell.st = .holdover ∧ t.bell.since = s.clk.span ∧ t.mem = s.mem)
      ∧ (s.bell.st = .holdover → s.bell.since + 65536 ≤ s.clk.span →
          ∃ t, exec .holdoverTimeout s = .next t ∧ t.bell.st = .unaligned ∧ t.bell.lapsed = true ∧ t.bell.lastCode = 0x0619
            ∧ t.clk = { s.clk with free := t.clk.free } ∧ t.mem = s.mem)
      ∧ (s.bell.st ≠ .holdover → exec .holdoverTimeout s = .next s))
  ∧ (∀ a b : Rank,
      (a.1 > b.1 → Rank.above a b = true) ∧ (a.1 = b.1 → a.2.1 > b.2.1 → Rank.above a b = true)
      ∧ (a.1 = b.1 → a.2.1 = b.2.1 → a.2.2 < b.2.2 → Rank.above a b = true)
      ∧ (a ≠ b → (Rank.above a b = true ∧ Rank.above b a = false) ∨ (Rank.above a b = false ∧ Rank.above b a = true))
      ∧ ∀ (l : List Rank) (m : Rank), bestRank l = some m → m ∈ l ∧ ∀ r ∈ l, r ≠ m → Rank.above m r = true)


/-! ## Power of a face, the memory system -/

/-- The power ramp of a stope array: a step brings one row group up, the eighth turns it ON; 640 tenths of a cycle idle with
keep_warm clear wind it down, one group at a step, to OFF; a write of FACE_STOPE_CTRL sets keep_warm and asks the arrays it
names to come up, and those it lets go count their idle cycles from there. Nothing else of the face changes, and nothing else.
That an array asked to come up while all its groups are still up goes ON at once is the model's reading (log entry 150). -/
def Obligations.StopePower : Prop :=
  ∀ (f a v : Nat) (s : State), f < Config.nFaces → a < 4 →
    let arr := fun (t : State) (k : Nat) => (t.face f).arrs.getD k {}
    let y := arr s a
    let goes := fun (i : Instr) (ok : State → Prop) => ∃ t, exec i s = .next t ∧ ok t ∧ (∀ k, k ≠ f → t.face k = s.face k)
      ∧ t.face f = { s.face f with arrs := (t.face f).arrs } ∧ (∀ k, k ≠ a → arr t k = arr s k) ∧ { t with faces := s.faces } = s
    (y.pw = .ramping → y.groups + 1 < 8 → goes (.stopeRampStep f a) (fun t => arr t a = { y with groups := y.groups + 1 }))
    ∧ (y.pw = .ramping → 8 ≤ y.groups + 1 → goes (.stopeRampStep f a) (fun t => arr t a = { y with
        pw := .on, groups := 8, idleAt := s.clk.cyc10 }))
    ∧ (y.pw = .on → s.runningOn f a 0x30 = none → bit (s.face f).keepWarm a = false → y.idleAt + 640 ≤ s.clk.cyc10 →
        goes (.stopeIdleTimeout f a) (fun t => arr t a = { y with pw := .winding }))
    ∧ (s.runningOn f a 0x30 ≠ none ∨ bit (s.face f).keepWarm a = true ∨ s.clk.cyc10 < y.idleAt + 640 →
        exec (.stopeIdleTimeout f a) s = .next s)
    ∧ (y.pw = .winding → 1 < y.groups → goes (.stopeWindStep f a) (fun t => arr t a = { y with groups := y.groups - 1 }))
    ∧ (y.pw = .winding → y.groups ≤ 1 → goes (.stopeWindStep f a) (fun t => arr t a = { y with pw := .off, groups := 0 }))
    ∧ (∃ t, exec (.faceStopeCtrl f v) s = .next t ∧ t.face f = { s.face f with arrs := (t.face f).arrs, keepWarm := v % 16 }
        ∧ (∀ k, k ≠ f → t.face k = s.face k)
        ∧ (bit v a = true → a < (s.face f).arrs.length → y.pw = .off → arr t a = { y with pw := .ramping, groups := 0 })
        ∧ (bit v a = true → a < (s.face f).arrs.length → y.pw = .winding →
            arr t a = { y with pw := if 8 ≤ y.groups then .on else .ramping })
        ∧ (bit v a = true → y.pw = .on ∨ y.pw = .ramping → arr t a = y)
        ∧ (bit v a = false → bit (s.face f).keepWarm a = false → arr t a = y)
        ∧ (bit v a = false → bit (s.face f).keepWarm a = true → a < (s.face f).arrs.length →
            arr t a = { y with idleAt := s.clk.cyc10 }) ∧ { t with faces := s.faces } = s)

/-- The regulators gain their rates, up to their depths, once in a tick, but for ticks whose gain a request that waited has
taken already (log entry 12). A scrub reads the next sector of a pseudo-channel of a part in READY: a corrected one is counted
and may make the channel suspect, an uncorrectable one is logged; no byte changes. The health record is saved when it has at
most eight pseudo-channels. Repair access starts when every partition is quiesced; a repair instruction leaves the stores of
faces and galleries, and HBM with free values (log entry 4). -/
def Obligations.MemoryHousekeeping : Prop :=
  ∀ (pc v : Nat) (s : State), pc < Config.nPcs →
    let at_ := (Tab.get {} s.ms.pcs pc).scrubAt
    let bad := hbmAddr s.ms.mapped pc (32 * at_) / 32
    let idle := s.ms.period ≠ 0 ∧ s.ms.repairEn = false ∧ bit s.ms.mapped pc = false ∧ s.boot.st = .ready
    let mask := (List.range Config.nPcs).filter (fun i => bit s.ms.mapped i || bit s.ms.next i)
    (s.ms.refillAt ≠ some s.clk.span → (s.memRecs.map (·.idx)).Nodup → ∃ t, exec .regulatorRefill s = .next t ∧ t.mem = s.mem
      ∧ ∀ m ∈ s.memRecs,
          let b := Tab.get ({} : Bucket) s.ms.buckets m.idx
          Tab.get {} t.ms.buckets m.idx = if 0 < b.ahead then { b with ahead := b.ahead - 1 }
            else { b with g := min (m.burst * 10240) (b.g + m.guar * 576), c := min (m.burst * 10240) (b.c + m.ceil * 576) })
    ∧ (s.ms.refillAt = some s.clk.span → exec .regulatorRefill s = .next s)
    ∧ (idle → bad ∉ s.ms.badSectors →
      (∀ raced, bad ∉ s.ms.softSectors → ∃ t, exec (.scrubRead pc .ok raced) s = .next t ∧ SameMemory s t
        ∧ (Tab.get {} t.ms.pcs pc).scrubAt = (at_ + 1) % 2 ^ 26 ∧ t.ms.suspect = s.ms.suspect ∧ t.ms.errLog = s.ms.errLog)
      ∧ (∀ raced, ∃ t, exec (.scrubRead pc .corrected raced) s = .next t ∧ SameMemory s t
        ∧ (Tab.get {} t.ms.pcs pc).ce = min ((Tab.get {} s.ms.pcs pc).ce + 1) 0xFFFFFFFF
        ∧ (raced = false → bad ∉ t.ms.softSectors)
        ∧ bit t.ms.suspect pc = (bit s.ms.suspect pc || decide (s.ms.ceThreshold < (Tab.get {} s.ms.pcs pc).passCe + 1)))
      ∧ ∀ raced, ∃ t, exec (.scrubRead pc .uncorrectable raced) s = .next t ∧ SameMemory s t ∧ bit t.ms.suspect pc = true
        ∧ (bad ∈ t.ms.badSectors ↔ raced = false) ∧ t.ms.errLog = BitVec.ofNat 64 (pc * 2 ^ 55 + 2 * 2 ^ 53 + at_ % 2 ^ 31)
        ∧ (Tab.get {} t.ms.pcs pc).ue = min ((Tab.get {} s.ms.pcs pc).ue + 1) 0xFFFF)
    ∧ (s.ms.period = 0 ∨ s.ms.repairEn = true ∨ s.boot.st ≠ .ready → ∀ e raced, exec (.scrubRead pc e raced) s = .next s)
    ∧ (s.ms.saving = none → mask.length ≤ 8 → ∃ r, exec .save s = .next { s with ms := { s.ms with saving := some r } }
        ∧ ∀ i < Config.nPcs, bit r i = (bit s.ms.mapped i || bit s.ms.next i))
    ∧ (s.ms.saving = none → 8 < mask.length → ∃ t, exec .save s = .next t ∧ t.ms = { s.ms with saveRefused := true }
        ∧ { t with ms := s.ms, dev := s.dev } = s)
    ∧ (∀ r, s.ms.saving = some r → exec .healthSaveComplete s = .next { s with
        flash := s.flash.setHealth true { s.flash.health with remove := r }, ms := { s.ms with saving := none } })
    ∧ (bit v 0 = true → s.allQuiesced = true → exec (.memRepairCtrl v) s = .next { s with
        ms := { s.ms with repairEn := true, repairStack := bits v 11 8 } })
    ∧ (bit v 0 = true → s.allQuiesced = false → s.ms.repairEn = false → exec (.memRepairCtrl v) s = .next s)
    ∧ (s.ms.repairEn = true → s.ms.scrambled ≠ some s.clk.free → ∃ t, exec (.memRepairCmd v) s = .next t
        ∧ t.ms.repairInstr = v % 2 ^ 32 ∧ (∀ a < Config.hbmEnd, t.byte a = Config.freeByte s.clk.free a)
        ∧ (∀ a, Config.hbmEnd ≤ a → t.byte a = s.byte a) ∧ t.tags = s.tags ∧ t.ctxs = s.ctxs)
    ∧ (s.ms.repairEn = false → exec (.memRepairCmd v) s = .next s)
    ∧ exec (.memRepairData true v) s = .next { s with ms := { s.ms with repairData := BitVec.ofNat 64 v } }
    ∧ (s.ms.repairEn = true → ∃ x, exec (.memRepairData false v) s = .next { s with
        ms := { s.ms with repairData := x }, clk := { s.clk with free := s.clk.free + 1 } })


/-! ## The Adit protocol -/

/-- Sessions: SESSION_OPEN opens an observer or, with an unowned part, its control session; LEASE_RENEW renews the lease;
SESSION_CLOSE of the control session leaves the part unowned when every partition is quiesced and no RoCEv2 answer waits;
CUSTODY_CLAIM takes an orphaned part; a lease that runs out ends its session and orphans what it controlled; the timeouts of a
reservation, of a message in part and of an SPDM session end those; reserved message types are refused. Replies go before
events. -/
def Obligations.AditSessions : Prop :=
  ∀ (h : Hdr) (x : Session) (s : State),
    let replied := fun (t : State) (r : Req) (body : List Nat) => ∃ l, t.out = s.out ++ repliesOf h (reqType r) 0 body ++ l
    (InTurn s h x →
      (Answered s h .leaseRenew 0 [] (fun t => t.mem = s.mem ∧ t.host.owner = s.host.owner
        ∧ (t.session? h.session).map (·.expiry) = some (s.clk.lease + 2 ^ x.leaseLog2)))
      ∧ (∀ k, Answered s h (.reservedType k) (if k = 0x31 ∨ k = 0x32 ∨ k = 0x41 then 0x0B03 else 0x0B02) []
          (fun t => t.mem = s.mem))
      ∧ (x.mode = 1 → s.allQuiesced = true → (∀ e ∈ s.host.ports, e.2.roceq = []) →
          ∃ t, exec (asks h .sessionClose) s = .next t ∧ replied t .sessionClose []
          ∧ t.session? h.session = none ∧ t.host.owner = .unowned ∧ (∀ i < 64, (t.window i).isOpen = false) ∧ t.mem = s.mem)
      ∧ (x.mode = 1 → (s.allQuiesced = false ∨ ∃ e ∈ s.host.ports, e.2.roceq ≠ []) →
          Answered s h .sessionClose 0x0B14 [] (fun t => t.host.owner = s.host.owner ∧ t.mem = s.mem))
      ∧ (x.mode = 0 → ∃ t, exec (asks h .sessionClose) s = .next t ∧ t.out = s.out ++ repliesOf h 0x12 0 []
          ∧ t.session? h.session = none ∧ t.host.owner = s.host.owner ∧ t.mem = s.mem)
      ∧ (x.mode = 0 → s.host.owner = .orphaned → x.spdm ≠ none → ∃ t, exec (asks h .custodyClaim) s = .next t
          ∧ replied t .custodyClaim [] ∧ t.host.owner = .custody ∧ (t.session? h.session).map (·.mode) = some 2)
      ∧ (x.mode = 0 → s.host.owner ≠ .orphaned → Answered s h .custodyClaim 0x0B03 [] (fun t =>
          t.host.owner = s.host.owner)))
    ∧ (∀ mode leaseLog2 label, WholeRequest s h → h.session = 0 → label.length = 16 →
      let open_ := exec (asks h (.sessionOpen mode leaseLog2 0 label)) s
      let answer := fun (o : Owner) => leBytes 4 (s.host.lastId + 1) ++ [leaseLog2, o.code, 0, 0] ++ leBytes 8 s.struct.plan.serial
        ++ leBytes 8 (s.readReg Config.bellBase)
      (s.openCode h mode leaseLog2 = 0 → mode = 0 → ∃ t, open_ = .next t ∧ t.out = s.out ++ repliesOf h 0x10 0 (answer s.host.owner)
        ∧ t.host.owner = s.host.owner ∧ t.mem = s.mem
        ∧ ∃ n < 2 ^ 32, t.host.sessions = s.host.sessions ++ [{
            id := s.host.lastId + 1, mode := 0, leaseLog2 := leaseLog2, expiry := s.clk.lease + 2 ^ leaseLog2, spdm := h.spdm,
            nextSeq := (h.seq + 1) % 2 ^ 32, port := h.port, addr := h.src, udp := h.udp, evSeq := n }])
      ∧ (s.openCode h mode leaseLog2 = 0 → mode = 1 → ∃ t l, open_ = .next t
        ∧ t.out = s.out ++ repliesOf h 0x10 0 (answer .owned) ++ l
        ∧ t.host.owner = .owned ∧ t.host.reservedUntil = none ∧ t.flash.claimant = none ∧ t.mem = s.mem
        ∧ ∃ y ∈ t.host.sessions, y.id = s.host.lastId + 1 ∧ y.mode = 1 ∧ y.expiry = s.clk.lease + 2 ^ leaseLog2)
      ∧ (∀ c, s.openCode h mode leaseLog2 = c → c ≠ 0 → ∃ t, open_ = .next t ∧ t.out = s.out ++ repliesOf h 0x10 c []
        ∧ t.host.sessions = s.host.sessions ∧ t.host.owner = s.host.owner))
    ∧ (s.session? x.id = some x → x.expiry ≤ s.clk.lease → ∃ t, exec (.leaseExpiry x.id) s = .next t ∧ t.session? x.id = none
        ∧ t.host.owner = (if x.mode = 1 ∨ x.mode = 2 then .orphaned else s.host.owner) ∧ t.mem = s.mem ∧ t.ctxs = s.ctxs)
    ∧ (s.session? x.id = some x → s.clk.lease < x.expiry → exec (.leaseExpiry x.id) s = .next s)
    ∧ (∀ r, s.host.reservedUntil = some r → r ≤ s.clk.lease → exec .reservationExpiry s = .next { s with
        host := { s.host with reservedUntil := none }, flash := s.flash.setClaimant none })
    ∧ (∀ r, s.host.reservedUntil = some r → s.clk.lease < r → exec .reservationExpiry s = .next s)
    ∧ (∀ f ∈ x.frags, x.id ≠ 0 → s.session? x.id = some x → f.first + 2 ^ 20 ≤ s.clk.lease →
        ∃ t, exec (.fragmentTimeout x.id f.seq) s = .next t ∧ t.host.ctr.ctr 0x0200 = s.host.ctr.ctr 0x0200 + 1
          ∧ (t.session? x.id).map (·.frags) = some (x.frags.filter (fun g => g.seq ≠ f.seq)) ∧ t.out = s.out)
    ∧ (∀ id y, s.spdm? id = some y → y.period ≠ 0 → y.heard + y.period * 250000000 ≤ s.clk.lease →
        ∃ t, exec (.spdmHeartbeatTimeout id) s = .next t ∧ t.spdm? id = none ∧ ∀ z ∈ t.host.sessions, z.spdm ≠ some id)
    ∧ (∀ id y, s.spdm? id = some y → (y.period = 0 ∨ s.clk.lease < y.heard + y.period * 250000000) →
        exec (.spdmHeartbeatTimeout id) s = .next s)

/-- Requests of a control session, each in its turn, and their replies, cut where they are long into the fragments of R482:
registers and memory are read and written, an entry of DOORBELL moves a tail, and RESET starts a reset. What fails a check
draws its code and changes none of these. Events that a read causes go after its reply. -/
def Obligations.AditAccess : Prop :=
  ∀ (h : Hdr) (x : Session) (s : State),
    InTurn s h x → x.mode = 1 →
      (∀ l, 1 ≤ l.length → l.length ≤ 128 →
        (∀ a ∈ l, regOk a = true ∧ a < Config.hfcBase ∧ a ≠ Config.memBase + 0x0210) →
        Answered s h (.regRead l) 0 (l.flatMap (fun a => leBytes 8 (s.readReg a))) (fun t => t.mem = s.mem))
      ∧ (∀ a l, regOk a = false → l.length < 128 →
        Answered s h (.regRead (a :: l)) 0x0B0A [0, 0] (fun t => t.mem = s.mem)
        ∧ (∀ v l, l.length < 128 → Answered s h (.regWrite ((a, v) :: l)) 0x0B0A [0, 0] (fun t =>
            t.mem = s.mem ∧ t.faces = s.faces ∧ t.dev = s.dev ∧ t.ctxs = s.ctxs)))
      ∧ (∀ f v, f < Config.nFaces →
        let a := Config.faceRegBase + 0x10000 * f + 0x0718
        Answered s h (.regWrite [(a, v)]) 0 [] (fun t => t.readReg a = v % 2 ^ 64 ∧ t.mem = s.mem))
      ∧ (∀ a n, 1 ≤ n → n ≤ 65536 → s.hfcCode a n = 0 → s.eccAt a n = none →
        (s.ms.softSectors = [] → Answered s h (.memRead a n 0) 0 (s.begin_.bytes a n) (fun t => t.mem = s.mem))
        ∧ ∃ t l, exec (asks h (.memRead a n 0)) s = .next t ∧ t.out = s.out ++ repliesOf h 0x22 0 (s.begin_.bytes a n) ++ l
          ∧ t.mem = s.mem)
      ∧ (∀ a n e, 1 ≤ n → n ≤ 65536 → s.hfcCode a n = 0 → s.eccAt a n = some e → ∃ t l, exec (asks h (.memRead a n 0)) s = .next t
          ∧ t.out = s.out ++ repliesOf h 0x22 e.2 [] ++ l ∧ t.mem = s.mem)
      ∧ (∀ a n c, 1 ≤ n → n ≤ 65536 → s.hfcCode a n = c → c ≠ 0 →
        Answered s h (.memRead a n 0) c [] (fun t => t.mem = s.mem))
      ∧ (∀ a l, 1 ≤ l.length → OneDatagram h (.memWrite a l) → s.hfcCode a l.length = 0 → s.partEcc a l.length = 0 →
        Answered s h (.memWrite a l) 0 [] (fun t =>
          (∀ i < l.length, (t.byte (a + i)).toNat = nth l i % 256)
          ∧ (∀ b, (b < a ∨ a + l.length ≤ b) → t.byte b = s.byte b) ∧ t.ctxs = s.ctxs ∧ t.tags = s.tags))
      ∧ (∀ q v, (s.ctx q).st ≠ .idle → unwrap32 (s.ctx q).tail (v % 2 ^ 32) < (s.ctx q).tail + 2 ^ 31 →
        unwrap32 (s.ctx q).tail (v % 2 ^ 32) - (s.ctx q).head ≤ 2 ^ (s.ctx q).ringLog2 →
        Answered s h (.doorbell [(0, q, v)]) 0 [] (fun t =>
          t.ctx q = { s.ctx q with tail := unwrap32 (s.ctx q).tail (v % 2 ^ 32) } ∧ t.mem = s.mem))
      ∧ (∀ f < Config.nFaces, s.dev.reset = none → ∃ t l, exec (asks h (.reset 1 f 0)) s = .next t
          ∧ t.out = s.out ++ repliesOf h 0x25 0 [] ++ l ∧ t.dev.reset = some ⟨1, f⟩ ∧ t.face f = { resetting := true })
      ∧ (∀ scope, scope = 4 ∨ scope = 5 → s.dev.reset = none → ∃ t, exec (asks h (.reset scope 0 0)) s = .next t
          ∧ t.out = s.out ++ repliesOf h 0x25 0 [] ∧ t.boot.st = .rom ∧ t.boot.cold = decide (scope = 5) ∧ t.host.sessions = [])
      ∧ (∀ scope i, s.dev.reset ≠ none → Answered s h (.reset scope i 0) 0x0B12 [] (fun t =>
          t.mem = s.mem ∧ t.faces = s.faces ∧ t.dev = s.dev))

/-- The other requests of a control session, each in its turn, and their replies: IMAGE_WRITE appends to staging, GRANT takes
a grant that passes its checks, EVENT_ACK and TELEMETRY_SET set their session, WINDOW_OPEN, WINDOW_CLOSE and ADDR_SET a window
and a host port; WINDOW_CLOSE has its reply once no answer of its window waits. What fails a check draws its code and changes
none of these. Telemetry and messages that are not acknowledged go out at their times. -/
def Obligations.AditSettings : Prop :=
  ∀ (h : Hdr) (x : Session) (s : State),
    (InTurn s h x → x.mode = 1 →
      (∀ off l, 1 ≤ l.length → OneDatagram h (.imageWrite off 0 l) →
          (off = s.struct.staging.length → off + l.length ≤ 0x100000 → s.struct.loadState < 2 →
            Answered s h (.imageWrite off 0 l) 0 [] (fun t =>
              t.struct = { s.struct with staging := s.struct.staging ++ l.map (· % 256), loadState := 1 } ∧ t.mem = s.mem))
          ∧ (off ≠ s.struct.staging.length → Answered s h (.imageWrite off 0 l) 0x0B0E [] (fun t => t.struct = s.struct)))
      ∧ (∀ p layer l, OneDatagram h (.grant p layer 0 l) →
          (s.grantCode p layer l = 0 → Answered s h (.grant p layer 0 l) 0 [] (fun t =>
            t.grantLog p layer (leAt l 4 4) = { shift := leAt l 4 4, stage := .accepted, stamp := s.now, body := l } ∧ t.mem = s.mem))
          ∧ (∀ c, s.grantCode p layer l = c → c ≠ 0 → Answered s h (.grant p layer 0 l) c [] (fun t =>
            t.grants = s.grants ∧ t.dev.ctr.ctr 0x0688 = s.dev.ctr.ctr 0x0688 + 1)))
      ∧ (∀ n, x.overflow = 0 → Answered s h (.eventAck n) 0 [] (fun t =>
          (t.session? h.session).map (·.unacked) = some (x.unacked.filter (fun u => !seqLe u.seq n))))
      ∧ (∀ k l, (k = 0 ∨ (14 ≤ k ∧ k ≤ 30)) → l.length ≤ 128 → (∀ a ∈ l, regOk a = true) →
          Answered s h (.telemetrySet k 0 l) 0 [] (fun t =>
            (t.session? h.session).map (fun y => (y.telePeriod, y.teleAddrs)) = some (k, l)))
      ∧ (∀ k l, OneDatagram h (.telemetrySet k 0 l) → k ≠ 0 → (k < 14 ∨ 30 < k) →
          Answered s h (.telemetrySet k 0 l) 0x0B09 [] (fun t =>
            (t.session? h.session).map (fun y => (y.telePeriod, y.teleAddrs)) = some (x.telePeriod, x.teleAddrs)))
      ∧ (∀ y, reqBodyOk (.windowOpen y) = true → s.windowCode y = 0 → ∃ qpn rkey,
          Answered s h (.windowOpen y) 0 (leBytes 4 qpn ++ leBytes 4 rkey) (fun t => t.window y.window =
            { isOpen := true, part := y.part, access := y.access, base := y.base, length := y.length, gid := y.gid,
              destQpn := y.destQpn, qpn := qpn, rkey := rkey, psn := y.startPsn % 2 ^ 24 }))
      ∧ (∀ y c, reqBodyOk (.windowOpen y) = true → s.windowCode y = c → c ≠ 0 →
          Answered s h (.windowOpen y) c [] (fun t => t.host.windows = s.host.windows))
      ∧ (∀ i < 64, (s.window i).isOpen = true → (∀ e ∈ s.host.closing, e.1 ≠ i) →
          (s.answering i = false → Answered s h (.windowClose i 0) 0 [] (fun t =>
            t.window i = { s.window i with isOpen := false, error := true }))
          ∧ (s.answering i = true → ∃ t, exec (asks h (.windowClose i 0)) s = .next t ∧ t.out = s.out
            ∧ t.window i = { s.window i with error := true }
            ∧ t.host.closing = s.host.closing ++ [(i, whole h (.windowClose i 0))]))
      ∧ (∀ i < 64, (s.window i).isOpen = false → Answered s h (.windowClose i 0) 0x0B10 [] (fun t =>
          t.host.windows = s.host.windows))
      ∧ (∀ l, addrOk (l.map (· % 256)) = true → ∃ t m, exec (asks h (.addrSet l)) s = .next t
          ∧ t.out = s.out ++ repliesOf h 0x60 0 [] ++ m
          ∧ (t.hostPort (nth l 0 % 256)).settings = l.map (· % 256)
          ∧ (t.hostPort (nth l 0 % 256)).pfcPriority = nth l 4 % 256
          ∧ (nth l 1 % 256 = 1 → t.flash.settings (nth l 0 % 256) = l.map (· % 256))
          ∧ (nth l 1 % 256 ≠ 1 → t.flash = s.flash))
      ∧ (∀ l, OneDatagram h (.addrSet l) → addrOk (l.map (· % 256)) = false → Answered s h (.addrSet l) 0x0B16 [] (fun t =>
          t.flash = s.flash)))
    ∧ (s.session? x.id = some x → s.boot.st = .ready → (s.hostPort x.port).canReach x.addr = true → x.telePeriod ≠ 0 →
        s.clk.lease % 2 ^ x.telePeriod = 0 →
        x.teleAt ≠ s.clk.lease → (∀ a ∈ x.teleAddrs, regOk a = true ∧ a ≠ Config.memBase + 0x0210) →
        ∃ t, exec (.telemetry x.id) s = .next t ∧ t.mem = s.mem
          ∧ t.out = s.out ++ [.telemetry x.to_ x.id (s.readReg Config.bellBase) (x.teleAddrs.map s.readReg)])
    ∧ (s.session? x.id = some x → s.clk.lease % 2 ^ x.telePeriod ≠ 0 → exec (.telemetry x.id) s = .next s)
    ∧ (s.session? x.id = some x → (s.hostPort x.port).canReach x.addr = true →
        ∃ t, exec (.eventResend x.id) s = .next t ∧ t.mem = s.mem
        ∧ t.out = s.out ++ (x.unacked.filter (fun u => decide (u.sentAt + 2 ^ 18 ≤ s.clk.lease))).flatMap
            (fun u => messagesOf x u.seq true u.msg)
        ∧ (t.session? x.id).map (·.unacked.map (·.seq)) = some (x.unacked.map (·.seq)))

/-- A SECURED message in one datagram, with a good MAC and one whole datagram inside, completes: it does what the request
inside does as it comes in that SPDM session. With a bad MAC it is discarded and counted. SPDM requests draw their responses,
signed, in as many datagrams as they take (their codes and fields are the model's presumption, log entries 70 and 122):
KEY_EXCHANGE begins a session, FINISH of a trusted host establishes it, HEARTBEAT keeps it alive, END_SESSION ends it and what
is bound to it. -/
def Obligations.SpdmAndSecured : Prop :=
  ∀ (h : Hdr) (id n : Nat) (s : State), WholeRequest s h → h.session = 0 → n ≤ 65536 → (h.spdm = none → n ≤ 8192) →
    let g := fun (n : Nat) => { h with fragIndex := 0, fragCount := 1, bodyLen := n }
    let gives := fun (m : SpdmMsg) (code : Nat) (body : List Nat) (ok : State → Prop) =>
      ∃ t k, exec (.spdm (g n) m) s = .next t ∧ t.mem = s.mem ∧ ok t ∧ 1 ≤ k ∧ k ≤ 8
        ∧ t.out = s.out ++ (List.range k).map fun i =>
            .spdm (hdrBack h) h.spdm code (i, k) body (Config.sign (s.boot.aliasKey.getD 0) (code :: body) s.clk.free)
    (∀ inner r, h.spdm = none → inner.fragCount = 1 → 46 + inner.bodyLen ≤ 8192 → (s.spdm? id).isSome = true →
      ∃ t, exec (.secured (g (46 + inner.bodyLen)) id true inner r) s = .next t
        ∧ exec (ofReq { inner with port := h.port, src := h.src, udp := h.udp, spdm := some id } r) s = .next t)
    ∧ (∀ inner r, ∃ t, exec (.secured (g n) id false inner r) s = .next t ∧ t.host.sessions = s.host.sessions ∧ t.out = s.out
        ∧ t.mem = s.mem ∧ t.host.ctr.ctr 0x0200 = s.host.ctr.ctr 0x0200 + 1)
    ∧ gives .getVersion 0x04 [0x12] (fun t => t.host.spdm = s.host.spdm)
    ∧ gives .getCapabilities 0x61 (leBytes 4 0x63D6) (fun t => t.host.spdm = s.host.spdm)
    ∧ (∀ nonce, gives (.getMeasurements 7 nonce) 0x60 ([7, 1, 11, 0, 0x83, 8, 0] ++ leBytes 8 s.bootStatus ++ leBytes 32 nonce)
        (fun t => t.host.spdm = s.host.spdm))
    ∧ gives (.getCertificate 1) 0x7F [] (fun t => t.host.spdm = s.host.spdm)
    ∧ (∀ period, gives (.keyExchange period) 0x64 (leBytes 4 (s.host.lastSpdm + 1) ++ [1]) (fun t =>
        t.host.spdm = s.host.spdm ++ [{ id := s.host.lastSpdm + 1, period := period }] ∧ t.host.lastSpdm = s.host.lastSpdm + 1))
    ∧ (∀ leaf spki y, s.host.spdm.find? (fun z => z.id == id && !z.established) = some y → s.trusts spki true = true →
        (s.host.spdm.filter (·.established)).length < 16 → gives (.finish id leaf spki true true) 0x65 [] (fun t =>
          (t.spdm? id).map (·.leaf) = some leaf))
    ∧ (∀ leaf spki chainOk, s.trusts spki chainOk = false → gives (.finish id leaf spki chainOk true) 0x7F [] (fun t =>
          t.host.sessions = s.host.sessions ∧ ∀ k, t.spdm? k = s.spdm? k ∨ k = id))
    ∧ (h.spdm = some id → (s.spdm? id).isSome = true →
        gives (.heartbeat id) 0x68 [] (fun t => (t.spdm? id).map (·.heard) = some s.clk.lease)
        ∧ ∃ t, exec (.spdm (g n) (.endSession id)) s = .next t ∧ t.spdm? id = none ∧ t.mem = s.mem
          ∧ ∀ z ∈ t.host.sessions, z.spdm ≠ some id)

/-- RoCEv2 and the host ports of a part in READY. A write through a window that allows it, with its R_Key and in packet order,
is written and acknowledged, with a CNP for each packet that is marked; a read returns the bytes, after the events of
corrected sectors that it has met; a request beyond the window, or with another R_Key, breaks its queue pair with a NAK and
writes nothing; a CNP halves the read rate, which comes back by a sixteenth of the port rate at each 16,384th bell tick.
Neighbour packets are answered where the port has the address; frames that a port discards are counted; priority flow control
pauses the packets of a port and lets them go again, those of a window's partition in their order, and among partitions by
their weights (log entry 91). A row may also send a PFC frame (log entry 123). -/
def Obligations.HostPortsAndWindows : Prop :=
  ∀ (port i key psn va len ecn : Nat) (data : List Nat) (s : State), port < 2 → i < 64 → s.boot.st = .ready →
    s.ms.repairEn = false →
    let x := s.window i
    let cnps := List.replicate ecn (RocePkt.mk i 4 (psn % 2 ^ 24) [])
    let after := fun (events : List Out) (t : State) (l : List RocePkt) => ∃ m, t.out = s.out ++ events ++ l.map (.roce port) ++ m
      ∧ ∀ o ∈ m, ∃ b, o = Out.pfc port (s.hostPort port).pfcPriority b
    let sends := after []
    let flows := (s.hostPort port).paused = false ∧ (s.hostPort port).canReach x.gid = true
    let ready := x.isOpen = true ∧ x.error = false ∧ psn < 2 ^ 24 ∧ x.psn = psn
    (ready → flows → key = x.rkey → bit x.access 0 = true → va + data.length ≤ x.length →
      ∀ imm, ∃ t, exec (.rdmaWrite port i key psn va data imm ecn) s = .next t ∧ sends t (cnps ++ [⟨i, 0, psn, []⟩])
        ∧ (∀ k < data.length, (t.byte (x.base + va + k)).toNat = nth data k % 256)
        ∧ (∀ a, (a < x.base + va ∨ x.base + va + data.length ≤ a) → t.byte a = s.byte a)
        ∧ (t.window i).psn = (psn + max 1 (ceilDiv data.length 4096)) % 2 ^ 24 ∧ t.ctxs = s.ctxs ∧ t.tags = s.tags)
    ∧ (ready → (s.hostPort port).paused = true → key = x.rkey → bit x.access 0 = true → va + data.length ≤ x.length →
      ∀ imm, ∃ t, exec (.rdmaWrite port i key psn va data imm ecn) s = .next t ∧ sends t []
        ∧ (t.hostPort port).roceq = (s.hostPort port).roceq ++ cnps ++ [⟨i, 0, psn, []⟩])
    ∧ (ready → flows → (key ≠ x.rkey ∨ bit x.access 0 = false ∨ x.length < va + data.length) →
      ∀ imm, ∃ t, exec (.rdmaWrite port i key psn va data imm ecn) s = .next t ∧ sends t (cnps ++ [⟨i, 3, psn, []⟩])
        ∧ t.mem = s.mem ∧ (t.window i).error = true ∧ t.host.ctr.ctr 0x0218 = s.host.ctr.ctr 0x0218 + 1)
    ∧ (ready → flows → key = x.rkey → bit x.access 1 = true → va + len ≤ x.length → s.eccAt (x.base + va) len = none →
      s.readsOut i < 16 →
      ∃ t events, exec (.rdmaRead port i key psn va len ecn) s = .next t ∧ t.mem = s.mem
        ∧ (s.ms.softSectors = [] → events = [])
        ∧ (∀ o ∈ events, ∃ d id seq again frag m, o = Out.message d id seq again frag m)
        ∧ after events t (cnps ++ [⟨i, 1, psn, s.begin_.bytes (x.base + va) len⟩]))
    ∧ (flows → psn < 2 ^ 24 → ∃ t, exec (.roceInvalidRequest port i psn ecn) s = .next t ∧ t.mem = s.mem
        ∧ sends t (cnps ++ [⟨i, 2, psn, []⟩]) ∧ t.host.windows = s.host.windows)
    ∧ (x.isOpen = true → ∃ t, exec (.cnpReceive port i) s = .next t ∧ t.window i = { x with rateLog := x.rateLog + 1 }
        ∧ sends t [])
    ∧ (s.bell.st.counts = true → s.clk.bell % 16384 = 0 → s.host.restoredAt ≠ some s.clk.bell → x.isOpen = true →
      ∃ t, exec .roceRateRestore s = .next t ∧ t.mem = s.mem
        ∧ (16 * 2 ^ x.rateLog ≤ 16 * x.rate + 2 ^ x.rateLog → (t.window i).rate = 1 ∧ (t.window i).rateLog = 0)
        ∧ (16 * x.rate + 2 ^ x.rateLog < 16 * 2 ^ x.rateLog →
            16 * (t.window i).rate * 2 ^ x.rateLog = 2 ^ (t.window i).rateLog * (16 * x.rate + 2 ^ x.rateLog)))
    ∧ (s.clk.bell % 16384 ≠ 0 → exec .roceRateRestore s = .next s)
    ∧ (∀ k, (k = .neighborSolicit ∨ k = .icmpv6Echo ∨ (s.hostPort port).v4 ≠ 0) →
        ∃ t, exec (.neighborPacket port k) s = .next t ∧ t.out = s.out ++ [.neighbor port k] ∧ t.mem = s.mem)
    ∧ (∀ k, k = .arp ∨ k = .icmpEcho → (s.hostPort port).v4 = 0 → ∃ t, exec (.neighborPacket port k) s = .next t
        ∧ t.out = s.out ∧ (t.hostPort port).ctr.ctr 0x08 = (s.hostPort port).ctr.ctr 0x08 + 1)
    ∧ (∀ f, ∃ t, exec (.hostPacketDiscard port f) s = .next t ∧ t.out = s.out ∧ t.mem = s.mem
        ∧ (t.hostPort port).ctr.ctr 0x10 = (s.hostPort port).ctr.ctr 0x10 + BitVec.ofNat 64 f.size
        ∧ (t.hostPort port).ctr.ctr 0x08 = (s.hostPort port).ctr.ctr 0x08 + (if (s.hostPort port).discards f then 1 else 0))
    ∧ (∀ up fec uncorr, ∃ t, exec (.hostLinkChange port up fec uncorr) s = .next t
        ∧ (t.hostPort port).linkUp = up ∧ (t.hostPort port).fecLocked = fec
        ∧ (t.hostPort port).ctr.ctr 0x20 = (s.hostPort port).ctr.ctr 0x20 + BitVec.ofNat 64 uncorr
        ∧ (∀ k, k ≠ port → t.hostPort k = s.hostPort k)
        ∧ { t with host := { t.host with ports := s.host.ports } } = s)
    ∧ ((s.hostPort port).pfcPriority < 8 →
        (∃ t, exec (.pfcFrameReceive port (s.hostPort port).pfcPriority true) s = .next t ∧ (t.hostPort port).paused = true
          ∧ t.out = s.out)
        ∧ ((∀ k ∈ (s.hostPort port).roceq, (s.hostPort port).canReach (s.window k.window).gid = true) → s.host.closing = [] →
          ∃ t, exec (.pfcFrameReceive port (s.hostPort port).pfcPriority false) s = .next t ∧ (t.hostPort port).paused = false
            ∧ (t.hostPort port).roceq = [] ∧ ∃ l : List RocePkt, t.out = s.out ++ l.map (.roce port) ∧ l.Perm (s.hostPort port).roceq
            ∧ l.head? = s.roceNext port [] (s.hostPort port).roceq
            ∧ ∀ p, l.filter (fun k => s.rocePart k == p) = (s.hostPort port).roceq.filter (fun k => s.rocePart k == p)))


/-! ## Flash and boot -/

/-- Flash operations: each starts one that runs until it completes, and changes no flash before; while one runs another is
only recorded with 0x0931. FW_COMMIT with no trial running, PLAN_SAVE without a committed plan and a source that cannot be
read end with their codes, and change no flash. One that ends with code 0 has done what it was for. The code of FW_STAGE where
no slot is free to write is not stated (log entry 5). -/
def Obligations.FlashOperations : Prop :=
  ∀ s : State, s.boot.st.serves = true →
    let starts := fun (i : Instr) (op : Nat) (ok : FlashJob → Prop) =>
      (∀ j, s.boot.flashJob = some j → exec i s = .next { s with boot := { s.boot with flashCode := 0x0931 } })
      ∧ (s.boot.flashJob = none → ∃ t j, exec i s = .next t ∧ t.boot.flashJob = some j ∧ j.op = op ∧ ok j ∧ t.flash = s.flash
          ∧ t.mem = s.mem)
    starts .fwStage 1 (fun j => (j.code = 0 ∨ (0x0901 ≤ j.code ∧ j.code < 0x0A00))
        ∧ (s.begin_.flashSource s.boot.flashAddr.toNat s.boot.flashLen.toNat = false → j.code = 0x0935))
    ∧ starts .fwCommit 2 (fun j => j.code = if s.boot.st = .ready ∧ ∃ e ∈ s.flash.fw, e.2.st = .trialRunning then 0 else 0x0932)
    ∧ starts .planSave 3 (fun j => (s.struct.source = 2 → j.code = 0 ∧ j.data = s.struct.plan.image)
        ∧ (s.struct.source ≠ 2 → j.code = 0x0933))
    ∧ starts .planClear 4 (fun j => j.code = 0)
    ∧ starts .anchorAdd 5 (fun j => (s.begin_.flashSource s.boot.flashAddr.toNat 48 = false → j.code = 0x0935)
        ∧ (s.begin_.flashSource s.boot.flashAddr.toNat 48 = true → 8 ≤ s.flash.anchors.length → j.code = 0x0934)
        ∧ (s.begin_.flashSource s.boot.flashAddr.toNat 48 = true → s.flash.anchors.length < 8 →
            j.code = 0 ∧ j.data = s.begin_.bytes s.boot.flashAddr.toNat 48))
    ∧ starts .anchorClear 6 (fun j => j.code = 0)
    ∧ (∀ j, s.boot.flashJob = some j → ∃ t, exec .flashOpComplete s = .next t ∧ t.boot.flashJob = none
        ∧ t.boot.flashCode = j.code ∧ t.mem = s.mem
        ∧ (j.code ≠ 0 → t.flash = s.flash)
        ∧ (∀ i, j.code = 0 → j.op = 1 → s.flash.stageSlot (leAt j.data 5 1) = some i → (t.fw i).st = .trialPending
          ∧ (t.fw i).image = j.data)
        ∧ (j.code = 0 → j.op = 2 → (∀ e ∈ t.flash.fw, e.2.st ≠ .trialRunning)
            ∧ (∀ e ∈ s.flash.fw, e.2.st = .trialRunning → (e.1, e.2.goes .active) ∈ t.flash.fw)
            ∧ s.flash.hfRollback ≤ t.flash.hfRollback ∧ s.flash.fabRollback ≤ t.flash.fabRollback
            ∧ (∀ i < 2, (s.fw i).st = .trialRunning → fwSec (s.fw i).image ≤ t.flash.hfRollback)
            ∧ (∀ i, i = 2 ∨ i = 3 → (s.fw i).st = .trialRunning → fwSec (s.fw i).image ≤ t.flash.fabRollback))
        ∧ (j.code = 0 → j.op = 3 → (t.flash.planSel = some 0 ∧ t.flash.planA = j.data) ∨
            (t.flash.planSel = some 1 ∧ t.flash.planB = j.data ∧ t.flash.planA = s.flash.planA))
        ∧ (j.code = 0 → j.op = 4 → t.flash.planSel = none)
        ∧ (j.code = 0 → j.op = 5 → t.flash.anchors = s.flash.anchors ++ [leNat j.data])
        ∧ (j.code = 0 → j.op = 6 → t.flash.anchors = []))
    ∧ (s.boot.flashJob = none → exec .flashOpComplete s = .next s)

/-- The boot: mask ROM tests itself and its identity, which gives the keys of its die from the PUF's helper data (log entry
114); the first headframe image in order that passes runs, then the first fabric image that passes and pairs with it, then the
plan is loaded: the saved one that passes, or the default, with an image that fails after its check word left staged (log
entry 62); the failures end in HALTED, RECOVERY and LIMITED with their codes. Verification of the headframe makes the alias
key from its digest, erases the seed and DevID key and locks the PUF. Each stage moves only from its own state. -/
def Obligations.BootStages : Prop :=
  ∀ (badRead : Nat) (s : State),
    let attested := fun (b : Boot) (digest : List Nat) (version sec : Nat) =>
      let cdi := hmac384 s.boot.devidSeed digest
      b.cdi = cdi ∧ b.aliasKey = some (Config.ecPrivate cdi) ∧ b.devidSeed = [] ∧ b.devidKey = none ∧ b.pufLocked = true
        ∧ b.aliasCert = { version := version, sec := sec, corePair := s.boot.corePair, key := ecPublic (Config.ecPrivate cdi)
                          signer := s.boot.devidPub }
    (s.boot.st = .rom →
      (∀ b, exec (.romSelfTestComplete true b) s = .next { s with boot := { s.boot with st := .identity } })
      ∧ exec (.romSelfTestComplete false true) s = .next { s with
          boot := { s.boot with st := .identity, code := 0x0940, corePair := 1 } }
      ∧ ∃ t, exec (.romSelfTestComplete false false) s = .next t
        ∧ t.boot = { s.boot with st := .halted, code := 0x0941 } ∧ ∀ a, Config.hbmEnd ≤ a → t.byte a = s.byte a)
    ∧ (s.boot.st = .identity →
      let d := identityOf s.boot.corePair (s.flash.helper.getD s.boot.corePair [])
      let fits := s.flash.fits s.boot.corePair d
      (fits = true → exec (.identityComplete true) s = .next { s with boot := { s.boot with
        st := .hfVerify, devidSeed := d.seed, devidKey := some d.key, devidPub := d.pub, flashKey := d.flash } })
      ∧ ∀ ok, (ok = false ∨ fits = false) → ∃ t, exec (.identityComplete ok) s = .next t
        ∧ t.boot = { s.boot with st := .halted, code := 0x0906 } ∧ ∀ a, Config.hbmEnd ≤ a → t.byte a = s.byte a)
    ∧ (s.boot.st = .hfVerify →
      (∀ i l, s.fwOrder 1 = i :: l → s.slotCode badRead 1 i = 0 → ∃ t, exec (.hfVerifyComplete badRead) s = .next t
        ∧ t.boot.st = .hfStart ∧ t.boot.hfSlot = i ∧ t.boot.hfImage = (s.fw i).image
        ∧ attested t.boot (sha384 (fwMessage (s.fw i).image)) (fwVersion (s.fw i).image) (fwSec (s.fw i).image)
        ∧ (t.fw i).st = (if (s.fw i).st = .trialPending then .trialRunning else (s.fw i).st) ∧ t.mem = s.mem)
      ∧ ((∀ i ∈ s.fwOrder 1, s.slotCode badRead 1 i ≠ 0) → ∃ t, exec (.hfVerifyComplete badRead) s = .next t
        ∧ t.boot.st = .recovery ∧ t.boot.code = 0x0910 ∧ t.mem = s.mem ∧ attested t.boot (List.replicate 48 0) 0 0))
    ∧ (∀ fails, s.boot.st = .hfStart →
      (∀ i l, s.fwOrder 2 = i :: l → s.slotCode badRead 2 i = 0 → fwPairs s.boot.hfImage (s.fw i).image = true →
        ∃ t, exec (.hfStartComplete badRead fails) s = .next t ∧ t.boot.st = .plan ∧ t.boot.fabSlot = i - 2
          ∧ t.boot.fabImage = (s.fw i).image ∧ (s.boot.cold = false → t.mem = s.mem))
      ∧ ((∀ i ∈ s.fwOrder 2, s.slotCode badRead 2 i ≠ 0) → ∃ t, exec (.hfStartComplete badRead fails) s = .next t
          ∧ t.boot.st = .limited ∧ t.boot.code = 0x0920 ∧ t.struct.plan = romPlan))
    ∧ (s.boot.st = .plan →
      (s.flash.planSel = none → ∃ t, exec .planLoadComplete s = .next t ∧ t.boot.st = .ready ∧ t.struct.plan = romPlan
        ∧ t.struct.source = 0 ∧ t.host.reservedUntil = s.flash.claimant.map (fun _ => s.clk.lease + 2 ^ 32))
      ∧ (∀ k, s.flash.planSel = some k →
          let img := if k = 0 then s.flash.planA else s.flash.planB
          vCheckWord img = none → vRest img s.usable s.pwr.feed = none →
          ∃ t, exec .planLoadComplete s = .next t ∧ t.boot.st = .ready ∧ t.struct.plan = readPlan img ∧ t.struct.source = 1)
      ∧ (∀ k f, s.flash.planSel = some k →
          let img := if k = 0 then s.flash.planA else s.flash.planB
          vCheckWord img = none → vRest img s.usable s.pwr.feed = some f →
          ∃ t, exec .planLoadComplete s = .next t ∧ t.boot.st = .ready ∧ t.struct.plan = romPlan ∧ t.struct.source = 0
            ∧ t.struct.staging = img ∧ t.struct.rejected = true ∧ t.struct.faultCode = f.code)
      ∧ (∀ k f, s.flash.planSel = some k → vCheckWord (if k = 0 then s.flash.planA else s.flash.planB) = some f →
          ∃ t, exec .planLoadComplete s = .next t ∧ t.boot.st = .ready ∧ t.struct.plan = romPlan ∧ t.struct.source = 0
            ∧ t.struct.defaulted = true ∧ t.struct.rejected = true ∧ t.struct.faultCode = f.code))
    ∧ (∀ a b, s.boot.st ≠ .rom → exec (.romSelfTestComplete a b) s = .next s)
    ∧ (∀ ok, s.boot.st ≠ .identity → exec (.identityComplete ok) s = .next s)
    ∧ (s.boot.st ≠ .hfVerify → exec (.hfVerifyComplete badRead) s = .next s)
    ∧ (∀ fails, s.boot.st ≠ .hfStart → exec (.hfStartComplete badRead fails) s = .next s)
    ∧ (s.boot.st ≠ .plan → exec .planLoadComplete s = .next s)


/-! ## Pins, power, heat -/

/-- Supply, trips, RESET_N and the reference clock: with everything good a part that is off starts its boot; a trip, the loss
of VIN, of RESET_N or of the clock turns it off, and a trip's code is kept in flash until the next start shows it. A trip ends
with the tick in which VIN has been away for 1 s or RESET_N low for 1 ms, and the rails come up where VIN is good (ticks: log
entry 8). -/
def Obligations.SupplyAndTrips : Prop :=
  ∀ (straps : Nat) (s : State),
    let off := fun (i : Instr) (ok : State → Prop) => ∃ t, exec i s = .next t ∧ t.boot.st = .off ∧ t.flights = [] ∧ t.ctxs = []
      ∧ t.host.sessions = [] ∧ t.struct = {} ∧ ok t
    let risen := { s.pwr with
      vin := true, undervolt := false, away := 0, straps := if s.pwr.latched then s.pwr.straps else straps % 16 }
    (s.pwr.pwrGood = true ∨ s.pwr.tripped ≠ 0 → exec (.vinRise straps) s = .next { s with pwr := risen })
    ∧ (s.pwr.pwrGood = false → s.pwr.tripped = 0 →
      ∃ t, exec (.vinRise straps) s = .next t ∧ t.pwr.pwrGood = true ∧ t.pwr.vin = true ∧ t.pwr.lastTrip = s.flash.tripCode
        ∧ t.flash.tripCode = 0 ∧ t.pwr.latched = true ∧ t.pwr.straps = risen.straps ∧ t.mem = s.mem
        ∧ t.boot.st = (if s.boot.st = .off ∧ s.pwr.resetN = true ∧ s.pwr.refclk = true then .rom else s.boot.st))
    ∧ (s.pwr.pwrGood = true → s.pwr.vin = true → ∃ t, exec .vinLow s = .next t ∧ t.pwr.undervolt = true ∧ t.pwr.smbAlert = true
        ∧ t.mem = s.mem ∧ t.boot = s.boot ∧ t.ctxs = s.ctxs)
    ∧ (s.pwr.pwrGood = true → off .undervoltageTrip (fun t => t.pwr.tripped = 0x0A21 ∧ t.pwr.pwrGood = false
        ∧ t.flash.tripCode = 0x0A21 ∧ t.pwr.undervolt = true))
    ∧ (s.pwr.pwrGood = true → off .overcurrentTrip (fun t => t.pwr.tripped = 0x0A22 ∧ t.pwr.pwrGood = false
        ∧ t.flash.tripCode = 0x0A22))
    ∧ (s.pwr.released = false → s.pwr.brakeN = true →
      exec .brakeNAssert s = .next { s with pwr := { s.pwr with brakeN := false } })
    ∧ off .vinRemove (fun t => t.pwr.vin = false ∧ t.pwr.pwrGood = false ∧ t.pwr.latched = false)
    ∧ off .resetNAssert (fun t => t.pwr.resetN = false)
    ∧ off .refclkLoss (fun t => t.pwr.refclk = false)
    ∧ (s.boot.st = .off → s.pwr.vin = true → s.pwr.pwrGood = true → s.pwr.refclk = true → s.pwr.tripped = 0 →
      exec .resetNRelease s = .next { s with pwr := { s.pwr with resetN := true, low := 0 }, boot := { s.boot with st := .rom } })
    ∧ (s.boot.st = .off → s.pwr.vin = true → s.pwr.pwrGood = true → s.pwr.resetN = true → s.pwr.tripped = 0 →
      exec .refclkRecover s = .next { s with pwr := { s.pwr with refclk := true }, boot := { s.boot with st := .rom } })
    ∧ (s.pwr.pwrGood = false →
      exec .resetNRelease s = .next { s with pwr := { s.pwr with resetN := true, low := 0 } }
      ∧ exec .refclkRecover s = .next { s with pwr := { s.pwr with refclk := true } })
    ∧ (s.pending = [] → s.pwr.tripped ≠ 0 → ¬ TripEnds s → ∃ t, step s = .next t ∧ t.pwr.tripped = s.pwr.tripped
        ∧ t.pwr.pwrGood = s.pwr.pwrGood ∧ t.pwr.away = s.pwr.away + b2n (!s.pwr.vin) ∧ t.pwr.low = s.pwr.low + b2n (!s.pwr.resetN))
    ∧ (s.pending = [] → TripEnds s → s.pwr.pwrGood = false → ∃ t, step s = .next t ∧ t.pwr.tripped = 0
        ∧ t.pwr.pwrGood = (s.pwr.vin && !s.pwr.undervolt)
        ∧ (s.pwr.vin = true → s.pwr.undervolt = false → t.pwr.lastTrip = s.flash.tripCode ∧ t.flash.tripCode = 0
          ∧ t.boot.st = (if s.boot.st = .off ∧ s.pwr.resetN = true ∧ s.pwr.refclk = true then .rom else s.boot.st)))

/-- The governor and heat: of a module that is out of reset BRAKE_N limits the duty to 4, and at each sample the duty falls by
1 above the cap and rises by 1 below 97 % of it, up to the ceiling of the thermal level; a level that is reached lowers the
duty to its ceiling and drives THERM_N low, and the highest turns the part off. The SMBus answers four reads and refuses every
write while PWR_GOOD is released. -/
def Obligations.GovernorAndHeat : Prop :=
  ∀ (pinW vinMv iin cmd : Nat) (r : Temps) (s : State), s.pwr.pwrGood = true →
    (s.pwr.released = true → s.pwr.brakeN = true → ∃ t, exec .brakeNAssert s = .next t ∧ t.pwr.brakeN = false ∧ t.pwr.duty = min s.pwr.duty 4
      ∧ t.pwr.smbAlert = true ∧ t.mem = s.mem)
    ∧ (s.pwr.brakeN = false → exec .brakeNAssert s = .next s)
    ∧ exec .brakeNRelease s = .next { s with pwr := { s.pwr with brakeN := true } }
    ∧ (s.pwr.released = true → s.clk.lease % 2500 = 0 → s.pwr.sampledAt ≠ some s.clk.lease →
      ∃ t, exec (.governorSample pinW vinMv iin) s = .next t ∧ t.pwr.pinW = pinW
      ∧ t.pwr.energy = s.pwr.energy + pinW ∧ t.mem = s.mem
      ∧ (s.pwr.cap < pinW → t.pwr.duty = max 1 (s.pwr.duty - 1))
      ∧ (pinW * 100 < s.pwr.cap * 97 → t.pwr.duty = min s.pwr.therm.ceiling (s.pwr.duty + 1))
      ∧ (pinW ≤ s.pwr.cap → s.pwr.cap * 97 ≤ pinW * 100 → t.pwr.duty = s.pwr.duty))
    ∧ (s.pwr.released = false ∨ s.clk.lease % 2500 ≠ 0 ∨ s.pwr.sampledAt = some s.clk.lease → exec (.governorSample pinW vinMv iin) s = .next s)
    ∧ (tempReaches r 115 105 = true → ∃ t, exec (.thermalLevelRise r) s = .next t ∧ t.boot.st = .off ∧ t.pwr.tripped = 0x0A20
      ∧ t.pwr.pwrGood = false)
    ∧ (tempReaches r 115 105 = false → s.pwr.therm.code < (tempLevel r).code → ∃ t, exec (.thermalLevelRise r) s = .next t
      ∧ t.pwr.therm = tempLevel r ∧ t.pwr.duty = min s.pwr.duty (tempLevel r).ceiling ∧ t.pwr.temps = r ∧ t.mem = s.mem
      ∧ t.boot = s.boot ∧ t.pwr.thermN = false)
    ∧ ((tempCooled r).code < s.pwr.therm.code → ∃ t, exec (.thermalLevelFall r) s = .next t ∧ t.pwr.therm = tempCooled r
      ∧ t.pwr.thermN = decide (tempCooled r = .normal) ∧ t.pwr.temps = r ∧ t.mem = s.mem)
    ∧ (∃ t, exec .inletHigh s = .next t ∧ t.pwr.inletHigh = true ∧ t.pwr.smbAlert = true ∧ t.mem = s.mem ∧ t.pwr.duty = s.pwr.duty)
    ∧ exec .smbusReadStatus s = .next { s with
        pwr := { s.pwr with smbAlert := false }, out := s.out ++ [.smbus (BitVec.ofNat 64 (s.readReg (Config.devBase + 0x0C00)))] }
    ∧ exec .smbusReadInput s = .next { s with
        out := s.out ++ [.smbus (BitVec.ofNat 64 (s.readReg (Config.devBase + 0x0C08)))] }
    ∧ exec .smbusReadTemp s = .next { s with
        out := s.out ++ [.smbus (BitVec.ofNat 64 (s.readReg (Config.devBase + 0x0C10)))] }
    ∧ exec .smbusReadId s = .next { s with out := s.out ++ [.smbus (BitVec.ofNat 64 (s.readReg Config.devBase))] }
    ∧ exec (.smbusWrite cmd) s = .next { s with out := s.out ++ [.smbusNack] }
end

