-- ==== Sys2Proof/Laws/State.lean ====
section
/-! SUPPORT. Each update of the working state, field by field, and how a command begins and ends: no later proof unfolds a
record update. -/

namespace Sys2Proof.Machine

/-! ## `Work.modPart` -/

@[simp] theorem Work.modPart_clk (w : Work) (p : Nat) (f : Part → Part) : (w.modPart p f).clk = w.clk := rfl
@[simp] theorem Work.modPart_bell (w : Work) (p : Nat) (f : Part → Part) : (w.modPart p f).bell = w.bell := rfl
@[simp] theorem Work.modPart_ms (w : Work) (p : Nat) (f : Part → Part) : (w.modPart p f).ms = w.ms := rfl
@[simp] theorem Work.modPart_struct (w : Work) (p : Nat) (f : Part → Part) : (w.modPart p f).struct = w.struct := rfl
@[simp] theorem Work.modPart_dev (w : Work) (p : Nat) (f : Part → Part) : (w.modPart p f).dev = w.dev := rfl
@[simp] theorem Work.modPart_parts (w : Work) (p : Nat) (f : Part → Part) : (w.modPart p f).parts = w.parts.upd {} p f := rfl
@[simp] theorem Work.modPart_ctxs (w : Work) (p : Nat) (f : Part → Part) : (w.modPart p f).ctxs = w.ctxs := rfl
@[simp] theorem Work.modPart_tags (w : Work) (p : Nat) (f : Part → Part) : (w.modPart p f).tags = w.tags := rfl
@[simp] theorem Work.modPart_descs (w : Work) (p : Nat) (f : Part → Part) : (w.modPart p f).descs = w.descs := rfl
@[simp] theorem Work.modPart_flights (w : Work) (p : Nat) (f : Part → Part) : (w.modPart p f).flights = w.flights := rfl
@[simp] theorem Work.modPart_faces (w : Work) (p : Nat) (f : Part → Part) : (w.modPart p f).faces = w.faces := rfl
@[simp] theorem Work.modPart_gals (w : Work) (p : Nat) (f : Part → Part) : (w.modPart p f).gals = w.gals := rfl
@[simp] theorem Work.modPart_ports (w : Work) (p : Nat) (f : Part → Part) : (w.modPart p f).ports = w.ports := rfl
@[simp] theorem Work.modPart_fab (w : Work) (p : Nat) (f : Part → Part) : (w.modPart p f).fab = w.fab := rfl
@[simp] theorem Work.modPart_txns (w : Work) (p : Nat) (f : Part → Part) : (w.modPart p f).txns = w.txns := rfl
@[simp] theorem Work.modPart_rings (w : Work) (p : Nat) (f : Part → Part) : (w.modPart p f).rings = w.rings := rfl
@[simp] theorem Work.modPart_collIn (w : Work) (p : Nat) (f : Part → Part) : (w.modPart p f).collIn = w.collIn := rfl
@[simp] theorem Work.modPart_grants (w : Work) (p : Nat) (f : Part → Part) : (w.modPart p f).grants = w.grants := rfl
@[simp] theorem Work.modPart_books (w : Work) (p : Nat) (f : Part → Part) : (w.modPart p f).books = w.books := rfl
@[simp] theorem Work.modPart_host (w : Work) (p : Nat) (f : Part → Part) : (w.modPart p f).host = w.host := rfl
@[simp] theorem Work.modPart_boot (w : Work) (p : Nat) (f : Part → Part) : (w.modPart p f).boot = w.boot := rfl
@[simp] theorem Work.modPart_flash (w : Work) (p : Nat) (f : Part → Part) : (w.modPart p f).flash = w.flash := rfl
@[simp] theorem Work.modPart_pwr (w : Work) (p : Nat) (f : Part → Part) : (w.modPart p f).pwr = w.pwr := rfl
@[simp] theorem Work.modPart_out (w : Work) (p : Nat) (f : Part → Part) : (w.modPart p f).out = w.out := rfl
@[simp] theorem Work.modPart_mem (w : Work) (p : Nat) (f : Part → Part) : (w.modPart p f).mem = w.mem := rfl
@[simp] theorem Work.modPart_wr (w : Work) (p : Nat) (f : Part → Part) : (w.modPart p f).wr = w.wr := rfl

/-! ## `Work.modCtx` -/

@[simp] theorem Work.modCtx_clk (w : Work) (q : Nat) (f : Ctx → Ctx) : (w.modCtx q f).clk = w.clk := rfl
@[simp] theorem Work.modCtx_bell (w : Work) (q : Nat) (f : Ctx → Ctx) : (w.modCtx q f).bell = w.bell := rfl
@[simp] theorem Work.modCtx_ms (w : Work) (q : Nat) (f : Ctx → Ctx) : (w.modCtx q f).ms = w.ms := rfl
@[simp] theorem Work.modCtx_struct (w : Work) (q : Nat) (f : Ctx → Ctx) : (w.modCtx q f).struct = w.struct := rfl
@[simp] theorem Work.modCtx_dev (w : Work) (q : Nat) (f : Ctx → Ctx) : (w.modCtx q f).dev = w.dev := rfl
@[simp] theorem Work.modCtx_parts (w : Work) (q : Nat) (f : Ctx → Ctx) : (w.modCtx q f).parts = w.parts := rfl
@[simp] theorem Work.modCtx_ctxs (w : Work) (q : Nat) (f : Ctx → Ctx) : (w.modCtx q f).ctxs = w.ctxs.upd {} q f := rfl
@[simp] theorem Work.modCtx_tags (w : Work) (q : Nat) (f : Ctx → Ctx) : (w.modCtx q f).tags = w.tags := rfl
@[simp] theorem Work.modCtx_descs (w : Work) (q : Nat) (f : Ctx → Ctx) : (w.modCtx q f).descs = w.descs := rfl
@[simp] theorem Work.modCtx_flights (w : Work) (q : Nat) (f : Ctx → Ctx) : (w.modCtx q f).flights = w.flights := rfl
@[simp] theorem Work.modCtx_faces (w : Work) (q : Nat) (f : Ctx → Ctx) : (w.modCtx q f).faces = w.faces := rfl
@[simp] theorem Work.modCtx_gals (w : Work) (q : Nat) (f : Ctx → Ctx) : (w.modCtx q f).gals = w.gals := rfl
@[simp] theorem Work.modCtx_ports (w : Work) (q : Nat) (f : Ctx → Ctx) : (w.modCtx q f).ports = w.ports := rfl
@[simp] theorem Work.modCtx_fab (w : Work) (q : Nat) (f : Ctx → Ctx) : (w.modCtx q f).fab = w.fab := rfl
@[simp] theorem Work.modCtx_txns (w : Work) (q : Nat) (f : Ctx → Ctx) : (w.modCtx q f).txns = w.txns := rfl
@[simp] theorem Work.modCtx_rings (w : Work) (q : Nat) (f : Ctx → Ctx) : (w.modCtx q f).rings = w.rings := rfl
@[simp] theorem Work.modCtx_collIn (w : Work) (q : Nat) (f : Ctx → Ctx) : (w.modCtx q f).collIn = w.collIn := rfl
@[simp] theorem Work.modCtx_grants (w : Work) (q : Nat) (f : Ctx → Ctx) : (w.modCtx q f).grants = w.grants := rfl
@[simp] theorem Work.modCtx_books (w : Work) (q : Nat) (f : Ctx → Ctx) : (w.modCtx q f).books = w.books := rfl
@[simp] theorem Work.modCtx_host (w : Work) (q : Nat) (f : Ctx → Ctx) : (w.modCtx q f).host = w.host := rfl
@[simp] theorem Work.modCtx_boot (w : Work) (q : Nat) (f : Ctx → Ctx) : (w.modCtx q f).boot = w.boot := rfl
@[simp] theorem Work.modCtx_flash (w : Work) (q : Nat) (f : Ctx → Ctx) : (w.modCtx q f).flash = w.flash := rfl
@[simp] theorem Work.modCtx_pwr (w : Work) (q : Nat) (f : Ctx → Ctx) : (w.modCtx q f).pwr = w.pwr := rfl
@[simp] theorem Work.modCtx_out (w : Work) (q : Nat) (f : Ctx → Ctx) : (w.modCtx q f).out = w.out := rfl
@[simp] theorem Work.modCtx_mem (w : Work) (q : Nat) (f : Ctx → Ctx) : (w.modCtx q f).mem = w.mem := rfl
@[simp] theorem Work.modCtx_wr (w : Work) (q : Nat) (f : Ctx → Ctx) : (w.modCtx q f).wr = w.wr := rfl

/-! ## `Work.setTag` -/

@[simp] theorem Work.setTag_clk (w : Work) (t : Nat) (v : W32) : (w.setTag t v).clk = w.clk := rfl
@[simp] theorem Work.setTag_bell (w : Work) (t : Nat) (v : W32) : (w.setTag t v).bell = w.bell := rfl
@[simp] theorem Work.setTag_ms (w : Work) (t : Nat) (v : W32) : (w.setTag t v).ms = w.ms := rfl
@[simp] theorem Work.setTag_struct (w : Work) (t : Nat) (v : W32) : (w.setTag t v).struct = w.struct := rfl
@[simp] theorem Work.setTag_dev (w : Work) (t : Nat) (v : W32) : (w.setTag t v).dev = w.dev := rfl
@[simp] theorem Work.setTag_parts (w : Work) (t : Nat) (v : W32) : (w.setTag t v).parts = w.parts := rfl
@[simp] theorem Work.setTag_ctxs (w : Work) (t : Nat) (v : W32) : (w.setTag t v).ctxs = w.ctxs := rfl
@[simp] theorem Work.setTag_tags (w : Work) (t : Nat) (v : W32) : (w.setTag t v).tags = w.tags.set 0 t v := rfl
@[simp] theorem Work.setTag_descs (w : Work) (t : Nat) (v : W32) : (w.setTag t v).descs = w.descs := rfl
@[simp] theorem Work.setTag_flights (w : Work) (t : Nat) (v : W32) : (w.setTag t v).flights = w.flights := rfl
@[simp] theorem Work.setTag_faces (w : Work) (t : Nat) (v : W32) : (w.setTag t v).faces = w.faces := rfl
@[simp] theorem Work.setTag_gals (w : Work) (t : Nat) (v : W32) : (w.setTag t v).gals = w.gals := rfl
@[simp] theorem Work.setTag_ports (w : Work) (t : Nat) (v : W32) : (w.setTag t v).ports = w.ports := rfl
@[simp] theorem Work.setTag_fab (w : Work) (t : Nat) (v : W32) : (w.setTag t v).fab = w.fab := rfl
@[simp] theorem Work.setTag_txns (w : Work) (t : Nat) (v : W32) : (w.setTag t v).txns = w.txns := rfl
@[simp] theorem Work.setTag_rings (w : Work) (t : Nat) (v : W32) : (w.setTag t v).rings = w.rings := rfl
@[simp] theorem Work.setTag_collIn (w : Work) (t : Nat) (v : W32) : (w.setTag t v).collIn = w.collIn := rfl
@[simp] theorem Work.setTag_grants (w : Work) (t : Nat) (v : W32) : (w.setTag t v).grants = w.grants := rfl
@[simp] theorem Work.setTag_books (w : Work) (t : Nat) (v : W32) : (w.setTag t v).books = w.books := rfl
@[simp] theorem Work.setTag_host (w : Work) (t : Nat) (v : W32) : (w.setTag t v).host = w.host := rfl
@[simp] theorem Work.setTag_boot (w : Work) (t : Nat) (v : W32) : (w.setTag t v).boot = w.boot := rfl
@[simp] theorem Work.setTag_flash (w : Work) (t : Nat) (v : W32) : (w.setTag t v).flash = w.flash := rfl
@[simp] theorem Work.setTag_pwr (w : Work) (t : Nat) (v : W32) : (w.setTag t v).pwr = w.pwr := rfl
@[simp] theorem Work.setTag_out (w : Work) (t : Nat) (v : W32) : (w.setTag t v).out = w.out := rfl
@[simp] theorem Work.setTag_mem (w : Work) (t : Nat) (v : W32) : (w.setTag t v).mem = w.mem := rfl
@[simp] theorem Work.setTag_wr (w : Work) (t : Nat) (v : W32) : (w.setTag t v).wr = w.wr := rfl

/-! ## `Work.setDesc` -/

@[simp] theorem Work.setDesc_clk (w : Work) (p i : Nat) (x : Desc) : (w.setDesc p i x).clk = w.clk := rfl
@[simp] theorem Work.setDesc_bell (w : Work) (p i : Nat) (x : Desc) : (w.setDesc p i x).bell = w.bell := rfl
@[simp] theorem Work.setDesc_ms (w : Work) (p i : Nat) (x : Desc) : (w.setDesc p i x).ms = w.ms := rfl
@[simp] theorem Work.setDesc_struct (w : Work) (p i : Nat) (x : Desc) : (w.setDesc p i x).struct = w.struct := rfl
@[simp] theorem Work.setDesc_dev (w : Work) (p i : Nat) (x : Desc) : (w.setDesc p i x).dev = w.dev := rfl
@[simp] theorem Work.setDesc_parts (w : Work) (p i : Nat) (x : Desc) : (w.setDesc p i x).parts = w.parts := rfl
@[simp] theorem Work.setDesc_ctxs (w : Work) (p i : Nat) (x : Desc) : (w.setDesc p i x).ctxs = w.ctxs := rfl
@[simp] theorem Work.setDesc_tags (w : Work) (p i : Nat) (x : Desc) : (w.setDesc p i x).tags = w.tags := rfl
@[simp] theorem Work.setDesc_descs (w : Work) (p i : Nat) (x : Desc) : (w.setDesc p i x).descs = w.descs.set {} (4096 * p + i) x := rfl
@[simp] theorem Work.setDesc_flights (w : Work) (p i : Nat) (x : Desc) : (w.setDesc p i x).flights = w.flights := rfl
@[simp] theorem Work.setDesc_faces (w : Work) (p i : Nat) (x : Desc) : (w.setDesc p i x).faces = w.faces := rfl
@[simp] theorem Work.setDesc_gals (w : Work) (p i : Nat) (x : Desc) : (w.setDesc p i x).gals = w.gals := rfl
@[simp] theorem Work.setDesc_ports (w : Work) (p i : Nat) (x : Desc) : (w.setDesc p i x).ports = w.ports := rfl
@[simp] theorem Work.setDesc_fab (w : Work) (p i : Nat) (x : Desc) : (w.setDesc p i x).fab = w.fab := rfl
@[simp] theorem Work.setDesc_txns (w : Work) (p i : Nat) (x : Desc) : (w.setDesc p i x).txns = w.txns := rfl
@[simp] theorem Work.setDesc_rings (w : Work) (p i : Nat) (x : Desc) : (w.setDesc p i x).rings = w.rings := rfl
@[simp] theorem Work.setDesc_collIn (w : Work) (p i : Nat) (x : Desc) : (w.setDesc p i x).collIn = w.collIn := rfl
@[simp] theorem Work.setDesc_grants (w : Work) (p i : Nat) (x : Desc) : (w.setDesc p i x).grants = w.grants := rfl
@[simp] theorem Work.setDesc_books (w : Work) (p i : Nat) (x : Desc) : (w.setDesc p i x).books = w.books := rfl
@[simp] theorem Work.setDesc_host (w : Work) (p i : Nat) (x : Desc) : (w.setDesc p i x).host = w.host := rfl
@[simp] theorem Work.setDesc_boot (w : Work) (p i : Nat) (x : Desc) : (w.setDesc p i x).boot = w.boot := rfl
@[simp] theorem Work.setDesc_flash (w : Work) (p i : Nat) (x : Desc) : (w.setDesc p i x).flash = w.flash := rfl
@[simp] theorem Work.setDesc_pwr (w : Work) (p i : Nat) (x : Desc) : (w.setDesc p i x).pwr = w.pwr := rfl
@[simp] theorem Work.setDesc_out (w : Work) (p i : Nat) (x : Desc) : (w.setDesc p i x).out = w.out := rfl
@[simp] theorem Work.setDesc_mem (w : Work) (p i : Nat) (x : Desc) : (w.setDesc p i x).mem = w.mem := rfl
@[simp] theorem Work.setDesc_wr (w : Work) (p i : Nat) (x : Desc) : (w.setDesc p i x).wr = w.wr := rfl

/-! ## `Work.modFace` -/

@[simp] theorem Work.modFace_clk (w : Work) (n : Nat) (f : Face → Face) : (w.modFace n f).clk = w.clk := rfl
@[simp] theorem Work.modFace_bell (w : Work) (n : Nat) (f : Face → Face) : (w.modFace n f).bell = w.bell := rfl
@[simp] theorem Work.modFace_ms (w : Work) (n : Nat) (f : Face → Face) : (w.modFace n f).ms = w.ms := rfl
@[simp] theorem Work.modFace_struct (w : Work) (n : Nat) (f : Face → Face) : (w.modFace n f).struct = w.struct := rfl
@[simp] theorem Work.modFace_dev (w : Work) (n : Nat) (f : Face → Face) : (w.modFace n f).dev = w.dev := rfl
@[simp] theorem Work.modFace_parts (w : Work) (n : Nat) (f : Face → Face) : (w.modFace n f).parts = w.parts := rfl
@[simp] theorem Work.modFace_ctxs (w : Work) (n : Nat) (f : Face → Face) : (w.modFace n f).ctxs = w.ctxs := rfl
@[simp] theorem Work.modFace_tags (w : Work) (n : Nat) (f : Face → Face) : (w.modFace n f).tags = w.tags := rfl
@[simp] theorem Work.modFace_descs (w : Work) (n : Nat) (f : Face → Face) : (w.modFace n f).descs = w.descs := rfl
@[simp] theorem Work.modFace_flights (w : Work) (n : Nat) (f : Face → Face) : (w.modFace n f).flights = w.flights := rfl
@[simp] theorem Work.modFace_faces (w : Work) (n : Nat) (f : Face → Face) : (w.modFace n f).faces = w.faces.upd {} n f := rfl
@[simp] theorem Work.modFace_gals (w : Work) (n : Nat) (f : Face → Face) : (w.modFace n f).gals = w.gals := rfl
@[simp] theorem Work.modFace_ports (w : Work) (n : Nat) (f : Face → Face) : (w.modFace n f).ports = w.ports := rfl
@[simp] theorem Work.modFace_fab (w : Work) (n : Nat) (f : Face → Face) : (w.modFace n f).fab = w.fab := rfl
@[simp] theorem Work.modFace_txns (w : Work) (n : Nat) (f : Face → Face) : (w.modFace n f).txns = w.txns := rfl
@[simp] theorem Work.modFace_rings (w : Work) (n : Nat) (f : Face → Face) : (w.modFace n f).rings = w.rings := rfl
@[simp] theorem Work.modFace_collIn (w : Work) (n : Nat) (f : Face → Face) : (w.modFace n f).collIn = w.collIn := rfl
@[simp] theorem Work.modFace_grants (w : Work) (n : Nat) (f : Face → Face) : (w.modFace n f).grants = w.grants := rfl
@[simp] theorem Work.modFace_books (w : Work) (n : Nat) (f : Face → Face) : (w.modFace n f).books = w.books := rfl
@[simp] theorem Work.modFace_host (w : Work) (n : Nat) (f : Face → Face) : (w.modFace n f).host = w.host := rfl
@[simp] theorem Work.modFace_boot (w : Work) (n : Nat) (f : Face → Face) : (w.modFace n f).boot = w.boot := rfl
@[simp] theorem Work.modFace_flash (w : Work) (n : Nat) (f : Face → Face) : (w.modFace n f).flash = w.flash := rfl
@[simp] theorem Work.modFace_pwr (w : Work) (n : Nat) (f : Face → Face) : (w.modFace n f).pwr = w.pwr := rfl
@[simp] theorem Work.modFace_out (w : Work) (n : Nat) (f : Face → Face) : (w.modFace n f).out = w.out := rfl
@[simp] theorem Work.modFace_mem (w : Work) (n : Nat) (f : Face → Face) : (w.modFace n f).mem = w.mem := rfl
@[simp] theorem Work.modFace_wr (w : Work) (n : Nat) (f : Face → Face) : (w.modFace n f).wr = w.wr := rfl

/-! ## `Work.modGal` -/

@[simp] theorem Work.modGal_clk (w : Work) (n : Nat) (f : Gal → Gal) : (w.modGal n f).clk = w.clk := rfl
@[simp] theorem Work.modGal_bell (w : Work) (n : Nat) (f : Gal → Gal) : (w.modGal n f).bell = w.bell := rfl
@[simp] theorem Work.modGal_ms (w : Work) (n : Nat) (f : Gal → Gal) : (w.modGal n f).ms = w.ms := rfl
@[simp] theorem Work.modGal_struct (w : Work) (n : Nat) (f : Gal → Gal) : (w.modGal n f).struct = w.struct := rfl
@[simp] theorem Work.modGal_dev (w : Work) (n : Nat) (f : Gal → Gal) : (w.modGal n f).dev = w.dev := rfl
@[simp] theorem Work.modGal_parts (w : Work) (n : Nat) (f : Gal → Gal) : (w.modGal n f).parts = w.parts := rfl
@[simp] theorem Work.modGal_ctxs (w : Work) (n : Nat) (f : Gal → Gal) : (w.modGal n f).ctxs = w.ctxs := rfl
@[simp] theorem Work.modGal_tags (w : Work) (n : Nat) (f : Gal → Gal) : (w.modGal n f).tags = w.tags := rfl
@[simp] theorem Work.modGal_descs (w : Work) (n : Nat) (f : Gal → Gal) : (w.modGal n f).descs = w.descs := rfl
@[simp] theorem Work.modGal_flights (w : Work) (n : Nat) (f : Gal → Gal) : (w.modGal n f).flights = w.flights := rfl
@[simp] theorem Work.modGal_faces (w : Work) (n : Nat) (f : Gal → Gal) : (w.modGal n f).faces = w.faces := rfl
@[simp] theorem Work.modGal_gals (w : Work) (n : Nat) (f : Gal → Gal) : (w.modGal n f).gals = w.gals.upd {} n f := rfl
@[simp] theorem Work.modGal_ports (w : Work) (n : Nat) (f : Gal → Gal) : (w.modGal n f).ports = w.ports := rfl
@[simp] theorem Work.modGal_fab (w : Work) (n : Nat) (f : Gal → Gal) : (w.modGal n f).fab = w.fab := rfl
@[simp] theorem Work.modGal_txns (w : Work) (n : Nat) (f : Gal → Gal) : (w.modGal n f).txns = w.txns := rfl
@[simp] theorem Work.modGal_rings (w : Work) (n : Nat) (f : Gal → Gal) : (w.modGal n f).rings = w.rings := rfl
@[simp] theorem Work.modGal_collIn (w : Work) (n : Nat) (f : Gal → Gal) : (w.modGal n f).collIn = w.collIn := rfl
@[simp] theorem Work.modGal_grants (w : Work) (n : Nat) (f : Gal → Gal) : (w.modGal n f).grants = w.grants := rfl
@[simp] theorem Work.modGal_books (w : Work) (n : Nat) (f : Gal → Gal) : (w.modGal n f).books = w.books := rfl
@[simp] theorem Work.modGal_host (w : Work) (n : Nat) (f : Gal → Gal) : (w.modGal n f).host = w.host := rfl
@[simp] theorem Work.modGal_boot (w : Work) (n : Nat) (f : Gal → Gal) : (w.modGal n f).boot = w.boot := rfl
@[simp] theorem Work.modGal_flash (w : Work) (n : Nat) (f : Gal → Gal) : (w.modGal n f).flash = w.flash := rfl
@[simp] theorem Work.modGal_pwr (w : Work) (n : Nat) (f : Gal → Gal) : (w.modGal n f).pwr = w.pwr := rfl
@[simp] theorem Work.modGal_out (w : Work) (n : Nat) (f : Gal → Gal) : (w.modGal n f).out = w.out := rfl
@[simp] theorem Work.modGal_mem (w : Work) (n : Nat) (f : Gal → Gal) : (w.modGal n f).mem = w.mem := rfl
@[simp] theorem Work.modGal_wr (w : Work) (n : Nat) (f : Gal → Gal) : (w.modGal n f).wr = w.wr := rfl

/-! ## `Work.modPort` -/

@[simp] theorem Work.modPort_clk (w : Work) (n : Nat) (f : Port → Port) : (w.modPort n f).clk = w.clk := rfl
@[simp] theorem Work.modPort_bell (w : Work) (n : Nat) (f : Port → Port) : (w.modPort n f).bell = w.bell := rfl
@[simp] theorem Work.modPort_ms (w : Work) (n : Nat) (f : Port → Port) : (w.modPort n f).ms = w.ms := rfl
@[simp] theorem Work.modPort_struct (w : Work) (n : Nat) (f : Port → Port) : (w.modPort n f).struct = w.struct := rfl
@[simp] theorem Work.modPort_dev (w : Work) (n : Nat) (f : Port → Port) : (w.modPort n f).dev = w.dev := rfl
@[simp] theorem Work.modPort_parts (w : Work) (n : Nat) (f : Port → Port) : (w.modPort n f).parts = w.parts := rfl
@[simp] theorem Work.modPort_ctxs (w : Work) (n : Nat) (f : Port → Port) : (w.modPort n f).ctxs = w.ctxs := rfl
@[simp] theorem Work.modPort_tags (w : Work) (n : Nat) (f : Port → Port) : (w.modPort n f).tags = w.tags := rfl
@[simp] theorem Work.modPort_descs (w : Work) (n : Nat) (f : Port → Port) : (w.modPort n f).descs = w.descs := rfl
@[simp] theorem Work.modPort_flights (w : Work) (n : Nat) (f : Port → Port) : (w.modPort n f).flights = w.flights := rfl
@[simp] theorem Work.modPort_faces (w : Work) (n : Nat) (f : Port → Port) : (w.modPort n f).faces = w.faces := rfl
@[simp] theorem Work.modPort_gals (w : Work) (n : Nat) (f : Port → Port) : (w.modPort n f).gals = w.gals := rfl
@[simp] theorem Work.modPort_ports (w : Work) (n : Nat) (f : Port → Port) : (w.modPort n f).ports = w.ports.upd {} n f := rfl
@[simp] theorem Work.modPort_fab (w : Work) (n : Nat) (f : Port → Port) : (w.modPort n f).fab = w.fab := rfl
@[simp] theorem Work.modPort_txns (w : Work) (n : Nat) (f : Port → Port) : (w.modPort n f).txns = w.txns := rfl
@[simp] theorem Work.modPort_rings (w : Work) (n : Nat) (f : Port → Port) : (w.modPort n f).rings = w.rings := rfl
@[simp] theorem Work.modPort_collIn (w : Work) (n : Nat) (f : Port → Port) : (w.modPort n f).collIn = w.collIn := rfl
@[simp] theorem Work.modPort_grants (w : Work) (n : Nat) (f : Port → Port) : (w.modPort n f).grants = w.grants := rfl
@[simp] theorem Work.modPort_books (w : Work) (n : Nat) (f : Port → Port) : (w.modPort n f).books = w.books := rfl
@[simp] theorem Work.modPort_host (w : Work) (n : Nat) (f : Port → Port) : (w.modPort n f).host = w.host := rfl
@[simp] theorem Work.modPort_boot (w : Work) (n : Nat) (f : Port → Port) : (w.modPort n f).boot = w.boot := rfl
@[simp] theorem Work.modPort_flash (w : Work) (n : Nat) (f : Port → Port) : (w.modPort n f).flash = w.flash := rfl
@[simp] theorem Work.modPort_pwr (w : Work) (n : Nat) (f : Port → Port) : (w.modPort n f).pwr = w.pwr := rfl
@[simp] theorem Work.modPort_out (w : Work) (n : Nat) (f : Port → Port) : (w.modPort n f).out = w.out := rfl
@[simp] theorem Work.modPort_mem (w : Work) (n : Nat) (f : Port → Port) : (w.modPort n f).mem = w.mem := rfl
@[simp] theorem Work.modPort_wr (w : Work) (n : Nat) (f : Port → Port) : (w.modPort n f).wr = w.wr := rfl

/-! ## `Work.modRing` -/

@[simp] theorem Work.modRing_clk (w : Work) (p r : Nat) (f : Ring → Ring) : (w.modRing p r f).clk = w.clk := rfl
@[simp] theorem Work.modRing_bell (w : Work) (p r : Nat) (f : Ring → Ring) : (w.modRing p r f).bell = w.bell := rfl
@[simp] theorem Work.modRing_ms (w : Work) (p r : Nat) (f : Ring → Ring) : (w.modRing p r f).ms = w.ms := rfl
@[simp] theorem Work.modRing_struct (w : Work) (p r : Nat) (f : Ring → Ring) : (w.modRing p r f).struct = w.struct := rfl
@[simp] theorem Work.modRing_dev (w : Work) (p r : Nat) (f : Ring → Ring) : (w.modRing p r f).dev = w.dev := rfl
@[simp] theorem Work.modRing_parts (w : Work) (p r : Nat) (f : Ring → Ring) : (w.modRing p r f).parts = w.parts := rfl
@[simp] theorem Work.modRing_ctxs (w : Work) (p r : Nat) (f : Ring → Ring) : (w.modRing p r f).ctxs = w.ctxs := rfl
@[simp] theorem Work.modRing_tags (w : Work) (p r : Nat) (f : Ring → Ring) : (w.modRing p r f).tags = w.tags := rfl
@[simp] theorem Work.modRing_descs (w : Work) (p r : Nat) (f : Ring → Ring) : (w.modRing p r f).descs = w.descs := rfl
@[simp] theorem Work.modRing_flights (w : Work) (p r : Nat) (f : Ring → Ring) : (w.modRing p r f).flights = w.flights := rfl
@[simp] theorem Work.modRing_faces (w : Work) (p r : Nat) (f : Ring → Ring) : (w.modRing p r f).faces = w.faces := rfl
@[simp] theorem Work.modRing_gals (w : Work) (p r : Nat) (f : Ring → Ring) : (w.modRing p r f).gals = w.gals := rfl
@[simp] theorem Work.modRing_ports (w : Work) (p r : Nat) (f : Ring → Ring) : (w.modRing p r f).ports = w.ports := rfl
@[simp] theorem Work.modRing_fab (w : Work) (p r : Nat) (f : Ring → Ring) : (w.modRing p r f).fab = w.fab := rfl
@[simp] theorem Work.modRing_txns (w : Work) (p r : Nat) (f : Ring → Ring) : (w.modRing p r f).txns = w.txns := rfl
@[simp] theorem Work.modRing_rings (w : Work) (p r : Nat) (f : Ring → Ring) : (w.modRing p r f).rings = w.rings.upd {} (8 * p + r) f := rfl
@[simp] theorem Work.modRing_collIn (w : Work) (p r : Nat) (f : Ring → Ring) : (w.modRing p r f).collIn = w.collIn := rfl
@[simp] theorem Work.modRing_grants (w : Work) (p r : Nat) (f : Ring → Ring) : (w.modRing p r f).grants = w.grants := rfl
@[simp] theorem Work.modRing_books (w : Work) (p r : Nat) (f : Ring → Ring) : (w.modRing p r f).books = w.books := rfl
@[simp] theorem Work.modRing_host (w : Work) (p r : Nat) (f : Ring → Ring) : (w.modRing p r f).host = w.host := rfl
@[simp] theorem Work.modRing_boot (w : Work) (p r : Nat) (f : Ring → Ring) : (w.modRing p r f).boot = w.boot := rfl
@[simp] theorem Work.modRing_flash (w : Work) (p r : Nat) (f : Ring → Ring) : (w.modRing p r f).flash = w.flash := rfl
@[simp] theorem Work.modRing_pwr (w : Work) (p r : Nat) (f : Ring → Ring) : (w.modRing p r f).pwr = w.pwr := rfl
@[simp] theorem Work.modRing_out (w : Work) (p r : Nat) (f : Ring → Ring) : (w.modRing p r f).out = w.out := rfl
@[simp] theorem Work.modRing_mem (w : Work) (p r : Nat) (f : Ring → Ring) : (w.modRing p r f).mem = w.mem := rfl
@[simp] theorem Work.modRing_wr (w : Work) (p r : Nat) (f : Ring → Ring) : (w.modRing p r f).wr = w.wr := rfl

/-! ## `Work.modGrant` -/

@[simp] theorem Work.modGrant_clk (w : Work) (p l k : Nat) (f : Grant → Grant) : (w.modGrant p l k f).clk = w.clk := rfl
@[simp] theorem Work.modGrant_bell (w : Work) (p l k : Nat) (f : Grant → Grant) : (w.modGrant p l k f).bell = w.bell := rfl
@[simp] theorem Work.modGrant_ms (w : Work) (p l k : Nat) (f : Grant → Grant) : (w.modGrant p l k f).ms = w.ms := rfl
@[simp] theorem Work.modGrant_struct (w : Work) (p l k : Nat) (f : Grant → Grant) : (w.modGrant p l k f).struct = w.struct := rfl
@[simp] theorem Work.modGrant_dev (w : Work) (p l k : Nat) (f : Grant → Grant) : (w.modGrant p l k f).dev = w.dev := rfl
@[simp] theorem Work.modGrant_parts (w : Work) (p l k : Nat) (f : Grant → Grant) : (w.modGrant p l k f).parts = w.parts := rfl
@[simp] theorem Work.modGrant_ctxs (w : Work) (p l k : Nat) (f : Grant → Grant) : (w.modGrant p l k f).ctxs = w.ctxs := rfl
@[simp] theorem Work.modGrant_tags (w : Work) (p l k : Nat) (f : Grant → Grant) : (w.modGrant p l k f).tags = w.tags := rfl
@[simp] theorem Work.modGrant_descs (w : Work) (p l k : Nat) (f : Grant → Grant) : (w.modGrant p l k f).descs = w.descs := rfl
@[simp] theorem Work.modGrant_flights (w : Work) (p l k : Nat) (f : Grant → Grant) : (w.modGrant p l k f).flights = w.flights := rfl
@[simp] theorem Work.modGrant_faces (w : Work) (p l k : Nat) (f : Grant → Grant) : (w.modGrant p l k f).faces = w.faces := rfl
@[simp] theorem Work.modGrant_gals (w : Work) (p l k : Nat) (f : Grant → Grant) : (w.modGrant p l k f).gals = w.gals := rfl
@[simp] theorem Work.modGrant_ports (w : Work) (p l k : Nat) (f : Grant → Grant) : (w.modGrant p l k f).ports = w.ports := rfl
@[simp] theorem Work.modGrant_fab (w : Work) (p l k : Nat) (f : Grant → Grant) : (w.modGrant p l k f).fab = w.fab := rfl
@[simp] theorem Work.modGrant_txns (w : Work) (p l k : Nat) (f : Grant → Grant) : (w.modGrant p l k f).txns = w.txns := rfl
@[simp] theorem Work.modGrant_rings (w : Work) (p l k : Nat) (f : Grant → Grant) : (w.modGrant p l k f).rings = w.rings := rfl
@[simp] theorem Work.modGrant_collIn (w : Work) (p l k : Nat) (f : Grant → Grant) : (w.modGrant p l k f).collIn = w.collIn := rfl
@[simp] theorem Work.modGrant_grants (w : Work) (p l k : Nat) (f : Grant → Grant) : (w.modGrant p l k f).grants = w.grants.upd {} (2 * (256 * p + l) + k % 2) f := rfl
@[simp] theorem Work.modGrant_books (w : Work) (p l k : Nat) (f : Grant → Grant) : (w.modGrant p l k f).books = w.books := rfl
@[simp] theorem Work.modGrant_host (w : Work) (p l k : Nat) (f : Grant → Grant) : (w.modGrant p l k f).host = w.host := rfl
@[simp] theorem Work.modGrant_boot (w : Work) (p l k : Nat) (f : Grant → Grant) : (w.modGrant p l k f).boot = w.boot := rfl
@[simp] theorem Work.modGrant_flash (w : Work) (p l k : Nat) (f : Grant → Grant) : (w.modGrant p l k f).flash = w.flash := rfl
@[simp] theorem Work.modGrant_pwr (w : Work) (p l k : Nat) (f : Grant → Grant) : (w.modGrant p l k f).pwr = w.pwr := rfl
@[simp] theorem Work.modGrant_out (w : Work) (p l k : Nat) (f : Grant → Grant) : (w.modGrant p l k f).out = w.out := rfl
@[simp] theorem Work.modGrant_mem (w : Work) (p l k : Nat) (f : Grant → Grant) : (w.modGrant p l k f).mem = w.mem := rfl
@[simp] theorem Work.modGrant_wr (w : Work) (p l k : Nat) (f : Grant → Grant) : (w.modGrant p l k f).wr = w.wr := rfl

/-! ## `Work.modBook` -/

@[simp] theorem Work.modBook_clk (w : Work) (p l k : Nat) (f : BookMeta → BookMeta) : (w.modBook p l k f).clk = w.clk := rfl
@[simp] theorem Work.modBook_bell (w : Work) (p l k : Nat) (f : BookMeta → BookMeta) : (w.modBook p l k f).bell = w.bell := rfl
@[simp] theorem Work.modBook_ms (w : Work) (p l k : Nat) (f : BookMeta → BookMeta) : (w.modBook p l k f).ms = w.ms := rfl
@[simp] theorem Work.modBook_struct (w : Work) (p l k : Nat) (f : BookMeta → BookMeta) : (w.modBook p l k f).struct = w.struct := rfl
@[simp] theorem Work.modBook_dev (w : Work) (p l k : Nat) (f : BookMeta → BookMeta) : (w.modBook p l k f).dev = w.dev := rfl
@[simp] theorem Work.modBook_parts (w : Work) (p l k : Nat) (f : BookMeta → BookMeta) : (w.modBook p l k f).parts = w.parts := rfl
@[simp] theorem Work.modBook_ctxs (w : Work) (p l k : Nat) (f : BookMeta → BookMeta) : (w.modBook p l k f).ctxs = w.ctxs := rfl
@[simp] theorem Work.modBook_tags (w : Work) (p l k : Nat) (f : BookMeta → BookMeta) : (w.modBook p l k f).tags = w.tags := rfl
@[simp] theorem Work.modBook_descs (w : Work) (p l k : Nat) (f : BookMeta → BookMeta) : (w.modBook p l k f).descs = w.descs := rfl
@[simp] theorem Work.modBook_flights (w : Work) (p l k : Nat) (f : BookMeta → BookMeta) : (w.modBook p l k f).flights = w.flights := rfl
@[simp] theorem Work.modBook_faces (w : Work) (p l k : Nat) (f : BookMeta → BookMeta) : (w.modBook p l k f).faces = w.faces := rfl
@[simp] theorem Work.modBook_gals (w : Work) (p l k : Nat) (f : BookMeta → BookMeta) : (w.modBook p l k f).gals = w.gals := rfl
@[simp] theorem Work.modBook_ports (w : Work) (p l k : Nat) (f : BookMeta → BookMeta) : (w.modBook p l k f).ports = w.ports := rfl
@[simp] theorem Work.modBook_fab (w : Work) (p l k : Nat) (f : BookMeta → BookMeta) : (w.modBook p l k f).fab = w.fab := rfl
@[simp] theorem Work.modBook_txns (w : Work) (p l k : Nat) (f : BookMeta → BookMeta) : (w.modBook p l k f).txns = w.txns := rfl
@[simp] theorem Work.modBook_rings (w : Work) (p l k : Nat) (f : BookMeta → BookMeta) : (w.modBook p l k f).rings = w.rings := rfl
@[simp] theorem Work.modBook_collIn (w : Work) (p l k : Nat) (f : BookMeta → BookMeta) : (w.modBook p l k f).collIn = w.collIn := rfl
@[simp] theorem Work.modBook_grants (w : Work) (p l k : Nat) (f : BookMeta → BookMeta) : (w.modBook p l k f).grants = w.grants := rfl
@[simp] theorem Work.modBook_books (w : Work) (p l k : Nat) (f : BookMeta → BookMeta) : (w.modBook p l k f).books = w.books.upd {} (4 * (256 * p + l) + k % 4) f := rfl
@[simp] theorem Work.modBook_host (w : Work) (p l k : Nat) (f : BookMeta → BookMeta) : (w.modBook p l k f).host = w.host := rfl
@[simp] theorem Work.modBook_boot (w : Work) (p l k : Nat) (f : BookMeta → BookMeta) : (w.modBook p l k f).boot = w.boot := rfl
@[simp] theorem Work.modBook_flash (w : Work) (p l k : Nat) (f : BookMeta → BookMeta) : (w.modBook p l k f).flash = w.flash := rfl
@[simp] theorem Work.modBook_pwr (w : Work) (p l k : Nat) (f : BookMeta → BookMeta) : (w.modBook p l k f).pwr = w.pwr := rfl
@[simp] theorem Work.modBook_out (w : Work) (p l k : Nat) (f : BookMeta → BookMeta) : (w.modBook p l k f).out = w.out := rfl
@[simp] theorem Work.modBook_mem (w : Work) (p l k : Nat) (f : BookMeta → BookMeta) : (w.modBook p l k f).mem = w.mem := rfl
@[simp] theorem Work.modBook_wr (w : Work) (p l k : Nat) (f : BookMeta → BookMeta) : (w.modBook p l k f).wr = w.wr := rfl

/-! ## `Work.modFlash` -/

@[simp] theorem Work.modFlash_clk (w : Work) (f : Flash → Flash) : (w.modFlash f).clk = w.clk := rfl
@[simp] theorem Work.modFlash_bell (w : Work) (f : Flash → Flash) : (w.modFlash f).bell = w.bell := rfl
@[simp] theorem Work.modFlash_ms (w : Work) (f : Flash → Flash) : (w.modFlash f).ms = w.ms := rfl
@[simp] theorem Work.modFlash_struct (w : Work) (f : Flash → Flash) : (w.modFlash f).struct = w.struct := rfl
@[simp] theorem Work.modFlash_dev (w : Work) (f : Flash → Flash) : (w.modFlash f).dev = w.dev := rfl
@[simp] theorem Work.modFlash_parts (w : Work) (f : Flash → Flash) : (w.modFlash f).parts = w.parts := rfl
@[simp] theorem Work.modFlash_ctxs (w : Work) (f : Flash → Flash) : (w.modFlash f).ctxs = w.ctxs := rfl
@[simp] theorem Work.modFlash_tags (w : Work) (f : Flash → Flash) : (w.modFlash f).tags = w.tags := rfl
@[simp] theorem Work.modFlash_descs (w : Work) (f : Flash → Flash) : (w.modFlash f).descs = w.descs := rfl
@[simp] theorem Work.modFlash_flights (w : Work) (f : Flash → Flash) : (w.modFlash f).flights = w.flights := rfl
@[simp] theorem Work.modFlash_faces (w : Work) (f : Flash → Flash) : (w.modFlash f).faces = w.faces := rfl
@[simp] theorem Work.modFlash_gals (w : Work) (f : Flash → Flash) : (w.modFlash f).gals = w.gals := rfl
@[simp] theorem Work.modFlash_ports (w : Work) (f : Flash → Flash) : (w.modFlash f).ports = w.ports := rfl
@[simp] theorem Work.modFlash_fab (w : Work) (f : Flash → Flash) : (w.modFlash f).fab = w.fab := rfl
@[simp] theorem Work.modFlash_txns (w : Work) (f : Flash → Flash) : (w.modFlash f).txns = w.txns := rfl
@[simp] theorem Work.modFlash_rings (w : Work) (f : Flash → Flash) : (w.modFlash f).rings = w.rings := rfl
@[simp] theorem Work.modFlash_collIn (w : Work) (f : Flash → Flash) : (w.modFlash f).collIn = w.collIn := rfl
@[simp] theorem Work.modFlash_grants (w : Work) (f : Flash → Flash) : (w.modFlash f).grants = w.grants := rfl
@[simp] theorem Work.modFlash_books (w : Work) (f : Flash → Flash) : (w.modFlash f).books = w.books := rfl
@[simp] theorem Work.modFlash_host (w : Work) (f : Flash → Flash) : (w.modFlash f).host = w.host := rfl
@[simp] theorem Work.modFlash_boot (w : Work) (f : Flash → Flash) : (w.modFlash f).boot = w.boot := rfl
@[simp] theorem Work.modFlash_flash (w : Work) (f : Flash → Flash) : (w.modFlash f).flash = f w.flash := rfl
@[simp] theorem Work.modFlash_pwr (w : Work) (f : Flash → Flash) : (w.modFlash f).pwr = w.pwr := rfl
@[simp] theorem Work.modFlash_out (w : Work) (f : Flash → Flash) : (w.modFlash f).out = w.out := rfl
@[simp] theorem Work.modFlash_mem (w : Work) (f : Flash → Flash) : (w.modFlash f).mem = w.mem := rfl
@[simp] theorem Work.modFlash_wr (w : Work) (f : Flash → Flash) : (w.modFlash f).wr = w.wr := rfl

/-! ## `Work.modHost` -/

@[simp] theorem Work.modHost_clk (w : Work) (f : HostSt → HostSt) : (w.modHost f).clk = w.clk := rfl
@[simp] theorem Work.modHost_bell (w : Work) (f : HostSt → HostSt) : (w.modHost f).bell = w.bell := rfl
@[simp] theorem Work.modHost_ms (w : Work) (f : HostSt → HostSt) : (w.modHost f).ms = w.ms := rfl
@[simp] theorem Work.modHost_struct (w : Work) (f : HostSt → HostSt) : (w.modHost f).struct = w.struct := rfl
@[simp] theorem Work.modHost_dev (w : Work) (f : HostSt → HostSt) : (w.modHost f).dev = w.dev := rfl
@[simp] theorem Work.modHost_parts (w : Work) (f : HostSt → HostSt) : (w.modHost f).parts = w.parts := rfl
@[simp] theorem Work.modHost_ctxs (w : Work) (f : HostSt → HostSt) : (w.modHost f).ctxs = w.ctxs := rfl
@[simp] theorem Work.modHost_tags (w : Work) (f : HostSt → HostSt) : (w.modHost f).tags = w.tags := rfl
@[simp] theorem Work.modHost_descs (w : Work) (f : HostSt → HostSt) : (w.modHost f).descs = w.descs := rfl
@[simp] theorem Work.modHost_flights (w : Work) (f : HostSt → HostSt) : (w.modHost f).flights = w.flights := rfl
@[simp] theorem Work.modHost_faces (w : Work) (f : HostSt → HostSt) : (w.modHost f).faces = w.faces := rfl
@[simp] theorem Work.modHost_gals (w : Work) (f : HostSt → HostSt) : (w.modHost f).gals = w.gals := rfl
@[simp] theorem Work.modHost_ports (w : Work) (f : HostSt → HostSt) : (w.modHost f).ports = w.ports := rfl
@[simp] theorem Work.modHost_fab (w : Work) (f : HostSt → HostSt) : (w.modHost f).fab = w.fab := rfl
@[simp] theorem Work.modHost_txns (w : Work) (f : HostSt → HostSt) : (w.modHost f).txns = w.txns := rfl
@[simp] theorem Work.modHost_rings (w : Work) (f : HostSt → HostSt) : (w.modHost f).rings = w.rings := rfl
@[simp] theorem Work.modHost_collIn (w : Work) (f : HostSt → HostSt) : (w.modHost f).collIn = w.collIn := rfl
@[simp] theorem Work.modHost_grants (w : Work) (f : HostSt → HostSt) : (w.modHost f).grants = w.grants := rfl
@[simp] theorem Work.modHost_books (w : Work) (f : HostSt → HostSt) : (w.modHost f).books = w.books := rfl
@[simp] theorem Work.modHost_host (w : Work) (f : HostSt → HostSt) : (w.modHost f).host = f w.host := rfl
@[simp] theorem Work.modHost_boot (w : Work) (f : HostSt → HostSt) : (w.modHost f).boot = w.boot := rfl
@[simp] theorem Work.modHost_flash (w : Work) (f : HostSt → HostSt) : (w.modHost f).flash = w.flash := rfl
@[simp] theorem Work.modHost_pwr (w : Work) (f : HostSt → HostSt) : (w.modHost f).pwr = w.pwr := rfl
@[simp] theorem Work.modHost_out (w : Work) (f : HostSt → HostSt) : (w.modHost f).out = w.out := rfl
@[simp] theorem Work.modHost_mem (w : Work) (f : HostSt → HostSt) : (w.modHost f).mem = w.mem := rfl
@[simp] theorem Work.modHost_wr (w : Work) (f : HostSt → HostSt) : (w.modHost f).wr = w.wr := rfl

/-! ## `Work.modBoot` -/

@[simp] theorem Work.modBoot_clk (w : Work) (f : Boot → Boot) : (w.modBoot f).clk = w.clk := rfl
@[simp] theorem Work.modBoot_bell (w : Work) (f : Boot → Boot) : (w.modBoot f).bell = w.bell := rfl
@[simp] theorem Work.modBoot_ms (w : Work) (f : Boot → Boot) : (w.modBoot f).ms = w.ms := rfl
@[simp] theorem Work.modBoot_struct (w : Work) (f : Boot → Boot) : (w.modBoot f).struct = w.struct := rfl
@[simp] theorem Work.modBoot_dev (w : Work) (f : Boot → Boot) : (w.modBoot f).dev = w.dev := rfl
@[simp] theorem Work.modBoot_parts (w : Work) (f : Boot → Boot) : (w.modBoot f).parts = w.parts := rfl
@[simp] theorem Work.modBoot_ctxs (w : Work) (f : Boot → Boot) : (w.modBoot f).ctxs = w.ctxs := rfl
@[simp] theorem Work.modBoot_tags (w : Work) (f : Boot → Boot) : (w.modBoot f).tags = w.tags := rfl
@[simp] theorem Work.modBoot_descs (w : Work) (f : Boot → Boot) : (w.modBoot f).descs = w.descs := rfl
@[simp] theorem Work.modBoot_flights (w : Work) (f : Boot → Boot) : (w.modBoot f).flights = w.flights := rfl
@[simp] theorem Work.modBoot_faces (w : Work) (f : Boot → Boot) : (w.modBoot f).faces = w.faces := rfl
@[simp] theorem Work.modBoot_gals (w : Work) (f : Boot → Boot) : (w.modBoot f).gals = w.gals := rfl
@[simp] theorem Work.modBoot_ports (w : Work) (f : Boot → Boot) : (w.modBoot f).ports = w.ports := rfl
@[simp] theorem Work.modBoot_fab (w : Work) (f : Boot → Boot) : (w.modBoot f).fab = w.fab := rfl
@[simp] theorem Work.modBoot_txns (w : Work) (f : Boot → Boot) : (w.modBoot f).txns = w.txns := rfl
@[simp] theorem Work.modBoot_rings (w : Work) (f : Boot → Boot) : (w.modBoot f).rings = w.rings := rfl
@[simp] theorem Work.modBoot_collIn (w : Work) (f : Boot → Boot) : (w.modBoot f).collIn = w.collIn := rfl
@[simp] theorem Work.modBoot_grants (w : Work) (f : Boot → Boot) : (w.modBoot f).grants = w.grants := rfl
@[simp] theorem Work.modBoot_books (w : Work) (f : Boot → Boot) : (w.modBoot f).books = w.books := rfl
@[simp] theorem Work.modBoot_host (w : Work) (f : Boot → Boot) : (w.modBoot f).host = w.host := rfl
@[simp] theorem Work.modBoot_boot (w : Work) (f : Boot → Boot) : (w.modBoot f).boot = f w.boot := rfl
@[simp] theorem Work.modBoot_flash (w : Work) (f : Boot → Boot) : (w.modBoot f).flash = w.flash := rfl
@[simp] theorem Work.modBoot_pwr (w : Work) (f : Boot → Boot) : (w.modBoot f).pwr = w.pwr := rfl
@[simp] theorem Work.modBoot_out (w : Work) (f : Boot → Boot) : (w.modBoot f).out = w.out := rfl
@[simp] theorem Work.modBoot_mem (w : Work) (f : Boot → Boot) : (w.modBoot f).mem = w.mem := rfl
@[simp] theorem Work.modBoot_wr (w : Work) (f : Boot → Boot) : (w.modBoot f).wr = w.wr := rfl

/-! ## `Work.modPwr` -/

@[simp] theorem Work.modPwr_clk (w : Work) (f : Pwr → Pwr) : (w.modPwr f).clk = w.clk := rfl
@[simp] theorem Work.modPwr_bell (w : Work) (f : Pwr → Pwr) : (w.modPwr f).bell = w.bell := rfl
@[simp] theorem Work.modPwr_ms (w : Work) (f : Pwr → Pwr) : (w.modPwr f).ms = w.ms := rfl
@[simp] theorem Work.modPwr_struct (w : Work) (f : Pwr → Pwr) : (w.modPwr f).struct = w.struct := rfl
@[simp] theorem Work.modPwr_dev (w : Work) (f : Pwr → Pwr) : (w.modPwr f).dev = w.dev := rfl
@[simp] theorem Work.modPwr_parts (w : Work) (f : Pwr → Pwr) : (w.modPwr f).parts = w.parts := rfl
@[simp] theorem Work.modPwr_ctxs (w : Work) (f : Pwr → Pwr) : (w.modPwr f).ctxs = w.ctxs := rfl
@[simp] theorem Work.modPwr_tags (w : Work) (f : Pwr → Pwr) : (w.modPwr f).tags = w.tags := rfl
@[simp] theorem Work.modPwr_descs (w : Work) (f : Pwr → Pwr) : (w.modPwr f).descs = w.descs := rfl
@[simp] theorem Work.modPwr_flights (w : Work) (f : Pwr → Pwr) : (w.modPwr f).flights = w.flights := rfl
@[simp] theorem Work.modPwr_faces (w : Work) (f : Pwr → Pwr) : (w.modPwr f).faces = w.faces := rfl
@[simp] theorem Work.modPwr_gals (w : Work) (f : Pwr → Pwr) : (w.modPwr f).gals = w.gals := rfl
@[simp] theorem Work.modPwr_ports (w : Work) (f : Pwr → Pwr) : (w.modPwr f).ports = w.ports := rfl
@[simp] theorem Work.modPwr_fab (w : Work) (f : Pwr → Pwr) : (w.modPwr f).fab = w.fab := rfl
@[simp] theorem Work.modPwr_txns (w : Work) (f : Pwr → Pwr) : (w.modPwr f).txns = w.txns := rfl
@[simp] theorem Work.modPwr_rings (w : Work) (f : Pwr → Pwr) : (w.modPwr f).rings = w.rings := rfl
@[simp] theorem Work.modPwr_collIn (w : Work) (f : Pwr → Pwr) : (w.modPwr f).collIn = w.collIn := rfl
@[simp] theorem Work.modPwr_grants (w : Work) (f : Pwr → Pwr) : (w.modPwr f).grants = w.grants := rfl
@[simp] theorem Work.modPwr_books (w : Work) (f : Pwr → Pwr) : (w.modPwr f).books = w.books := rfl
@[simp] theorem Work.modPwr_host (w : Work) (f : Pwr → Pwr) : (w.modPwr f).host = w.host := rfl
@[simp] theorem Work.modPwr_boot (w : Work) (f : Pwr → Pwr) : (w.modPwr f).boot = w.boot := rfl
@[simp] theorem Work.modPwr_flash (w : Work) (f : Pwr → Pwr) : (w.modPwr f).flash = w.flash := rfl
@[simp] theorem Work.modPwr_pwr (w : Work) (f : Pwr → Pwr) : (w.modPwr f).pwr = f w.pwr := rfl
@[simp] theorem Work.modPwr_out (w : Work) (f : Pwr → Pwr) : (w.modPwr f).out = w.out := rfl
@[simp] theorem Work.modPwr_mem (w : Work) (f : Pwr → Pwr) : (w.modPwr f).mem = w.mem := rfl
@[simp] theorem Work.modPwr_wr (w : Work) (f : Pwr → Pwr) : (w.modPwr f).wr = w.wr := rfl

/-! ## `Work.modBell` -/

@[simp] theorem Work.modBell_clk (w : Work) (f : Bell → Bell) : (w.modBell f).clk = w.clk := rfl
@[simp] theorem Work.modBell_bell (w : Work) (f : Bell → Bell) : (w.modBell f).bell = f w.bell := rfl
@[simp] theorem Work.modBell_ms (w : Work) (f : Bell → Bell) : (w.modBell f).ms = w.ms := rfl
@[simp] theorem Work.modBell_struct (w : Work) (f : Bell → Bell) : (w.modBell f).struct = w.struct := rfl
@[simp] theorem Work.modBell_dev (w : Work) (f : Bell → Bell) : (w.modBell f).dev = w.dev := rfl
@[simp] theorem Work.modBell_parts (w : Work) (f : Bell → Bell) : (w.modBell f).parts = w.parts := rfl
@[simp] theorem Work.modBell_ctxs (w : Work) (f : Bell → Bell) : (w.modBell f).ctxs = w.ctxs := rfl
@[simp] theorem Work.modBell_tags (w : Work) (f : Bell → Bell) : (w.modBell f).tags = w.tags := rfl
@[simp] theorem Work.modBell_descs (w : Work) (f : Bell → Bell) : (w.modBell f).descs = w.descs := rfl
@[simp] theorem Work.modBell_flights (w : Work) (f : Bell → Bell) : (w.modBell f).flights = w.flights := rfl
@[simp] theorem Work.modBell_faces (w : Work) (f : Bell → Bell) : (w.modBell f).faces = w.faces := rfl
@[simp] theorem Work.modBell_gals (w : Work) (f : Bell → Bell) : (w.modBell f).gals = w.gals := rfl
@[simp] theorem Work.modBell_ports (w : Work) (f : Bell → Bell) : (w.modBell f).ports = w.ports := rfl
@[simp] theorem Work.modBell_fab (w : Work) (f : Bell → Bell) : (w.modBell f).fab = w.fab := rfl
@[simp] theorem Work.modBell_txns (w : Work) (f : Bell → Bell) : (w.modBell f).txns = w.txns := rfl
@[simp] theorem Work.modBell_rings (w : Work) (f : Bell → Bell) : (w.modBell f).rings = w.rings := rfl
@[simp] theorem Work.modBell_collIn (w : Work) (f : Bell → Bell) : (w.modBell f).collIn = w.collIn := rfl
@[simp] theorem Work.modBell_grants (w : Work) (f : Bell → Bell) : (w.modBell f).grants = w.grants := rfl
@[simp] theorem Work.modBell_books (w : Work) (f : Bell → Bell) : (w.modBell f).books = w.books := rfl
@[simp] theorem Work.modBell_host (w : Work) (f : Bell → Bell) : (w.modBell f).host = w.host := rfl
@[simp] theorem Work.modBell_boot (w : Work) (f : Bell → Bell) : (w.modBell f).boot = w.boot := rfl
@[simp] theorem Work.modBell_flash (w : Work) (f : Bell → Bell) : (w.modBell f).flash = w.flash := rfl
@[simp] theorem Work.modBell_pwr (w : Work) (f : Bell → Bell) : (w.modBell f).pwr = w.pwr := rfl
@[simp] theorem Work.modBell_out (w : Work) (f : Bell → Bell) : (w.modBell f).out = w.out := rfl
@[simp] theorem Work.modBell_mem (w : Work) (f : Bell → Bell) : (w.modBell f).mem = w.mem := rfl
@[simp] theorem Work.modBell_wr (w : Work) (f : Bell → Bell) : (w.modBell f).wr = w.wr := rfl

/-! ## `Work.modMs` -/

@[simp] theorem Work.modMs_clk (w : Work) (f : MemSys → MemSys) : (w.modMs f).clk = w.clk := rfl
@[simp] theorem Work.modMs_bell (w : Work) (f : MemSys → MemSys) : (w.modMs f).bell = w.bell := rfl
@[simp] theorem Work.modMs_ms (w : Work) (f : MemSys → MemSys) : (w.modMs f).ms = f w.ms := rfl
@[simp] theorem Work.modMs_struct (w : Work) (f : MemSys → MemSys) : (w.modMs f).struct = w.struct := rfl
@[simp] theorem Work.modMs_dev (w : Work) (f : MemSys → MemSys) : (w.modMs f).dev = w.dev := rfl
@[simp] theorem Work.modMs_parts (w : Work) (f : MemSys → MemSys) : (w.modMs f).parts = w.parts := rfl
@[simp] theorem Work.modMs_ctxs (w : Work) (f : MemSys → MemSys) : (w.modMs f).ctxs = w.ctxs := rfl
@[simp] theorem Work.modMs_tags (w : Work) (f : MemSys → MemSys) : (w.modMs f).tags = w.tags := rfl
@[simp] theorem Work.modMs_descs (w : Work) (f : MemSys → MemSys) : (w.modMs f).descs = w.descs := rfl
@[simp] theorem Work.modMs_flights (w : Work) (f : MemSys → MemSys) : (w.modMs f).flights = w.flights := rfl
@[simp] theorem Work.modMs_faces (w : Work) (f : MemSys → MemSys) : (w.modMs f).faces = w.faces := rfl
@[simp] theorem Work.modMs_gals (w : Work) (f : MemSys → MemSys) : (w.modMs f).gals = w.gals := rfl
@[simp] theorem Work.modMs_ports (w : Work) (f : MemSys → MemSys) : (w.modMs f).ports = w.ports := rfl
@[simp] theorem Work.modMs_fab (w : Work) (f : MemSys → MemSys) : (w.modMs f).fab = w.fab := rfl
@[simp] theorem Work.modMs_txns (w : Work) (f : MemSys → MemSys) : (w.modMs f).txns = w.txns := rfl
@[simp] theorem Work.modMs_rings (w : Work) (f : MemSys → MemSys) : (w.modMs f).rings = w.rings := rfl
@[simp] theorem Work.modMs_collIn (w : Work) (f : MemSys → MemSys) : (w.modMs f).collIn = w.collIn := rfl
@[simp] theorem Work.modMs_grants (w : Work) (f : MemSys → MemSys) : (w.modMs f).grants = w.grants := rfl
@[simp] theorem Work.modMs_books (w : Work) (f : MemSys → MemSys) : (w.modMs f).books = w.books := rfl
@[simp] theorem Work.modMs_host (w : Work) (f : MemSys → MemSys) : (w.modMs f).host = w.host := rfl
@[simp] theorem Work.modMs_boot (w : Work) (f : MemSys → MemSys) : (w.modMs f).boot = w.boot := rfl
@[simp] theorem Work.modMs_flash (w : Work) (f : MemSys → MemSys) : (w.modMs f).flash = w.flash := rfl
@[simp] theorem Work.modMs_pwr (w : Work) (f : MemSys → MemSys) : (w.modMs f).pwr = w.pwr := rfl
@[simp] theorem Work.modMs_out (w : Work) (f : MemSys → MemSys) : (w.modMs f).out = w.out := rfl
@[simp] theorem Work.modMs_mem (w : Work) (f : MemSys → MemSys) : (w.modMs f).mem = w.mem := rfl
@[simp] theorem Work.modMs_wr (w : Work) (f : MemSys → MemSys) : (w.modMs f).wr = w.wr := rfl

/-! ## `Work.modFab` -/

@[simp] theorem Work.modFab_clk (w : Work) (f : Fab → Fab) : (w.modFab f).clk = w.clk := rfl
@[simp] theorem Work.modFab_bell (w : Work) (f : Fab → Fab) : (w.modFab f).bell = w.bell := rfl
@[simp] theorem Work.modFab_ms (w : Work) (f : Fab → Fab) : (w.modFab f).ms = w.ms := rfl
@[simp] theorem Work.modFab_struct (w : Work) (f : Fab → Fab) : (w.modFab f).struct = w.struct := rfl
@[simp] theorem Work.modFab_dev (w : Work) (f : Fab → Fab) : (w.modFab f).dev = w.dev := rfl
@[simp] theorem Work.modFab_parts (w : Work) (f : Fab → Fab) : (w.modFab f).parts = w.parts := rfl
@[simp] theorem Work.modFab_ctxs (w : Work) (f : Fab → Fab) : (w.modFab f).ctxs = w.ctxs := rfl
@[simp] theorem Work.modFab_tags (w : Work) (f : Fab → Fab) : (w.modFab f).tags = w.tags := rfl
@[simp] theorem Work.modFab_descs (w : Work) (f : Fab → Fab) : (w.modFab f).descs = w.descs := rfl
@[simp] theorem Work.modFab_flights (w : Work) (f : Fab → Fab) : (w.modFab f).flights = w.flights := rfl
@[simp] theorem Work.modFab_faces (w : Work) (f : Fab → Fab) : (w.modFab f).faces = w.faces := rfl
@[simp] theorem Work.modFab_gals (w : Work) (f : Fab → Fab) : (w.modFab f).gals = w.gals := rfl
@[simp] theorem Work.modFab_ports (w : Work) (f : Fab → Fab) : (w.modFab f).ports = w.ports := rfl
@[simp] theorem Work.modFab_fab (w : Work) (f : Fab → Fab) : (w.modFab f).fab = f w.fab := rfl
@[simp] theorem Work.modFab_txns (w : Work) (f : Fab → Fab) : (w.modFab f).txns = w.txns := rfl
@[simp] theorem Work.modFab_rings (w : Work) (f : Fab → Fab) : (w.modFab f).rings = w.rings := rfl
@[simp] theorem Work.modFab_collIn (w : Work) (f : Fab → Fab) : (w.modFab f).collIn = w.collIn := rfl
@[simp] theorem Work.modFab_grants (w : Work) (f : Fab → Fab) : (w.modFab f).grants = w.grants := rfl
@[simp] theorem Work.modFab_books (w : Work) (f : Fab → Fab) : (w.modFab f).books = w.books := rfl
@[simp] theorem Work.modFab_host (w : Work) (f : Fab → Fab) : (w.modFab f).host = w.host := rfl
@[simp] theorem Work.modFab_boot (w : Work) (f : Fab → Fab) : (w.modFab f).boot = w.boot := rfl
@[simp] theorem Work.modFab_flash (w : Work) (f : Fab → Fab) : (w.modFab f).flash = w.flash := rfl
@[simp] theorem Work.modFab_pwr (w : Work) (f : Fab → Fab) : (w.modFab f).pwr = w.pwr := rfl
@[simp] theorem Work.modFab_out (w : Work) (f : Fab → Fab) : (w.modFab f).out = w.out := rfl
@[simp] theorem Work.modFab_mem (w : Work) (f : Fab → Fab) : (w.modFab f).mem = w.mem := rfl
@[simp] theorem Work.modFab_wr (w : Work) (f : Fab → Fab) : (w.modFab f).wr = w.wr := rfl

/-! ## `Work.modDev` -/

@[simp] theorem Work.modDev_clk (w : Work) (f : Dev → Dev) : (w.modDev f).clk = w.clk := rfl
@[simp] theorem Work.modDev_bell (w : Work) (f : Dev → Dev) : (w.modDev f).bell = w.bell := rfl
@[simp] theorem Work.modDev_ms (w : Work) (f : Dev → Dev) : (w.modDev f).ms = w.ms := rfl
@[simp] theorem Work.modDev_struct (w : Work) (f : Dev → Dev) : (w.modDev f).struct = w.struct := rfl
@[simp] theorem Work.modDev_dev (w : Work) (f : Dev → Dev) : (w.modDev f).dev = f w.dev := rfl
@[simp] theorem Work.modDev_parts (w : Work) (f : Dev → Dev) : (w.modDev f).parts = w.parts := rfl
@[simp] theorem Work.modDev_ctxs (w : Work) (f : Dev → Dev) : (w.modDev f).ctxs = w.ctxs := rfl
@[simp] theorem Work.modDev_tags (w : Work) (f : Dev → Dev) : (w.modDev f).tags = w.tags := rfl
@[simp] theorem Work.modDev_descs (w : Work) (f : Dev → Dev) : (w.modDev f).descs = w.descs := rfl
@[simp] theorem Work.modDev_flights (w : Work) (f : Dev → Dev) : (w.modDev f).flights = w.flights := rfl
@[simp] theorem Work.modDev_faces (w : Work) (f : Dev → Dev) : (w.modDev f).faces = w.faces := rfl
@[simp] theorem Work.modDev_gals (w : Work) (f : Dev → Dev) : (w.modDev f).gals = w.gals := rfl
@[simp] theorem Work.modDev_ports (w : Work) (f : Dev → Dev) : (w.modDev f).ports = w.ports := rfl
@[simp] theorem Work.modDev_fab (w : Work) (f : Dev → Dev) : (w.modDev f).fab = w.fab := rfl
@[simp] theorem Work.modDev_txns (w : Work) (f : Dev → Dev) : (w.modDev f).txns = w.txns := rfl
@[simp] theorem Work.modDev_rings (w : Work) (f : Dev → Dev) : (w.modDev f).rings = w.rings := rfl
@[simp] theorem Work.modDev_collIn (w : Work) (f : Dev → Dev) : (w.modDev f).collIn = w.collIn := rfl
@[simp] theorem Work.modDev_grants (w : Work) (f : Dev → Dev) : (w.modDev f).grants = w.grants := rfl
@[simp] theorem Work.modDev_books (w : Work) (f : Dev → Dev) : (w.modDev f).books = w.books := rfl
@[simp] theorem Work.modDev_host (w : Work) (f : Dev → Dev) : (w.modDev f).host = w.host := rfl
@[simp] theorem Work.modDev_boot (w : Work) (f : Dev → Dev) : (w.modDev f).boot = w.boot := rfl
@[simp] theorem Work.modDev_flash (w : Work) (f : Dev → Dev) : (w.modDev f).flash = w.flash := rfl
@[simp] theorem Work.modDev_pwr (w : Work) (f : Dev → Dev) : (w.modDev f).pwr = w.pwr := rfl
@[simp] theorem Work.modDev_out (w : Work) (f : Dev → Dev) : (w.modDev f).out = w.out := rfl
@[simp] theorem Work.modDev_mem (w : Work) (f : Dev → Dev) : (w.modDev f).mem = w.mem := rfl
@[simp] theorem Work.modDev_wr (w : Work) (f : Dev → Dev) : (w.modDev f).wr = w.wr := rfl

/-! ## `Work.modStruct` -/

@[simp] theorem Work.modStruct_clk (w : Work) (f : Struct → Struct) : (w.modStruct f).clk = w.clk := rfl
@[simp] theorem Work.modStruct_bell (w : Work) (f : Struct → Struct) : (w.modStruct f).bell = w.bell := rfl
@[simp] theorem Work.modStruct_ms (w : Work) (f : Struct → Struct) : (w.modStruct f).ms = w.ms := rfl
@[simp] theorem Work.modStruct_struct (w : Work) (f : Struct → Struct) : (w.modStruct f).struct = f w.struct := rfl
@[simp] theorem Work.modStruct_dev (w : Work) (f : Struct → Struct) : (w.modStruct f).dev = w.dev := rfl
@[simp] theorem Work.modStruct_parts (w : Work) (f : Struct → Struct) : (w.modStruct f).parts = w.parts := rfl
@[simp] theorem Work.modStruct_ctxs (w : Work) (f : Struct → Struct) : (w.modStruct f).ctxs = w.ctxs := rfl
@[simp] theorem Work.modStruct_tags (w : Work) (f : Struct → Struct) : (w.modStruct f).tags = w.tags := rfl
@[simp] theorem Work.modStruct_descs (w : Work) (f : Struct → Struct) : (w.modStruct f).descs = w.descs := rfl
@[simp] theorem Work.modStruct_flights (w : Work) (f : Struct → Struct) : (w.modStruct f).flights = w.flights := rfl
@[simp] theorem Work.modStruct_faces (w : Work) (f : Struct → Struct) : (w.modStruct f).faces = w.faces := rfl
@[simp] theorem Work.modStruct_gals (w : Work) (f : Struct → Struct) : (w.modStruct f).gals = w.gals := rfl
@[simp] theorem Work.modStruct_ports (w : Work) (f : Struct → Struct) : (w.modStruct f).ports = w.ports := rfl
@[simp] theorem Work.modStruct_fab (w : Work) (f : Struct → Struct) : (w.modStruct f).fab = w.fab := rfl
@[simp] theorem Work.modStruct_txns (w : Work) (f : Struct → Struct) : (w.modStruct f).txns = w.txns := rfl
@[simp] theorem Work.modStruct_rings (w : Work) (f : Struct → Struct) : (w.modStruct f).rings = w.rings := rfl
@[simp] theorem Work.modStruct_collIn (w : Work) (f : Struct → Struct) : (w.modStruct f).collIn = w.collIn := rfl
@[simp] theorem Work.modStruct_grants (w : Work) (f : Struct → Struct) : (w.modStruct f).grants = w.grants := rfl
@[simp] theorem Work.modStruct_books (w : Work) (f : Struct → Struct) : (w.modStruct f).books = w.books := rfl
@[simp] theorem Work.modStruct_host (w : Work) (f : Struct → Struct) : (w.modStruct f).host = w.host := rfl
@[simp] theorem Work.modStruct_boot (w : Work) (f : Struct → Struct) : (w.modStruct f).boot = w.boot := rfl
@[simp] theorem Work.modStruct_flash (w : Work) (f : Struct → Struct) : (w.modStruct f).flash = w.flash := rfl
@[simp] theorem Work.modStruct_pwr (w : Work) (f : Struct → Struct) : (w.modStruct f).pwr = w.pwr := rfl
@[simp] theorem Work.modStruct_out (w : Work) (f : Struct → Struct) : (w.modStruct f).out = w.out := rfl
@[simp] theorem Work.modStruct_mem (w : Work) (f : Struct → Struct) : (w.modStruct f).mem = w.mem := rfl
@[simp] theorem Work.modStruct_wr (w : Work) (f : Struct → Struct) : (w.modStruct f).wr = w.wr := rfl

/-! ## `Work.emit` -/

@[simp] theorem Work.emit_clk (w : Work) (o : Out) : (w.emit o).clk = w.clk := rfl
@[simp] theorem Work.emit_bell (w : Work) (o : Out) : (w.emit o).bell = w.bell := rfl
@[simp] theorem Work.emit_ms (w : Work) (o : Out) : (w.emit o).ms = w.ms := rfl
@[simp] theorem Work.emit_struct (w : Work) (o : Out) : (w.emit o).struct = w.struct := rfl
@[simp] theorem Work.emit_dev (w : Work) (o : Out) : (w.emit o).dev = w.dev := rfl
@[simp] theorem Work.emit_parts (w : Work) (o : Out) : (w.emit o).parts = w.parts := rfl
@[simp] theorem Work.emit_ctxs (w : Work) (o : Out) : (w.emit o).ctxs = w.ctxs := rfl
@[simp] theorem Work.emit_tags (w : Work) (o : Out) : (w.emit o).tags = w.tags := rfl
@[simp] theorem Work.emit_descs (w : Work) (o : Out) : (w.emit o).descs = w.descs := rfl
@[simp] theorem Work.emit_flights (w : Work) (o : Out) : (w.emit o).flights = w.flights := rfl
@[simp] theorem Work.emit_faces (w : Work) (o : Out) : (w.emit o).faces = w.faces := rfl
@[simp] theorem Work.emit_gals (w : Work) (o : Out) : (w.emit o).gals = w.gals := rfl
@[simp] theorem Work.emit_ports (w : Work) (o : Out) : (w.emit o).ports = w.ports := rfl
@[simp] theorem Work.emit_fab (w : Work) (o : Out) : (w.emit o).fab = w.fab := rfl
@[simp] theorem Work.emit_txns (w : Work) (o : Out) : (w.emit o).txns = w.txns := rfl
@[simp] theorem Work.emit_rings (w : Work) (o : Out) : (w.emit o).rings = w.rings := rfl
@[simp] theorem Work.emit_collIn (w : Work) (o : Out) : (w.emit o).collIn = w.collIn := rfl
@[simp] theorem Work.emit_grants (w : Work) (o : Out) : (w.emit o).grants = w.grants := rfl
@[simp] theorem Work.emit_books (w : Work) (o : Out) : (w.emit o).books = w.books := rfl
@[simp] theorem Work.emit_host (w : Work) (o : Out) : (w.emit o).host = w.host := rfl
@[simp] theorem Work.emit_boot (w : Work) (o : Out) : (w.emit o).boot = w.boot := rfl
@[simp] theorem Work.emit_flash (w : Work) (o : Out) : (w.emit o).flash = w.flash := rfl
@[simp] theorem Work.emit_pwr (w : Work) (o : Out) : (w.emit o).pwr = w.pwr := rfl
@[simp] theorem Work.emit_out (w : Work) (o : Out) : (w.emit o).out = w.out ++ [o] := rfl
@[simp] theorem Work.emit_mem (w : Work) (o : Out) : (w.emit o).mem = w.mem := rfl
@[simp] theorem Work.emit_wr (w : Work) (o : Out) : (w.emit o).wr = w.wr := rfl

/-! ## `Work.modFlight` -/

@[simp] theorem Work.modFlight_clk (w : Work) (id : Nat) (f : Flight → Flight) : (w.modFlight id f).clk = w.clk := rfl
@[simp] theorem Work.modFlight_bell (w : Work) (id : Nat) (f : Flight → Flight) : (w.modFlight id f).bell = w.bell := rfl
@[simp] theorem Work.modFlight_ms (w : Work) (id : Nat) (f : Flight → Flight) : (w.modFlight id f).ms = w.ms := rfl
@[simp] theorem Work.modFlight_struct (w : Work) (id : Nat) (f : Flight → Flight) : (w.modFlight id f).struct = w.struct := rfl
@[simp] theorem Work.modFlight_dev (w : Work) (id : Nat) (f : Flight → Flight) : (w.modFlight id f).dev = w.dev := rfl
@[simp] theorem Work.modFlight_parts (w : Work) (id : Nat) (f : Flight → Flight) : (w.modFlight id f).parts = w.parts := rfl
@[simp] theorem Work.modFlight_ctxs (w : Work) (id : Nat) (f : Flight → Flight) : (w.modFlight id f).ctxs = w.ctxs := rfl
@[simp] theorem Work.modFlight_tags (w : Work) (id : Nat) (f : Flight → Flight) : (w.modFlight id f).tags = w.tags := rfl
@[simp] theorem Work.modFlight_descs (w : Work) (id : Nat) (f : Flight → Flight) : (w.modFlight id f).descs = w.descs := rfl
@[simp] theorem Work.modFlight_flights (w : Work) (id : Nat) (f : Flight → Flight) : (w.modFlight id f).flights = w.flights.map (fun x => if x.id = id then f x else x) := rfl
@[simp] theorem Work.modFlight_faces (w : Work) (id : Nat) (f : Flight → Flight) : (w.modFlight id f).faces = w.faces := rfl
@[simp] theorem Work.modFlight_gals (w : Work) (id : Nat) (f : Flight → Flight) : (w.modFlight id f).gals = w.gals := rfl
@[simp] theorem Work.modFlight_ports (w : Work) (id : Nat) (f : Flight → Flight) : (w.modFlight id f).ports = w.ports := rfl
@[simp] theorem Work.modFlight_fab (w : Work) (id : Nat) (f : Flight → Flight) : (w.modFlight id f).fab = w.fab := rfl
@[simp] theorem Work.modFlight_txns (w : Work) (id : Nat) (f : Flight → Flight) : (w.modFlight id f).txns = w.txns := rfl
@[simp] theorem Work.modFlight_rings (w : Work) (id : Nat) (f : Flight → Flight) : (w.modFlight id f).rings = w.rings := rfl
@[simp] theorem Work.modFlight_collIn (w : Work) (id : Nat) (f : Flight → Flight) : (w.modFlight id f).collIn = w.collIn := rfl
@[simp] theorem Work.modFlight_grants (w : Work) (id : Nat) (f : Flight → Flight) : (w.modFlight id f).grants = w.grants := rfl
@[simp] theorem Work.modFlight_books (w : Work) (id : Nat) (f : Flight → Flight) : (w.modFlight id f).books = w.books := rfl
@[simp] theorem Work.modFlight_host (w : Work) (id : Nat) (f : Flight → Flight) : (w.modFlight id f).host = w.host := rfl
@[simp] theorem Work.modFlight_boot (w : Work) (id : Nat) (f : Flight → Flight) : (w.modFlight id f).boot = w.boot := rfl
@[simp] theorem Work.modFlight_flash (w : Work) (id : Nat) (f : Flight → Flight) : (w.modFlight id f).flash = w.flash := rfl
@[simp] theorem Work.modFlight_pwr (w : Work) (id : Nat) (f : Flight → Flight) : (w.modFlight id f).pwr = w.pwr := rfl
@[simp] theorem Work.modFlight_out (w : Work) (id : Nat) (f : Flight → Flight) : (w.modFlight id f).out = w.out := rfl
@[simp] theorem Work.modFlight_mem (w : Work) (id : Nat) (f : Flight → Flight) : (w.modFlight id f).mem = w.mem := rfl
@[simp] theorem Work.modFlight_wr (w : Work) (id : Nat) (f : Flight → Flight) : (w.modFlight id f).wr = w.wr := rfl

/-! ## `Work.delFlight` -/

@[simp] theorem Work.delFlight_clk (w : Work) (id : Nat) : (w.delFlight id).clk = w.clk := rfl
@[simp] theorem Work.delFlight_bell (w : Work) (id : Nat) : (w.delFlight id).bell = w.bell := rfl
@[simp] theorem Work.delFlight_ms (w : Work) (id : Nat) : (w.delFlight id).ms = w.ms := rfl
@[simp] theorem Work.delFlight_struct (w : Work) (id : Nat) : (w.delFlight id).struct = w.struct := rfl
@[simp] theorem Work.delFlight_dev (w : Work) (id : Nat) : (w.delFlight id).dev = w.dev := rfl
@[simp] theorem Work.delFlight_parts (w : Work) (id : Nat) : (w.delFlight id).parts = w.parts := rfl
@[simp] theorem Work.delFlight_ctxs (w : Work) (id : Nat) : (w.delFlight id).ctxs = w.ctxs := rfl
@[simp] theorem Work.delFlight_tags (w : Work) (id : Nat) : (w.delFlight id).tags = w.tags := rfl
@[simp] theorem Work.delFlight_descs (w : Work) (id : Nat) : (w.delFlight id).descs = w.descs := rfl
@[simp] theorem Work.delFlight_flights (w : Work) (id : Nat) : (w.delFlight id).flights = w.flights.filter (fun x => x.id ≠ id) := rfl
@[simp] theorem Work.delFlight_faces (w : Work) (id : Nat) : (w.delFlight id).faces = w.faces := rfl
@[simp] theorem Work.delFlight_gals (w : Work) (id : Nat) : (w.delFlight id).gals = w.gals := rfl
@[simp] theorem Work.delFlight_ports (w : Work) (id : Nat) : (w.delFlight id).ports = w.ports := rfl
@[simp] theorem Work.delFlight_fab (w : Work) (id : Nat) : (w.delFlight id).fab = w.fab := rfl
@[simp] theorem Work.delFlight_txns (w : Work) (id : Nat) : (w.delFlight id).txns = w.txns := rfl
@[simp] theorem Work.delFlight_rings (w : Work) (id : Nat) : (w.delFlight id).rings = w.rings := rfl
@[simp] theorem Work.delFlight_collIn (w : Work) (id : Nat) : (w.delFlight id).collIn = w.collIn := rfl
@[simp] theorem Work.delFlight_grants (w : Work) (id : Nat) : (w.delFlight id).grants = w.grants := rfl
@[simp] theorem Work.delFlight_books (w : Work) (id : Nat) : (w.delFlight id).books = w.books := rfl
@[simp] theorem Work.delFlight_host (w : Work) (id : Nat) : (w.delFlight id).host = w.host := rfl
@[simp] theorem Work.delFlight_boot (w : Work) (id : Nat) : (w.delFlight id).boot = w.boot := rfl
@[simp] theorem Work.delFlight_flash (w : Work) (id : Nat) : (w.delFlight id).flash = w.flash := rfl
@[simp] theorem Work.delFlight_pwr (w : Work) (id : Nat) : (w.delFlight id).pwr = w.pwr := rfl
@[simp] theorem Work.delFlight_out (w : Work) (id : Nat) : (w.delFlight id).out = w.out := rfl
@[simp] theorem Work.delFlight_mem (w : Work) (id : Nat) : (w.delFlight id).mem = w.mem := rfl
@[simp] theorem Work.delFlight_wr (w : Work) (id : Nat) : (w.delFlight id).wr = w.wr := rfl

/-! ## `Work.modTxn` -/

@[simp] theorem Work.modTxn_clk (w : Work) (id : Nat) (f : Txn → Txn) : (w.modTxn id f).clk = w.clk := rfl
@[simp] theorem Work.modTxn_bell (w : Work) (id : Nat) (f : Txn → Txn) : (w.modTxn id f).bell = w.bell := rfl
@[simp] theorem Work.modTxn_ms (w : Work) (id : Nat) (f : Txn → Txn) : (w.modTxn id f).ms = w.ms := rfl
@[simp] theorem Work.modTxn_struct (w : Work) (id : Nat) (f : Txn → Txn) : (w.modTxn id f).struct = w.struct := rfl
@[simp] theorem Work.modTxn_dev (w : Work) (id : Nat) (f : Txn → Txn) : (w.modTxn id f).dev = w.dev := rfl
@[simp] theorem Work.modTxn_parts (w : Work) (id : Nat) (f : Txn → Txn) : (w.modTxn id f).parts = w.parts := rfl
@[simp] theorem Work.modTxn_ctxs (w : Work) (id : Nat) (f : Txn → Txn) : (w.modTxn id f).ctxs = w.ctxs := rfl
@[simp] theorem Work.modTxn_tags (w : Work) (id : Nat) (f : Txn → Txn) : (w.modTxn id f).tags = w.tags := rfl
@[simp] theorem Work.modTxn_descs (w : Work) (id : Nat) (f : Txn → Txn) : (w.modTxn id f).descs = w.descs := rfl
@[simp] theorem Work.modTxn_flights (w : Work) (id : Nat) (f : Txn → Txn) : (w.modTxn id f).flights = w.flights := rfl
@[simp] theorem Work.modTxn_faces (w : Work) (id : Nat) (f : Txn → Txn) : (w.modTxn id f).faces = w.faces := rfl
@[simp] theorem Work.modTxn_gals (w : Work) (id : Nat) (f : Txn → Txn) : (w.modTxn id f).gals = w.gals := rfl
@[simp] theorem Work.modTxn_ports (w : Work) (id : Nat) (f : Txn → Txn) : (w.modTxn id f).ports = w.ports := rfl
@[simp] theorem Work.modTxn_fab (w : Work) (id : Nat) (f : Txn → Txn) : (w.modTxn id f).fab = w.fab := rfl
@[simp] theorem Work.modTxn_txns (w : Work) (id : Nat) (f : Txn → Txn) : (w.modTxn id f).txns = w.txns.map (fun x => if x.id = id then f x else x) := rfl
@[simp] theorem Work.modTxn_rings (w : Work) (id : Nat) (f : Txn → Txn) : (w.modTxn id f).rings = w.rings := rfl
@[simp] theorem Work.modTxn_collIn (w : Work) (id : Nat) (f : Txn → Txn) : (w.modTxn id f).collIn = w.collIn := rfl
@[simp] theorem Work.modTxn_grants (w : Work) (id : Nat) (f : Txn → Txn) : (w.modTxn id f).grants = w.grants := rfl
@[simp] theorem Work.modTxn_books (w : Work) (id : Nat) (f : Txn → Txn) : (w.modTxn id f).books = w.books := rfl
@[simp] theorem Work.modTxn_host (w : Work) (id : Nat) (f : Txn → Txn) : (w.modTxn id f).host = w.host := rfl
@[simp] theorem Work.modTxn_boot (w : Work) (id : Nat) (f : Txn → Txn) : (w.modTxn id f).boot = w.boot := rfl
@[simp] theorem Work.modTxn_flash (w : Work) (id : Nat) (f : Txn → Txn) : (w.modTxn id f).flash = w.flash := rfl
@[simp] theorem Work.modTxn_pwr (w : Work) (id : Nat) (f : Txn → Txn) : (w.modTxn id f).pwr = w.pwr := rfl
@[simp] theorem Work.modTxn_out (w : Work) (id : Nat) (f : Txn → Txn) : (w.modTxn id f).out = w.out := rfl
@[simp] theorem Work.modTxn_mem (w : Work) (id : Nat) (f : Txn → Txn) : (w.modTxn id f).mem = w.mem := rfl
@[simp] theorem Work.modTxn_wr (w : Work) (id : Nat) (f : Txn → Txn) : (w.modTxn id f).wr = w.wr := rfl

/-! ## `Work.putByte` -/

@[simp] theorem Work.putByte_clk (w : Work) (a b : Nat) : (w.putByte a b).clk = w.clk := rfl
@[simp] theorem Work.putByte_bell (w : Work) (a b : Nat) : (w.putByte a b).bell = w.bell := rfl
@[simp] theorem Work.putByte_ms (w : Work) (a b : Nat) : (w.putByte a b).ms = w.ms := rfl
@[simp] theorem Work.putByte_struct (w : Work) (a b : Nat) : (w.putByte a b).struct = w.struct := rfl
@[simp] theorem Work.putByte_dev (w : Work) (a b : Nat) : (w.putByte a b).dev = w.dev := rfl
@[simp] theorem Work.putByte_parts (w : Work) (a b : Nat) : (w.putByte a b).parts = w.parts := rfl
@[simp] theorem Work.putByte_ctxs (w : Work) (a b : Nat) : (w.putByte a b).ctxs = w.ctxs := rfl
@[simp] theorem Work.putByte_tags (w : Work) (a b : Nat) : (w.putByte a b).tags = w.tags := rfl
@[simp] theorem Work.putByte_descs (w : Work) (a b : Nat) : (w.putByte a b).descs = w.descs := rfl
@[simp] theorem Work.putByte_flights (w : Work) (a b : Nat) : (w.putByte a b).flights = w.flights := rfl
@[simp] theorem Work.putByte_faces (w : Work) (a b : Nat) : (w.putByte a b).faces = w.faces := rfl
@[simp] theorem Work.putByte_gals (w : Work) (a b : Nat) : (w.putByte a b).gals = w.gals := rfl
@[simp] theorem Work.putByte_ports (w : Work) (a b : Nat) : (w.putByte a b).ports = w.ports := rfl
@[simp] theorem Work.putByte_fab (w : Work) (a b : Nat) : (w.putByte a b).fab = w.fab := rfl
@[simp] theorem Work.putByte_txns (w : Work) (a b : Nat) : (w.putByte a b).txns = w.txns := rfl
@[simp] theorem Work.putByte_rings (w : Work) (a b : Nat) : (w.putByte a b).rings = w.rings := rfl
@[simp] theorem Work.putByte_collIn (w : Work) (a b : Nat) : (w.putByte a b).collIn = w.collIn := rfl
@[simp] theorem Work.putByte_grants (w : Work) (a b : Nat) : (w.putByte a b).grants = w.grants := rfl
@[simp] theorem Work.putByte_books (w : Work) (a b : Nat) : (w.putByte a b).books = w.books := rfl
@[simp] theorem Work.putByte_host (w : Work) (a b : Nat) : (w.putByte a b).host = w.host := rfl
@[simp] theorem Work.putByte_boot (w : Work) (a b : Nat) : (w.putByte a b).boot = w.boot := rfl
@[simp] theorem Work.putByte_flash (w : Work) (a b : Nat) : (w.putByte a b).flash = w.flash := rfl
@[simp] theorem Work.putByte_pwr (w : Work) (a b : Nat) : (w.putByte a b).pwr = w.pwr := rfl
@[simp] theorem Work.putByte_out (w : Work) (a b : Nat) : (w.putByte a b).out = w.out := rfl
@[simp] theorem Work.putByte_mem (w : Work) (a b : Nat) : (w.putByte a b).mem = w.mem := rfl
@[simp] theorem Work.putByte_wr (w : Work) (a b : Nat) : (w.putByte a b).wr = .byte a (BitVec.ofNat 8 b) :: w.wr := rfl

/-! ## `Work.clear` -/

@[simp] theorem Work.clear_clk (w : Work) (lo hi : Nat) : (w.clear lo hi).clk = w.clk := rfl
@[simp] theorem Work.clear_bell (w : Work) (lo hi : Nat) : (w.clear lo hi).bell = w.bell := rfl
@[simp] theorem Work.clear_ms (w : Work) (lo hi : Nat) : (w.clear lo hi).ms = w.ms := rfl
@[simp] theorem Work.clear_struct (w : Work) (lo hi : Nat) : (w.clear lo hi).struct = w.struct := rfl
@[simp] theorem Work.clear_dev (w : Work) (lo hi : Nat) : (w.clear lo hi).dev = w.dev := rfl
@[simp] theorem Work.clear_parts (w : Work) (lo hi : Nat) : (w.clear lo hi).parts = w.parts := rfl
@[simp] theorem Work.clear_ctxs (w : Work) (lo hi : Nat) : (w.clear lo hi).ctxs = w.ctxs := rfl
@[simp] theorem Work.clear_tags (w : Work) (lo hi : Nat) : (w.clear lo hi).tags = w.tags := rfl
@[simp] theorem Work.clear_descs (w : Work) (lo hi : Nat) : (w.clear lo hi).descs = w.descs := rfl
@[simp] theorem Work.clear_flights (w : Work) (lo hi : Nat) : (w.clear lo hi).flights = w.flights := rfl
@[simp] theorem Work.clear_faces (w : Work) (lo hi : Nat) : (w.clear lo hi).faces = w.faces := rfl
@[simp] theorem Work.clear_gals (w : Work) (lo hi : Nat) : (w.clear lo hi).gals = w.gals := rfl
@[simp] theorem Work.clear_ports (w : Work) (lo hi : Nat) : (w.clear lo hi).ports = w.ports := rfl
@[simp] theorem Work.clear_fab (w : Work) (lo hi : Nat) : (w.clear lo hi).fab = w.fab := rfl
@[simp] theorem Work.clear_txns (w : Work) (lo hi : Nat) : (w.clear lo hi).txns = w.txns := rfl
@[simp] theorem Work.clear_rings (w : Work) (lo hi : Nat) : (w.clear lo hi).rings = w.rings := rfl
@[simp] theorem Work.clear_collIn (w : Work) (lo hi : Nat) : (w.clear lo hi).collIn = w.collIn := rfl
@[simp] theorem Work.clear_grants (w : Work) (lo hi : Nat) : (w.clear lo hi).grants = w.grants := rfl
@[simp] theorem Work.clear_books (w : Work) (lo hi : Nat) : (w.clear lo hi).books = w.books := rfl
@[simp] theorem Work.clear_host (w : Work) (lo hi : Nat) : (w.clear lo hi).host = w.host := rfl
@[simp] theorem Work.clear_boot (w : Work) (lo hi : Nat) : (w.clear lo hi).boot = w.boot := rfl
@[simp] theorem Work.clear_flash (w : Work) (lo hi : Nat) : (w.clear lo hi).flash = w.flash := rfl
@[simp] theorem Work.clear_pwr (w : Work) (lo hi : Nat) : (w.clear lo hi).pwr = w.pwr := rfl
@[simp] theorem Work.clear_out (w : Work) (lo hi : Nat) : (w.clear lo hi).out = w.out := rfl
@[simp] theorem Work.clear_mem (w : Work) (lo hi : Nat) : (w.clear lo hi).mem = w.mem := rfl
@[simp] theorem Work.clear_wr (w : Work) (lo hi : Nat) : (w.clear lo hi).wr = .clear lo hi :: w.wr := rfl

/-! ## A command begins and ends -/

@[simp] theorem State.begin_clk (s : State) : s.begin_.clk = s.clk := rfl
@[simp] theorem State.begin_bell (s : State) : s.begin_.bell = s.bell := rfl
@[simp] theorem State.begin_ms (s : State) : s.begin_.ms = s.ms := rfl
@[simp] theorem State.begin_struct (s : State) : s.begin_.struct = s.struct := rfl
@[simp] theorem State.begin_dev (s : State) : s.begin_.dev = s.dev := rfl
@[simp] theorem State.begin_parts (s : State) : s.begin_.parts = s.parts := rfl
@[simp] theorem State.begin_ctxs (s : State) : s.begin_.ctxs = s.ctxs := rfl
@[simp] theorem State.begin_tags (s : State) : s.begin_.tags = s.tags := rfl
@[simp] theorem State.begin_descs (s : State) : s.begin_.descs = s.descs := rfl
@[simp] theorem State.begin_flights (s : State) : s.begin_.flights = s.flights := rfl
@[simp] theorem State.begin_faces (s : State) : s.begin_.faces = s.faces := rfl
@[simp] theorem State.begin_gals (s : State) : s.begin_.gals = s.gals := rfl
@[simp] theorem State.begin_ports (s : State) : s.begin_.ports = s.ports := rfl
@[simp] theorem State.begin_fab (s : State) : s.begin_.fab = s.fab := rfl
@[simp] theorem State.begin_txns (s : State) : s.begin_.txns = s.txns := rfl
@[simp] theorem State.begin_rings (s : State) : s.begin_.rings = s.rings := rfl
@[simp] theorem State.begin_collIn (s : State) : s.begin_.collIn = s.collIn := rfl
@[simp] theorem State.begin_grants (s : State) : s.begin_.grants = s.grants := rfl
@[simp] theorem State.begin_books (s : State) : s.begin_.books = s.books := rfl
@[simp] theorem State.begin_host (s : State) : s.begin_.host = s.host := rfl
@[simp] theorem State.begin_boot (s : State) : s.begin_.boot = s.boot := rfl
@[simp] theorem State.begin_flash (s : State) : s.begin_.flash = s.flash := rfl
@[simp] theorem State.begin_pwr (s : State) : s.begin_.pwr = s.pwr := rfl
@[simp] theorem State.begin_out (s : State) : s.begin_.out = s.out := rfl
@[simp] theorem State.begin_mem (s : State) : s.begin_.mem = s.mem := rfl
@[simp] theorem State.begin_wr (s : State) : s.begin_.wr = [] := rfl
@[simp] theorem State.begin_toBlk (s : State) : s.begin_.toBlk = s.toBlk := rfl
@[simp] theorem State.settle_clk (s : State) (w : Work) : (s.settle w).clk = w.clk := rfl
@[simp] theorem State.settle_bell (s : State) (w : Work) : (s.settle w).bell = w.bell := rfl
@[simp] theorem State.settle_ms (s : State) (w : Work) : (s.settle w).ms = w.ms := rfl
@[simp] theorem State.settle_struct (s : State) (w : Work) : (s.settle w).struct = w.struct := rfl
@[simp] theorem State.settle_dev (s : State) (w : Work) : (s.settle w).dev = w.dev := rfl
@[simp] theorem State.settle_parts (s : State) (w : Work) : (s.settle w).parts = w.parts := rfl
@[simp] theorem State.settle_ctxs (s : State) (w : Work) : (s.settle w).ctxs = w.ctxs := rfl
@[simp] theorem State.settle_tags (s : State) (w : Work) : (s.settle w).tags = w.tags := rfl
@[simp] theorem State.settle_descs (s : State) (w : Work) : (s.settle w).descs = w.descs := rfl
@[simp] theorem State.settle_flights (s : State) (w : Work) : (s.settle w).flights = w.flights := rfl
@[simp] theorem State.settle_faces (s : State) (w : Work) : (s.settle w).faces = w.faces := rfl
@[simp] theorem State.settle_gals (s : State) (w : Work) : (s.settle w).gals = w.gals := rfl
@[simp] theorem State.settle_ports (s : State) (w : Work) : (s.settle w).ports = w.ports := rfl
@[simp] theorem State.settle_fab (s : State) (w : Work) : (s.settle w).fab = w.fab := rfl
@[simp] theorem State.settle_txns (s : State) (w : Work) : (s.settle w).txns = w.txns := rfl
@[simp] theorem State.settle_rings (s : State) (w : Work) : (s.settle w).rings = w.rings := rfl
@[simp] theorem State.settle_collIn (s : State) (w : Work) : (s.settle w).collIn = w.collIn := rfl
@[simp] theorem State.settle_grants (s : State) (w : Work) : (s.settle w).grants = w.grants := rfl
@[simp] theorem State.settle_books (s : State) (w : Work) : (s.settle w).books = w.books := rfl
@[simp] theorem State.settle_host (s : State) (w : Work) : (s.settle w).host = w.host := rfl
@[simp] theorem State.settle_boot (s : State) (w : Work) : (s.settle w).boot = w.boot := rfl
@[simp] theorem State.settle_flash (s : State) (w : Work) : (s.settle w).flash = w.flash := rfl
@[simp] theorem State.settle_pwr (s : State) (w : Work) : (s.settle w).pwr = w.pwr := rfl
@[simp] theorem State.settle_out (s : State) (w : Work) : (s.settle w).out = w.out := rfl
@[simp] theorem State.settle_toBlk (s : State) (w : Work) : (s.settle w).toBlk = w.toBlk := rfl
@[simp] theorem State.settle_pending (s : State) (w : Work) : (s.settle w).pending = s.pending := rfl

/-- A command that does nothing leaves the state as it is. -/
@[simp] theorem State.settle_begin (s : State) : s.settle s.begin_ = s := by
  simp [State.settle, State.begin_, Mem.act]

/-- A command that writes no memory and gives no repair command leaves the memory as it was. -/
theorem State.settle_mem_same (s : State) (w : Work) (h : w.wr = []) (k : w.ms.scrambled = s.ms.scrambled) :
    (s.settle w).mem = s.mem := by
  simp [State.settle, h, k, Mem.act]

/-- What a run answers. -/
@[simp] theorem run_eq (f : Work → Work) (s : State) : run f s = .next (s.settle (f s.begin_)) := rfl

/-- A run on a unit that exists. -/
theorem runIf_of (c : Bool) (f : Work → Work) (s : State) (h : c = true) : runIf c f s = .next (s.settle (f s.begin_)) := by
  simp [runIf, h]

/-- A run either names a unit that does not exist, and faults, or settles the state. -/
theorem runIf_cases (c : Bool) (f : Work → Work) (s : State) :
    (c = false ∧ runIf c f s = .fault .noSuchUnit) ∨ (c = true ∧ runIf c f s = .next (s.settle (f s.begin_))) := by
  cases c
  · exact .inl ⟨rfl, rfl⟩
  · exact .inr ⟨rfl, rfl⟩

end Sys2Proof.Machine
end

