-- ==== Sys2Proof/Laws/Tables.lean ====
section
/-! SUPPORT. Sparse tables: what is read after a write, and the canonical form. -/

namespace Sys2Proof.Machine

section
variable {α : Type}

@[simp] theorem Tab.get_nil (d : α) (i : Nat) : Tab.get d ([] : Tab α) i = d := rfl

theorem Tab.get_ins_same (d : α) (t : Tab α) (i : Nat) (x : α) : Tab.get d (Tab.ins t i x) i = x := by
  induction t with
  | nil => simp [Tab.ins, Tab.get]
  | cons e t ih =>
    obtain ⟨k, v⟩ := e
    unfold Tab.ins
    split
    · simp [Tab.get]
    · split
      · simp [Tab.get]
      · next h => simp [Tab.get, h, ih]

theorem Tab.get_ins_other (d : α) (t : Tab α) (i j : Nat) (x : α) (h : j ≠ i) : Tab.get d (Tab.ins t i x) j = Tab.get d t j := by
  have h' : ¬ i = j := fun e => h e.symm
  induction t with
  | nil => simp [Tab.ins, Tab.get, h']
  | cons e t ih =>
    obtain ⟨k, v⟩ := e
    unfold Tab.ins
    split
    · simp [Tab.get, h']
    · split
      · next hk => subst hk; simp [Tab.get, h']
      · simp [Tab.get, ih]

theorem Tab.get_del_same (d : α) (t : Tab α) (i : Nat) : Tab.get d (Tab.del t i) i = d := by
  induction t with
  | nil => rfl
  | cons e t ih =>
    obtain ⟨k, v⟩ := e
    by_cases h : k = i
    · simpa [Tab.del, h] using ih
    · have : Tab.del ((k, v) :: t) i = (k, v) :: Tab.del t i := by simp [Tab.del, h]
      rw [this]; simp [Tab.get, h, ih]

theorem Tab.get_del_other (d : α) (t : Tab α) (i j : Nat) (h : j ≠ i) : Tab.get d (Tab.del t i) j = Tab.get d t j := by
  induction t with
  | nil => rfl
  | cons e t ih =>
    obtain ⟨k, v⟩ := e
    by_cases hk : k = i
    · have hj : ¬ i = j := fun e => h e.symm
      have : Tab.del ((k, v) :: t) i = Tab.del t i := by simp [Tab.del, hk]
      rw [this, ih]; simp [Tab.get, hk, hj]
    · have : Tab.del ((k, v) :: t) i = (k, v) :: Tab.del t i := by simp [Tab.del, hk]
      rw [this]; simp [Tab.get, ih]

variable [DecidableEq α]

/-- A table reads back what was set. -/
@[simp] theorem Tab.get_set_same (d : α) (t : Tab α) (i : Nat) (x : α) : Tab.get d (Tab.set d t i x) i = x := by
  unfold Tab.set
  split
  · next h => rw [Tab.get_del_same, h]
  · exact Tab.get_ins_same d t i x

/-- Setting one entry leaves the others. -/
theorem Tab.get_set_other (d : α) (t : Tab α) (i j : Nat) (x : α) (h : j ≠ i) : Tab.get d (Tab.set d t i x) j = Tab.get d t j := by
  unfold Tab.set
  split
  · exact Tab.get_del_other d t i j h
  · exact Tab.get_ins_other d t i j x h

@[simp] theorem Tab.get_upd_same (d : α) (t : Tab α) (i : Nat) (f : α → α) : Tab.get d (Tab.upd d t i f) i = f (Tab.get d t i) :=
  Tab.get_set_same d t i _

theorem Tab.get_upd_other (d : α) (t : Tab α) (i j : Nat) (f : α → α) (h : j ≠ i) :
    Tab.get d (Tab.upd d t i f) j = Tab.get d t j :=
  Tab.get_set_other d t i j _ h

/-- Reading a table after one entry changed. -/
theorem Tab.get_upd (d : α) (t : Tab α) (i j : Nat) (f : α → α) :
    Tab.get d (Tab.upd d t i f) j = if j = i then f (Tab.get d t i) else Tab.get d t j := by
  split
  · next h => rw [h, Tab.get_upd_same]
  · next h => exact Tab.get_upd_other d t i j f h

end

/-! ## The canonical form -/

/-- Every key of a table is above a bound. -/
def Tab.above {α : Type} (t : Tab α) (n : Nat) : Prop := ∀ e ∈ t, n < e.1

/-- A head and a canonical tail above it make a canonical table. -/
theorem Tab.wf_cons {α : Type} [DecidableEq α] (d : α) (k : Nat) (v : α) (t : Tab α) :
    Tab.wf d ((k, v) :: t) = true ↔ v ≠ d ∧ Tab.above t k ∧ Tab.wf d t = true := by
  induction t generalizing k v with
  | nil => simp [Tab.wf, Tab.above]
  | cons e t ih =>
    obtain ⟨k', v'⟩ := e
    have hw := ih k' v'
    constructor
    · intro h
      simp only [Tab.wf, Bool.and_eq_true, decide_eq_true_eq] at h
      obtain ⟨⟨h1, h2⟩, h3⟩ := h
      obtain ⟨_, h5, _⟩ := hw.1 h3
      refine ⟨h1, ?_, h3⟩
      intro e he
      rcases List.mem_cons.1 he with rfl | he
      · exact h2
      · exact Nat.lt_trans h2 (h5 e he)
    · rintro ⟨h1, h2, h3⟩
      simp only [Tab.wf, Bool.and_eq_true, decide_eq_true_eq]
      exact ⟨⟨h1, h2 (k', v') (List.mem_cons_self ..)⟩, h3⟩

theorem Tab.mem_ins {α : Type} (t : Tab α) (i : Nat) (x : α) (e : Nat × α) (h : e ∈ Tab.ins t i x) : e = (i, x) ∨ e ∈ t := by
  induction t with
  | nil => simpa [Tab.ins] using h
  | cons f t ih =>
    obtain ⟨k, v⟩ := f
    unfold Tab.ins at h
    split at h
    · simpa using h
    · split at h
      · rcases List.mem_cons.1 h with h | h
        · exact .inl h
        · exact .inr (List.mem_cons_of_mem _ h)
      · rcases List.mem_cons.1 h with h | h
        · exact .inr (h ▸ List.mem_cons_self ..)
        · rcases ih h with h | h
          · exact .inl h
          · exact .inr (List.mem_cons_of_mem _ h)

section
variable {α : Type} [DecidableEq α]

theorem Tab.wf_ins (d : α) (t : Tab α) (i : Nat) (x : α) (hx : x ≠ d) (h : Tab.wf d t = true) : Tab.wf d (Tab.ins t i x) = true := by
  induction t with
  | nil => simp [Tab.ins, Tab.wf, hx]
  | cons e t ih =>
    obtain ⟨k, v⟩ := e
    obtain ⟨h1, h2, h3⟩ := (Tab.wf_cons d k v t).1 h
    unfold Tab.ins
    split
    · next hk =>
      refine (Tab.wf_cons d i x _).2 ⟨hx, ?_, h⟩
      intro e he
      rcases List.mem_cons.1 he with rfl | he
      · exact hk
      · exact Nat.lt_trans hk (h2 e he)
    · split
      · next hk => subst hk; exact (Tab.wf_cons d k x t).2 ⟨hx, h2, h3⟩
      · next h4 h5 =>
        refine (Tab.wf_cons d k v _).2 ⟨h1, ?_, ih h3⟩
        intro e he
        rcases Tab.mem_ins t i x e he with rfl | he
        · omega
        · exact h2 e he

theorem Tab.wf_filter (d : α) (t : Tab α) (c : Nat × α → Bool) (h : Tab.wf d t = true) :
    Tab.wf d (List.filter c t) = true := by
  induction t with
  | nil => exact h
  | cons e t ih =>
    obtain ⟨k, v⟩ := e
    obtain ⟨h1, h2, h3⟩ := (Tab.wf_cons d k v t).1 h
    by_cases hc : c (k, v) = true
    · rw [List.filter_cons_of_pos hc]
      exact (Tab.wf_cons d k v _).2 ⟨h1, fun e he => h2 e (List.mem_filter.1 he).1, ih h3⟩
    · rw [List.filter_cons_of_neg hc]
      exact ih h3

/-- Setting an entry keeps the canonical form. -/
theorem Tab.wf_set (d : α) (t : Tab α) (i : Nat) (x : α) (h : Tab.wf d t = true) : Tab.wf d (Tab.set d t i x) = true := by
  unfold Tab.set
  split
  · exact Tab.wf_filter d t _ h
  · next hx => exact Tab.wf_ins d t i x hx h

/-- Changing an entry keeps the canonical form. -/
theorem Tab.wf_upd (d : α) (t : Tab α) (i : Nat) (f : α → α) (h : Tab.wf d t = true) : Tab.wf d (Tab.upd d t i f) = true :=
  Tab.wf_set d t i _ h

end

/-- A record that is written reads as the new value where its writing ends, and else as the old one (R521). -/
@[simp] theorem Twin.read_put {α : Type} (t : Twin α) (whole : Bool) (v : α) : (t.put whole v).read = if whole then v else t.read := by
  obtain ⟨⟨sa, va, ka⟩, ⟨sb, vb, kb⟩⟩ := t
  cases ka <;> cases kb <;> cases whole <;> by_cases h : sa < sb <;> simp [Twin.put, Twin.read, Twin.useB, h, show ∀ n : Nat, ¬n + 1 < n by omega]

end Sys2Proof.Machine
end

