-- ==== Sys2Proof/Laws/Memory.lean ====
section
/-! SUPPORT. Device memory: what is read after a write, that every operation keeps the canonical form, and what a command's
acts leave. -/

namespace Sys2Proof.Machine

section
variable (d : Nat → Byte)

/-! ## Reading after writing -/

theorem Mem.read_ins (m : Mem) (a : Nat) (b : Byte) (x : Nat) :
    Mem.read d (m.ins a b) x = if x = a then b else Mem.read d m x := by
  induction m with
  | nil =>
    by_cases h : x = a
    · simp [Mem.ins, Mem.read, h]
    · have h' : ¬ a = x := fun e => h e.symm
      simp [Mem.ins, Mem.read, h, h']
  | cons c m ih =>
    obtain ⟨k, v⟩ := c
    unfold Mem.ins
    by_cases h : x = a
    · subst h
      split
      · simp [Mem.read]
      · split
        · simp [Mem.read]
        · next h2 => simp [Mem.read, h2, ih]
    · have h' : ¬ a = x := fun e => h e.symm
      split
      · simp [Mem.read, h']
      · split
        · next hk => subst hk; simp [Mem.read, h']
        · simp [Mem.read, h, ih]

theorem Mem.read_filter (m : Mem) (c : Nat → Bool) (x : Nat) :
    Mem.read d (m.filter (fun e => c e.1)) x = if c x then Mem.read d m x else d x := by
  induction m with
  | nil => simp [Mem.read]
  | cons e m ih =>
    obtain ⟨k, v⟩ := e
    by_cases hc : c k = true
    · rw [List.filter_cons_of_pos (by simpa using hc)]
      by_cases hx : k = x
      · subst hx; simp [Mem.read, hc]
      · simp [Mem.read, hx, ih]
    · rw [List.filter_cons_of_neg (by simpa using hc), ih]
      by_cases hx : k = x
      · subst hx; simp [hc]
      · simp [Mem.read, hx]

/-- A byte reads back what was written, and no other byte changes. -/
theorem Mem.read_write (m : Mem) (a : Nat) (b : Byte) (x : Nat) :
    Mem.read d (m.write d a b) x = if x = a then b else Mem.read d m x := by
  unfold Mem.write
  split
  · next h =>
    have := Mem.read_filter d m (fun k => decide (k ≠ a)) x
    rw [this]
    by_cases hx : x = a
    · subst hx; simp [h]
    · simp [hx]
  · exact Mem.read_ins d m a b x

/-- A cleared range reads as what is unlisted. -/
theorem Mem.read_clear (m : Mem) (lo hi x : Nat) :
    Mem.read d (m.clear lo hi) x = if lo ≤ x ∧ x < hi then d x else Mem.read d m x := by
  have := Mem.read_filter d m (fun k => !(decide (lo ≤ k) && decide (k < hi))) x
  unfold Mem.clear
  rw [this]
  by_cases h : lo ≤ x ∧ x < hi
  · simp [h]
  · simp only [h, if_false]
    by_cases h1 : lo ≤ x
    · have : ¬ x < hi := fun h2 => h ⟨h1, h2⟩
      simp [this]
    · simp [h1]

/-- What memory holds after a command's acts is what the command saw. -/
theorem Mem.read_act (m : Mem) (l : List MemAct) (x : Nat) : Mem.read d (m.act d l) x = seen d m l x := by
  induction l with
  | nil => rfl
  | cons e l ih =>
    cases e with
    | byte a b =>
      simp only [Mem.act, MemAct.apply, seen]
      rw [Mem.read_write, ih]
      by_cases h : a = x
      · simp [h]
      · have h' : ¬ x = a := fun e => h e.symm
        simp [h, h']
    | clear lo hi =>
      simp only [Mem.act, MemAct.apply, seen]
      rw [Mem.read_clear, ih]

/-! ## The canonical form -/

theorem Mem.wf_cons (k : Nat) (v : Byte) (m : Mem) :
    Mem.wf d ((k, v) :: m) = true ↔ v ≠ d k ∧ (∀ e ∈ m, k < e.1) ∧ Mem.wf d m = true := by
  induction m generalizing k v with
  | nil => simp [Mem.wf]
  | cons e m ih =>
    obtain ⟨k', v'⟩ := e
    have hw := ih k' v'
    constructor
    · intro h
      simp only [Mem.wf, Bool.and_eq_true, decide_eq_true_eq] at h
      obtain ⟨⟨h1, h2⟩, h3⟩ := h
      obtain ⟨_, h5, _⟩ := hw.1 h3
      refine ⟨h1, ?_, h3⟩
      intro e he
      rcases List.mem_cons.1 he with rfl | he
      · exact h2
      · exact Nat.lt_trans h2 (h5 e he)
    · rintro ⟨h1, h2, h3⟩
      simp only [Mem.wf, Bool.and_eq_true, decide_eq_true_eq]
      exact ⟨⟨h1, h2 (k', v') (List.mem_cons_self ..)⟩, h3⟩

theorem Mem.mem_ins (m : Mem) (a : Nat) (b : Byte) (e : Host.Cell) (h : e ∈ m.ins a b) : e = (a, b) ∨ e ∈ m := by
  induction m with
  | nil => simpa [Mem.ins] using h
  | cons f m ih =>
    obtain ⟨k, v⟩ := f
    unfold Mem.ins at h
    split at h
    · simpa using h
    · split at h
      · rcases List.mem_cons.1 h with h | h
        · exact .inl h
        · exact .inr (List.mem_cons_of_mem _ h)
      · rcases List.mem_cons.1 h with h | h
        · exact .inr (h ▸ List.mem_cons_self ..)
        · rcases ih h with h | h
          · exact .inl h
          · exact .inr (List.mem_cons_of_mem _ h)

theorem Mem.wf_ins (m : Mem) (a : Nat) (b : Byte) (hb : b ≠ d a) (h : m.wf d = true) : (m.ins a b).wf d = true := by
  induction m with
  | nil => simp [Mem.ins, Mem.wf, hb]
  | cons e m ih =>
    obtain ⟨k, v⟩ := e
    obtain ⟨h1, h2, h3⟩ := (Mem.wf_cons d k v m).1 h
    unfold Mem.ins
    split
    · next hk =>
      refine (Mem.wf_cons d a b _).2 ⟨hb, ?_, h⟩
      intro e he
      rcases List.mem_cons.1 he with rfl | he
      · exact hk
      · exact Nat.lt_trans hk (h2 e he)
    · split
      · next hk => subst hk; exact (Mem.wf_cons d k b m).2 ⟨hb, h2, h3⟩
      · next h4 h5 =>
        refine (Mem.wf_cons d k v _).2 ⟨h1, ?_, ih h3⟩
        intro e he
        rcases Mem.mem_ins m a b e he with rfl | he
        · show k < a
          omega
        · exact h2 e he

theorem Mem.wf_filter (m : Mem) (c : Host.Cell → Bool) (h : m.wf d = true) : Mem.wf d (List.filter c m) = true := by
  induction m with
  | nil => exact h
  | cons e m ih =>
    obtain ⟨k, v⟩ := e
    obtain ⟨h1, h2, h3⟩ := (Mem.wf_cons d k v m).1 h
    by_cases hc : c (k, v) = true
    · rw [List.filter_cons_of_pos hc]
      exact (Mem.wf_cons d k v _).2 ⟨h1, fun e he => h2 e (List.mem_filter.1 he).1, ih h3⟩
    · rw [List.filter_cons_of_neg hc]
      exact ih h3

/-- Writing a byte keeps the canonical form. -/
theorem Mem.wf_write (m : Mem) (a : Nat) (b : Byte) (h : m.wf d = true) : (m.write d a b).wf d = true := by
  unfold Mem.write
  split
  · exact Mem.wf_filter d m _ h
  · next hb => exact Mem.wf_ins d m a b hb h

/-- Forgetting a range keeps the canonical form. -/
theorem Mem.wf_clear (m : Mem) (lo hi : Nat) (h : m.wf d = true) : (m.clear lo hi).wf d = true := Mem.wf_filter d m _ h

/-- A command's acts keep the canonical form. -/
theorem Mem.wf_act (m : Mem) (l : List MemAct) (h : m.wf d = true) : (m.act d l).wf d = true := by
  induction l with
  | nil => exact h
  | cons e l ih =>
    cases e with
    | byte a b => exact Mem.wf_write d _ a b ih
    | clear lo hi => exact Mem.wf_clear d _ lo hi ih

end

/-! ## The end of a command -/

/-- What a byte reads as after a command that gives no repair command and makes no device reset: what the command saw. -/
theorem State.settle_byte (s : State) (w : Work) (h : w.ms.scrambled = s.ms.scrambled) (a : Nat) :
    (s.settle w).byte a = seen w.dflt s.mem w.wr a := by
  have e : (s.settle w).mem = Mem.act w.dflt s.mem w.wr := by simp [State.settle, h]
  show Mem.read (s.settle w).toBlk.dflt (s.settle w).mem a = _
  rw [e, State.settle_toBlk]
  exact Mem.read_act _ _ _ _

/-- Whether a list is canonical rests only on what unlisted bytes read as at its own addresses. -/
theorem Mem.wf_congr (d d' : Nat → Byte) (m : Mem) (h : ∀ e ∈ m, d e.1 = d' e.1) (hw : m.wf d = true) : m.wf d' = true := by
  induction m with
  | nil => rfl
  | cons e m ih =>
    obtain ⟨k, v⟩ := e
    obtain ⟨h1, h2, h3⟩ := (Mem.wf_cons d k v m).1 hw
    refine (Mem.wf_cons d' k v m).2 ⟨?_, h2, ih (fun e he => h e (List.mem_cons_of_mem _ he)) h3⟩
    rw [← h (k, v) List.mem_cons_self]
    exact h1

/-- Outside HBM an unlisted byte reads as 0, whatever repair commands have been given. -/
theorem Mem.dflt_beyond (k : Option Nat) (a : Nat) (h : Config.hbmEnd ≤ a) : Mem.dflt k a = 0 := by
  unfold Mem.dflt
  split
  · rfl
  · exact if_neg (Nat.not_lt.2 h)

/-- The end of any command keeps the canonical form. -/
theorem State.settle_memWf (s : State) (w : Work) (h : s.memWf = true) : (s.settle w).memWf = true := by
  refine Mem.wf_act w.dflt _ _ ?_
  split
  · next e => simpa [State.memWf, Blk.dflt, e] using h
  · refine Mem.wf_congr s.dflt w.dflt _ ?_ (Mem.wf_clear _ _ _ _ h)
    intro e he
    have h2 : Config.hbmEnd ≤ e.1 := by
      have := (List.mem_filter.1 he).2
      simp at this
      omega
    rw [Blk.dflt, Blk.dflt, Mem.dflt_beyond _ _ h2, Mem.dflt_beyond _ _ h2]

end Sys2Proof.Machine
end

