-- ==== Sys2Proof/Laws/Frames.lean ====
section
/-! SUPPORT. What each shared operation can do, said once: which parts of the working state it may change (its frame, as an
equation between the two states with those parts blanked), what it writes, and what a lookup gives after it. -/

namespace Sys2Proof.Machine

/-! ## Folding a work step over a list -/

@[simp] theorem Work.each_nil {α : Type} (w : Work) (f : Work → α → Work) : w.each [] f = w := rfl
@[simp] theorem Work.each_cons {α : Type} (w : Work) (a : α) (l : List α) (f : Work → α → Work) :
    w.each (a :: l) f = (f w a).each l f := rfl
theorem Work.each_append {α : Type} (w : Work) (l m : List α) (f : Work → α → Work) :
    w.each (l ++ m) f = (w.each l f).each m f := by
  simp [Work.each, List.foldl_append]
/-- What every step keeps, the fold keeps. -/
theorem Work.each_keeps {α β : Type} (g : Work → β) (f : Work → α → Work) (h : ∀ w a, g (f w a) = g w) (l : List α) (w : Work) :
    g (w.each l f) = g w := by
  induction l generalizing w with
  | nil => rfl
  | cons a l ih => rw [Work.each_cons, ih, h]
/-- An invariant that every step keeps holds after the fold. -/
theorem Work.each_inv {α : Type} (p : Work → Prop) (f : Work → α → Work) (l : List α) (h : ∀ w, ∀ a ∈ l, p w → p (f w a)) (w : Work)
    (hw : p w) : p (w.each l f) := by
  induction l generalizing w with
  | nil => exact hw
  | cons a l ih =>
    exact ih (fun w b hb => h w b (List.mem_cons_of_mem _ hb)) _ (h w a List.mem_cons_self hw)

/-! ## Writing bytes -/

theorem Work.byte_putByte (w : Work) (a b x : Nat) : (w.putByte a b).byte x = if a = x then b % 256 else w.byte x := by
  show (if a = x then BitVec.ofNat 8 b else _).toNat = _
  split <;> simp [Work.byte, BitVec.toNat_ofNat] <;> rfl

/-- What a byte reads as after bytes have been written from an address up. -/
theorem Work.byte_put (l : List Nat) (w : Work) (a x : Nat) :
    (w.put a l).byte x = if a ≤ x ∧ x < a + l.length then nth l (x - a) % 256 else w.byte x := by
  induction l generalizing w a with
  | nil =>
    have h : ¬ (a ≤ x ∧ x < a + ([] : List Nat).length) := by rintro ⟨h1, h2⟩; simp at h2; omega
    rw [if_neg h]; rfl
  | cons b t ih =>
    rw [Work.put, ih, Work.byte_putByte]
    by_cases h : x = a
    · subst h
      rw [if_neg (by omega), if_pos rfl, if_pos (by simp), Nat.sub_self]
      rfl
    · by_cases h1 : a + 1 ≤ x ∧ x < a + 1 + t.length
      · have e : x - a = (x - (a + 1)) + 1 := by omega
        have h2 : a ≤ x ∧ x < a + (b :: t).length := by simp only [List.length_cons]; omega
        rw [if_pos h1, if_pos h2, e]
        simp [nth]
      · have h2 : ¬(a ≤ x ∧ x < a + (b :: t).length) := by simp only [List.length_cons]; omega
        rw [if_neg h1, if_neg h2, if_neg (fun h3 => h h3.symm)]

theorem Work.put_frame (l : List Nat) (w : Work) (a : Nat) : { w.put a l with wr := [] } = { w with wr := [] } := by
  induction l generalizing w a with
  | nil => rfl
  | cons b t ih => exact ih _ _

theorem Work.doWops_frame (l : List Wop) (w : Work) : { w.doWops l with wr := [] } = { w with wr := [] } := by
  induction l generalizing w with
  | nil => rfl
  | cons o os ih =>
    rw [Work.doWops, ih]
    exact Work.each_keeps (fun w : Work => { w with wr := [] }) (fun w (b : Nat × Nat) => w.putByte b.1 b.2) (fun _ _ => rfl) _ _

theorem Work.tornWops_frame (k : Nat) (l : List Wop) (w : Work) : { w.tornWops k l with wr := [] } = { w with wr := [] } := by
  induction l generalizing w with
  | nil => rfl
  | cons o os ih =>
    rw [Work.tornWops, ih]
    exact Work.each_keeps (fun w : Work => { w with wr := [] })
      (fun w (b : Nat × Nat) => if Config.torn k b.1 then w.putByte b.1 b.2 else w) (fun _ _ => by split <;> rfl) _ _

/-! ## Looking up what has been changed -/

theorem Work.flight?_modFlight (w : Work) (id k : Nat) (f : Flight → Flight) (h : ∀ x, (f x).id = x.id) :
    (w.modFlight id f).flight? k = (w.flight? k).map (fun x => if x.id = id then f x else x) := by
  have e : ((fun x : Flight => decide (x.id = k)) ∘ fun x => if x.id = id then f x else x) = fun x => decide (x.id = k) := by
    funext x; simp only [Function.comp]; split <;> simp [h]
  simp only [Blk.flight?, Work.modFlight, List.find?_map]; rw [e]

theorem Work.txn?_modTxn (w : Work) (id k : Nat) (f : Txn → Txn) (h : ∀ x, (f x).id = x.id) :
    (w.modTxn id f).txn? k = (w.txn? k).map (fun x => if x.id = id then f x else x) := by
  have e : ((fun x : Txn => decide (x.id = k)) ∘ fun x => if x.id = id then f x else x) = fun x => decide (x.id = k) := by
    funext x; simp only [Function.comp]; split <;> simp [h]
  simp only [Blk.txn?, Work.modTxn, List.find?_map]; rw [e]

theorem Work.session?_modSession (w : Work) (id k : Nat) (f : Session → Session) (h : ∀ x, (f x).id = x.id) :
    (w.modSession id f).session? k = (w.session? k).map (fun x => if x.id = id then f x else x) := by
  have e : ((fun x : Session => decide (x.id = k)) ∘ fun x => if x.id = id then f x else x) = fun x => decide (x.id = k) := by
    funext x; simp only [Function.comp]; split <;> simp [h]
  simp only [Blk.session?, Work.modSession, Work.modHost, List.find?_map]; rw [e]

theorem Work.port_modPort (w : Work) (n k : Nat) (f : Port → Port) :
    (w.modPort n f).port k = if k = n then f (w.port k) else w.port k := by
  show Tab.get _ (Tab.upd _ _ _ _) _ = _; rw [Tab.get_upd]; split <;> simp_all [Blk.port]
theorem Work.ctx_modCtx (w : Work) (n k : Nat) (f : Ctx → Ctx) :
    (w.modCtx n f).ctx k = if k = n then f (w.ctx k) else w.ctx k := by
  show Tab.get _ (Tab.upd _ _ _ _) _ = _; rw [Tab.get_upd]; split <;> simp_all [Blk.ctx]
theorem Work.part_modPart (w : Work) (n k : Nat) (f : Part → Part) :
    (w.modPart n f).part k = if k = n then f (w.part k) else w.part k := by
  show Tab.get _ (Tab.upd _ _ _ _) _ = _; rw [Tab.get_upd]; split <;> simp_all [Blk.part]
theorem Work.face_modFace (w : Work) (n k : Nat) (f : Face → Face) :
    (w.modFace n f).face k = if k = n then f (w.face k) else w.face k := by
  show Tab.get _ (Tab.upd _ _ _ _) _ = _; rw [Tab.get_upd]; split <;> simp_all [Blk.face]
theorem Work.gal_modGal (w : Work) (n k : Nat) (f : Gal → Gal) :
    (w.modGal n f).gal k = if k = n then f (w.gal k) else w.gal k := by
  show Tab.get _ (Tab.upd _ _ _ _) _ = _; rw [Tab.get_upd]; split <;> simp_all [Blk.gal]
theorem Work.window_modWindow (w : Work) (n k : Nat) (f : Window → Window) :
    (w.modWindow n f).window k = if k = n then f (w.window k) else w.window k := by
  show Tab.get _ (Tab.upd _ _ _ _) _ = _; rw [Tab.get_upd]; split <;> simp_all [Blk.window]
theorem Work.hostPort_modHostPort (w : Work) (n k : Nat) (f : HostPort → HostPort) :
    (w.modHostPort n f).hostPort k = if k = n then f (w.hostPort k) else w.hostPort k := by
  show Tab.get _ (Tab.upd _ _ _ _) _ = _; rw [Tab.get_upd]; split <;> simp_all [Blk.hostPort]
theorem Work.tag_setTag (w : Work) (t k : Nat) (v : W32) : (w.setTag t v).tag k = if k = t then v else w.tag k := by
  show Tab.get _ (Tab.set _ _ _ _) _ = _
  by_cases h : k = t
  · subst h; simp [Tab.get_set_same]
  · simp [Tab.get_set_other _ _ _ _ _ h, h, Blk.tag]

/-! ## Messages to the host (R501) -/

/-- What telling the host may change. -/
def tellBlank (w : Work) : Work := { w with host := {}, out := [] }

theorem Work.hostOut_frame (w : Work) (dest : HostTo) (n : Nat) (o : Out) : tellBlank (w.hostOut dest n o) = tellBlank w := by
  unfold Work.hostOut; split <;> rfl
/-- A packet that its port can take to its place leaves. -/
theorem Work.hostOut_out (w : Work) (dest : HostTo) (n : Nat) (o : Out) (h : (w.hostPort dest.port).canReach dest.addr = true) :
    (w.hostOut dest n o).out = w.out ++ [o] := by
  unfold Work.hostOut; rw [if_pos h]; rfl
theorem Work.hostSend_frame (w : Work) (dest : HostTo) (n : Nat) (o : Out) : tellBlank (w.hostSend dest n o) = tellBlank w :=
  w.hostOut_frame dest _ o
theorem Work.sessionMsg_frame (w : Work) (x : Session) (seq : Nat) (again : Bool) (m : DevMsg) :
    tellBlank (w.sessionMsg x seq again m) = tellBlank w :=
  Work.each_keeps tellBlank _ (fun w _ => w.hostSend_frame _ _ _) _ _
theorem Work.sendMsg_frame (w : Work) (id : Nat) (m : DevMsg) : tellBlank (w.sendMsg id m) = tellBlank w := by
  unfold Work.sendMsg
  split
  · rfl
  · exact Work.sessionMsg_frame _ _ _ _ _
theorem Work.raise_frame (w : Work) (kind part code shift : Nat) (l : List Nat) :
    tellBlank (w.raise kind part code shift l) = tellBlank w := by
  unfold Work.raise
  exact Work.each_keeps tellBlank _ (fun w (s : Session) => Work.sendMsg_frame w s.id _) _ _

/-! ## The canary (R454) -/

theorem Work.canaryAdd_frame (w : Work) (p i n : Nat) : { w.canaryAdd p i n with parts := [] } = { w with parts := [] } := rfl
theorem Work.canaryAll_frame (w : Work) (i n : Nat) : { w.canaryAll i n with parts := [] } = { w with parts := [] } :=
  Work.each_keeps (fun w : Work => { w with parts := [] }) (fun w (r : PartRec) => w.canaryAdd r.part i n) (fun _ _ => rfl) _ _

/-! ## Memory errors and charges (R433, R434, R441) -/

/-- What counting errors and charging reads may change. -/
def readBlank (w : Work) : Work :=
  { w with
    ms := { scrambled := w.ms.scrambled, mapped := w.ms.mapped, repairEn := w.ms.repairEn }
    parts := [], faces := [], gals := [], dev := {} }

theorem Work.modFace_readBlank (w : Work) (n : Nat) (f : Face → Face) : readBlank (w.modFace n f) = readBlank w := by
  simp [readBlank]
theorem Work.modGal_readBlank (w : Work) (n : Nat) (f : Gal → Gal) : readBlank (w.modGal n f) = readBlank w := by
  simp [readBlank]
theorem Work.modPart_readBlank (w : Work) (n : Nat) (f : Part → Part) : readBlank (w.modPart n f) = readBlank w := by
  simp [readBlank]
theorem Work.modDev_readBlank (w : Work) (f : Dev → Dev) : readBlank (w.modDev f) = readBlank w := by
  simp [readBlank]
theorem Work.w1cMark_readBlank (w : Work) (a m : Nat) : readBlank (w.w1cMark a m) = readBlank w := w.modDev_readBlank _
theorem Work.modMs_readBlank (w : Work) (f : MemSys → MemSys)
    (h : ∀ m, (f m).scrambled = m.scrambled ∧ (f m).mapped = m.mapped ∧ (f m).repairEn = m.repairEn) :
    readBlank (w.modMs f) = readBlank w := by
  simp [readBlank, h w.ms]

theorem Work.canaryAll_readBlank (w : Work) (i n : Nat) : readBlank (w.canaryAll i n) = readBlank w :=
  Work.each_keeps readBlank (fun w (r : PartRec) => w.canaryAdd r.part i n) (fun w _ => w.modPart_readBlank _ _) _ _

theorem Work.memCe_frame (w : Work) (pc : Nat) : readBlank (w.memCe pc) = readBlank w := by
  have a : ∀ v : Work, readBlank (v.modMs fun m => { m with
      pcs := m.pcs.upd {} pc (fun x => { x with ce := min (x.ce + 1) 0xFFFFFFFF, passCe := x.passCe + 1 }) }) = readBlank v :=
    fun v => v.modMs_readBlank _ (fun _ => ⟨rfl, rfl, rfl⟩)
  have b : ∀ v : Work, readBlank (v.modMs fun m => { m with suspect := setBit m.suspect pc true }) = readBlank v :=
    fun v => v.modMs_readBlank _ (fun _ => ⟨rfl, rfl, rfl⟩)
  have c : ∀ v : Work, readBlank ((v.modMs fun m => { m with suspect := setBit m.suspect pc true }).w1cMark
      (Config.memBase + 0xC0 + 8 * (pc / 64)) (2 ^ (pc % 64))) = readBlank v :=
    fun v => (Work.w1cMark_readBlank _ _ _).trans (b v)
  have d := (Work.canaryAll_readBlank _ 2 1).trans (a w)
  unfold Work.memCe
  dsimp only
  split
  · split
    · exact (c _).trans d
    · exact (Work.canaryAll_readBlank _ _ _).trans ((c _).trans d)
  · exact d

/-- A charge changes the buckets and counters of the memory system, or nothing. -/
theorem Work.charge_cases (w : Work) (p : Nat) (l : List Nat) :
    w.charge p l = w ∨ ∃ b c, w.charge p l = w.modMs fun m => { m with buckets := b, ctr := c } := by
  unfold Work.charge
  dsimp only
  generalize l.foldl _ _ = b
  split
  · exact .inl rfl
  · exact .inr ⟨_, _, rfl⟩
theorem Work.charge_frame (w : Work) (p : Nat) (l : List Nat) : { w.charge p l with ms := w.ms } = w := by
  obtain h | ⟨_, _, h⟩ := w.charge_cases p l <;> rw [h] <;> rfl
theorem Work.cleared_frame (w : Work) (l : List Nat) : { w.cleared l with ms := w.ms } = w := rfl
theorem Work.charge_readBlank (w : Work) (p : Nat) (l : List Nat) : readBlank (w.charge p l) = readBlank w := by
  obtain h | ⟨_, _, h⟩ := w.charge_cases p l <;> rw [h]
  exact w.modMs_readBlank _ fun _ => ⟨rfl, rfl, rfl⟩
theorem Work.cleared_readBlank (w : Work) (l : List Nat) : readBlank (w.cleared l) = readBlank w := rfl

theorem Work.softHbm_frame (w : Work) (l : List (Nat × Nat)) : readBlank (w.softHbm l) = readBlank w :=
  Work.each_keeps readBlank _ (fun w _ => w.memCe_frame _) _ _
theorem Work.softWord_frame (w : Work) (s : Nat) : readBlank (w.softWord s) = readBlank w := by
  unfold Work.softWord
  split
  · exact w.modFace_readBlank _ _
  · exact w.modGal_readBlank _ _
  · rfl
theorem Work.softStore_frame (w : Work) (l : List (Nat × Nat)) : readBlank (w.softStore l) = readBlank w :=
  (Work.modMs_readBlank _ _ (fun _ => ⟨rfl, rfl, rfl⟩)).trans (Work.each_keeps readBlank _ (fun w s => w.softWord_frame s) _ _)
theorem Work.softMet_frame (w : Work) (l : List (Nat × Nat)) : readBlank (w.softMet l) = readBlank w :=
  (Work.softStore_frame _ _).trans (w.softHbm_frame l)
theorem Work.reading_frame (w : Work) (p : Nat) (l : List (Nat × Nat)) : readBlank (w.reading p l) = readBlank w :=
  (Work.charge_readBlank _ _ _).trans (w.softMet_frame l)

/-! ## Writes to memory (R371, R441) -/

/-- What a write may change: the acts on memory, and what reading may change. -/
def writeBlank (w : Work) : Work := { readBlank w with wr := [] }
theorem writeBlank_of_readBlank {v w : Work} (h : readBlank v = readBlank w) : writeBlank v = writeBlank w :=
  congrArg (fun u : Work => { u with wr := [] }) h
theorem Work.putByte_writeBlank (w : Work) (a b : Nat) : writeBlank (w.putByte a b) = writeBlank w := by
  simp [writeBlank, readBlank, Work.putByte]
theorem Work.put_writeBlank (l : List Nat) (w : Work) (a : Nat) : writeBlank (w.put a l) = writeBlank w := by
  induction l generalizing w a with
  | nil => rfl
  | cons b t ih => exact (ih _ _).trans (w.putByte_writeBlank a b)
theorem Work.doWops_writeBlank (l : List Wop) (w : Work) : writeBlank (w.doWops l) = writeBlank w := by
  induction l generalizing w with
  | nil => rfl
  | cons o os ih =>
    exact (ih _).trans (Work.each_keeps writeBlank (fun w (b : Nat × Nat) => w.putByte b.1 b.2) (fun w b => w.putByte_writeBlank _ _) _ _)
theorem Work.storeHfc_frame (w : Work) (a : Nat) (l : List Nat) : writeBlank (w.storeHfc a l) = writeBlank w := by
  unfold Work.storeHfc
  split
  · rfl
  · exact (writeBlank_of_readBlank (Work.cleared_readBlank _ _)).trans (Work.put_writeBlank _ _ _)
theorem Work.store_frame (w : Work) (p a : Nat) (l : List Nat) : writeBlank (w.store p a l) = writeBlank w := by
  unfold Work.store
  split
  · rfl
  · exact (writeBlank_of_readBlank (Work.charge_readBlank _ _ _)).trans (w.storeHfc_frame _ _)
/-- What a byte reads as after a write of the headframe controller, where HBM is open. -/
theorem Work.byte_storeHfc (w : Work) (a x : Nat) (l : List Nat) (h : w.hbmShut a = false) :
    (w.storeHfc a l).byte x = if a ≤ x ∧ x < a + l.length then nth l (x - a) % 256 else w.byte x := by
  unfold Work.storeHfc; rw [if_neg (by simp [h]), ← Work.byte_put]; rfl
/-- What a byte reads as after a write on behalf of a partition, where HBM is open. -/
theorem Work.byte_store (w : Work) (p a x : Nat) (l : List Nat) (h : w.hbmShut a = false) :
    (w.store p a l).byte x = if a ≤ x ∧ x < a + l.length then nth l (x - a) % 256 else w.byte x := by
  have e : ∀ (v : Work) (n : List Nat), (v.charge p n).byte x = v.byte x := by
    intro v n; obtain h | ⟨_, _, h⟩ := v.charge_cases p n <;> rw [h] <;> rfl
  unfold Work.store
  rw [if_neg (by simp [h]), e]
  exact w.byte_storeHfc a x l h

/-! ## Flits (R364, R366, R368) -/

/-- What sending flits may change: the ports, what leaves, when a transaction's or a collective's flits left, and the
count of collective flits. -/
def sendBlank (w : Work) : Work := { w with ports := [], out := [], txns := [], flights := [], dev := {} }
theorem Work.modPort_sendBlank (w : Work) (n : Nat) (f : Port → Port) : sendBlank (w.modPort n f) = sendBlank w := by
  simp [sendBlank]
theorem Work.collLeft_frame (w : Work) (f : Flit) : sendBlank (w.collLeft f) = sendBlank w := by
  unfold Work.collLeft
  split <;> simp [sendBlank, Work.modFlight, Work.devCtr, Work.modDev]
theorem Work.modTxn_sendBlank (w : Work) (id : Nat) (f : Txn → Txn) : sendBlank (w.modTxn id f) = sendBlank w := by
  simp [sendBlank, Work.modTxn]
theorem Work.modPortEmit_sendBlank (w : Work) (n : Nat) (f : Port → Port) (o : Out) :
    sendBlank ((w.modPort n f).emit o) = sendBlank w := by simp [sendBlank, Work.emit]
theorem Work.stampFlit_frame (w : Work) (n : Nat) (f : Flit) : sendBlank (w.stampFlit n f).2 = sendBlank w := by
  unfold Work.stampFlit
  split
  · exact w.modPort_sendBlank _ _
  · rfl
theorem Work.putFlit_frame (w : Work) (n : Nat) (f : Flit) : sendBlank (w.putFlit n f) = sendBlank w := by
  have e : ∀ (v : Work) (g : Flit) (h : Port → Port) (o : Out),
      sendBlank (((v.modPort n h).emit o).collLeft g) = sendBlank v :=
    fun v g h o => (Work.collLeft_frame _ g).trans (v.modPortEmit_sendBlank n h o)
  unfold Work.putFlit
  dsimp only
  split
  · exact (Work.modTxn_sendBlank _ _ _).trans ((e _ _ _ _).trans (w.stampFlit_frame n f))
  · exact (e _ _ _ _).trans (w.stampFlit_frame n f)
theorem Work.owe_frame (w : Work) (n vc k : Nat) : sendBlank (w.owe n vc k) = sendBlank w := by
  unfold Work.owe
  split
  · exact w.modPort_sendBlank _ _
  · rfl
theorem Work.putTransit_frame (w : Work) (n : Nat) (t : Waiting) : sendBlank (w.putTransit n t) = sendBlank w := by
  unfold Work.putTransit
  dsimp only
  exact (Work.owe_frame _ _ _ _).trans (w.modPortEmit_sendBlank _ _ _)
/-- Sending what a port holds touches nothing but what sending may change. -/
theorem Work.flushGo_frame (k : Nat) (w : Work) (n : Nat) : sendBlank (w.flushGo n k) = sendBlank w := by
  induction k generalizing w with
  | zero => rfl
  | succ k ih =>
    unfold Work.flushGo
    split
    · rfl
    · dsimp only
      refine (ih _).trans ?_
      split
      · exact (Work.putFlit_frame _ _ _).trans (w.modPort_sendBlank _ _)
      · exact (Work.putTransit_frame _ _ _).trans (w.modPort_sendBlank _ _)
      · exact w.modPort_sendBlank _ _
theorem Work.flushPort_frame (w : Work) (n : Nat) : sendBlank (w.flushPort n) = sendBlank w := w.flushGo_frame _ n
theorem Work.sendFlit_frame (w : Work) (port : Nat) (f : Flit) : sendBlank (w.sendFlit port f) = sendBlank w :=
  (Work.flushPort_frame _ _).trans (w.modPort_sendBlank _ _)
theorem Work.sendCtl_frame (w : Work) (type dst part txn : Nat) (data : List Nat) :
    sendBlank (w.sendCtl type dst part txn data) = sendBlank w := by
  unfold Work.sendCtl
  split
  · exact w.sendFlit_frame _ _
  · rfl
theorem Work.answerBy_frame (w : Work) (n : Nat) (f : Flit) : sendBlank (w.answerBy n f) = sendBlank w := by
  unfold Work.answerBy
  split
  · exact w.sendFlit_frame _ _
  · split
    · exact w.sendFlit_frame _ _
    · rfl
theorem Work.nak_frame (w : Work) (n src part txn : Nat) (why : NakReason) :
    sendBlank (w.nak n src part txn why) = sendBlank w := w.answerBy_frame _ _
theorem Work.refuse_frame (w : Work) (n src part txn : Nat) (reset : Bool) :
    sendBlank (w.refuse n src part txn reset) = sendBlank w := by
  unfold Work.refuse
  refine (Work.nak_frame _ _ _ _ _ _).trans ?_
  split <;> simp [sendBlank]
/-- The link fields of what arrives touch nothing but what sending may change. -/
theorem Work.linkIn_frame (w : Work) (n vc k free : Nat) (l : LinkIn) : sendBlank (w.linkIn n vc k free l) = sendBlank w :=
  (Work.flushPort_frame _ _).trans (w.modPort_sendBlank _ _)

/-! ## Tags (R113, R114) -/

theorem Work.tagTo_frame (w : Work) (t : Nat) (v : W32) : { w.tagTo t v with tags := [], flights := [] } = { w with tags := [], flights := [] } :=
  rfl
theorem Work.tagAdd_frame (w : Work) (t v : Nat) : { w.tagAdd t v with tags := [], flights := [] } = { w with tags := [], flights := [] } :=
  rfl
theorem Work.tag_tagTo (w : Work) (t k : Nat) (v : W32) : (w.tagTo t v).tag k = if k = t then v else w.tag k :=
  Work.tag_setTag w t k v
theorem Work.tag_tagAdd (w : Work) (t k v : Nat) :
    (w.tagAdd t v).tag k = if k = t then w.tag t + BitVec.ofNat 32 v else w.tag k :=
  Work.tag_tagTo w t k _

/-! ## Transactions (R371, R372) -/

/-- What opening a transaction may change: its flits, its settlement here, the memory or tag that it acts on. -/
def txnBlank (w : Work) : Work := { tellBlank (writeBlank (sendBlank w)) with tags := [] }
theorem txnBlank_of_sendBlank {v w : Work} (h : sendBlank v = sendBlank w) : txnBlank v = txnBlank w :=
  congrArg (fun u : Work => { tellBlank (writeBlank u) with tags := [] }) h
theorem txnBlank_of_writeBlank {v w : Work} (h : writeBlank v = writeBlank w) : txnBlank v = txnBlank w :=
  congrArg (fun u : Work => { tellBlank (sendBlank u) with tags := [] }) h
theorem txnBlank_of_readBlank {v w : Work} (h : readBlank v = readBlank w) : txnBlank v = txnBlank w :=
  txnBlank_of_writeBlank (writeBlank_of_readBlank h)
theorem txnBlank_of_tellBlank {v w : Work} (h : tellBlank v = tellBlank w) : txnBlank v = txnBlank w :=
  congrArg (fun u : Work => { writeBlank (sendBlank u) with tags := [] }) h
theorem Work.addTxn_txnBlank (w : Work) (t : Txn) : txnBlank (w.addTxn t) = txnBlank w := by
  simp [txnBlank, tellBlank, writeBlank, readBlank, sendBlank, Work.addTxn]
theorem Work.tagTo_txnBlank (w : Work) (t : Nat) (v : W32) : txnBlank (w.tagTo t v) = txnBlank w := by
  simp [txnBlank, tellBlank, writeBlank, readBlank, sendBlank, Work.tagTo]
theorem Work.modMs_txnBlank (w : Work) (f : MemSys → MemSys)
    (h : ∀ m, (f m).scrambled = m.scrambled ∧ (f m).mapped = m.mapped ∧ (f m).repairEn = m.repairEn) :
    txnBlank (w.modMs f) = txnBlank w := txnBlank_of_readBlank (w.modMs_readBlank f h)
theorem Work.memUe_frame (w : Work) (pc off source : Nat) : txnBlank (w.memUe pc off source) = txnBlank w := by
  have r : ∀ (v : Work) (i n : Nat), txnBlank (v.canaryAll i n) = txnBlank v :=
    fun v i n => txnBlank_of_readBlank (v.canaryAll_readBlank i n)
  have m : ∀ (v : Work) (a n : Nat), txnBlank (v.w1cMark a n) = txnBlank v :=
    fun v a n => txnBlank_of_readBlank (v.w1cMark_readBlank a n)
  unfold Work.memUe
  dsimp only
  refine (txnBlank_of_tellBlank (Work.raise_frame _ _ _ _ _ _)).trans ?_
  have e := ((r ((w.modMs fun m => { m with
      errLog := BitVec.ofNat 64 (errLogOf pc source off)
      suspect := setBit m.suspect pc true
      pcs := m.pcs.upd {} pc (fun x => { x with ue := min (x.ue + 1) 0xFFFF }) }).w1cMark
        (Config.memBase + 0xC0 + 8 * (pc / 64)) (2 ^ (pc % 64))) 4 1).trans (m _ _ _)).trans
    (Work.modMs_txnBlank w _ (fun _ => ⟨rfl, rfl, rfl⟩))
  split
  · exact (r _ _ _).trans e
  · exact e
theorem Work.hardWord_readBlank (w : Work) (s : Nat) : readBlank (w.hardWord s) = readBlank w := by
  unfold Work.hardWord
  split
  · exact w.modFace_readBlank _ _
  · exact w.modGal_readBlank _ _
  · rfl
theorem Work.eccMet_frame (w : Work) (a len source : Nat) : txnBlank (w.eccMet a len source) = txnBlank w := by
  unfold Work.eccMet
  split
  · exact Work.each_keeps txnBlank _ (fun w _ => w.memUe_frame _ _ _) _ _
  · exact txnBlank_of_readBlank (Work.each_keeps readBlank _ (fun w s => w.hardWord_readBlank s) _ _)
theorem Work.readingTo_frame (w : Work) (p : Nat) (l : List (Nat × Nat)) (bad : Option (Nat × Nat)) :
    txnBlank (w.readingTo p l bad) = txnBlank w := by
  unfold Work.readingTo
  split
  · exact txnBlank_of_readBlank (w.reading_frame _ _)
  · exact (Work.eccMet_frame _ _ _ _).trans (txnBlank_of_readBlank (w.reading_frame _ _))
/-- A transaction to the own position settles here. -/
theorem Work.openOwn_frame (w : Work) (t : Txn) (prefetch : Bool) (h : t.dst = w.ownPos) :
    txnBlank (w.openTxn t prefetch) = txnBlank w := by
  have r : ∀ l u, txnBlank ((w.reading t.part l).addTxn u) = txnBlank w :=
    fun l u => (Work.addTxn_txnBlank _ _).trans (txnBlank_of_readBlank (w.reading_frame _ _))
  have m : ∀ a n u, txnBlank (((w.reading t.part [(a, n)]).eccMet a n 1).addTxn u) = txnBlank w :=
    fun a n u => (Work.addTxn_txnBlank _ _).trans ((Work.eccMet_frame _ _ _ _).trans (txnBlank_of_readBlank (w.reading_frame _ _)))
  have s : ∀ u, txnBlank ((w.store t.part t.addr t.data).addTxn u) = txnBlank w :=
    fun u => (Work.addTxn_txnBlank _ _).trans (txnBlank_of_writeBlank (w.store_frame _ _ _))
  have g : ∀ u, txnBlank ((w.tagAdd t.addr t.len).addTxn u) = txnBlank w :=
    fun u => (Work.addTxn_txnBlank _ _).trans (w.tagTo_txnBlank _ _)
  unfold Work.openTxn
  dsimp only
  rw [if_pos h]
  split
  · split
    · exact g _
    · exact w.addTxn_txnBlank _
  · split
    · split
      · exact m _ _ _
      · exact r _ _
    · exact w.addTxn_txnBlank _
  · split
    · exact s _
    · exact w.addTxn_txnBlank _
theorem Work.openTxn_frame (w : Work) (t : Txn) (prefetch : Bool) : txnBlank (w.openTxn t prefetch) = txnBlank w := by
  by_cases h : t.dst = w.ownPos
  · exact w.openOwn_frame t prefetch h
  · have f : ∀ n x u, txnBlank ((w.addTxn u).sendFlit n x) = txnBlank w :=
      fun n x u => (txnBlank_of_sendBlank (Work.sendFlit_frame _ _ _)).trans (w.addTxn_txnBlank u)
    unfold Work.openTxn
    dsimp only
    rw [if_neg h]
    split
    · exact w.addTxn_txnBlank _
    · split
      · exact w.addTxn_txnBlank _
      · split
        · exact f _ _ _
        · exact f _ _ _
        · exact (Work.each_keeps txnBlank _ (fun w f => txnBlank_of_sendBlank (w.sendFlit_frame _ _)) _ _).trans
            (w.addTxn_txnBlank _)

/-! ## Units of an engine command (R124) -/

theorem Work.modFlight_txnBlank (w : Work) (id : Nat) (f : Flight → Flight) : txnBlank (w.modFlight id f) = txnBlank w := by
  simp [txnBlank, tellBlank, writeBlank, readBlank, sendBlank, Work.modFlight]
theorem Work.countUnit_readBlank (w : Work) (f : Nat) (u : URes) : readBlank (w.countUnit f u) = readBlank w :=
  Work.each_keeps readBlank _ (fun w _ => w.modFace_readBlank _ _) _ _
theorem Work.commitUnit_frame (w : Work) (x : Flight) (prefetch : Bool) (n : Nat) (u : URes) :
    txnBlank (w.commitUnit x prefetch n u) = txnBlank w := by
  unfold Work.commitUnit
  refine (Work.modFlight_txnBlank _ _ _).trans ?_
  refine (txnBlank_of_readBlank (Work.countUnit_readBlank _ _ _)).trans ?_
  refine (Work.each_keeps txnBlank _ (fun w r => w.openTxn_frame _ _) _ _).trans ?_
  refine (txnBlank_of_readBlank (Work.charge_readBlank _ _ _)).trans ?_
  refine (txnBlank_of_readBlank (Work.cleared_readBlank _ _)).trans ?_
  exact (txnBlank_of_writeBlank (Work.doWops_writeBlank _ _)).trans (txnBlank_of_readBlank (w.softMet_frame _))
theorem Work.commitUnits_frame (us : List URes) (w : Work) (x : Flight) (prefetch : Bool) (n : Nat) :
    txnBlank (w.commitUnits x prefetch n us) = txnBlank w := by
  induction us generalizing w n with
  | nil => rfl
  | cons u us ih => exact (ih _ _).trans (w.commitUnit_frame x prefetch n u)

/-! ## Records, faults and the run of an engine command (R87, R88, R124) -/

/-- What a record, a fault or the run of an engine command may change. -/
def runBlank (w : Work) : Work := { txnBlank w with ctxs := [], clk := { w.clk with free := 0 } }
theorem runBlank_of_txnBlank {v w : Work} (h : txnBlank v = txnBlank w) : runBlank v = runBlank w :=
  congrArg (fun u : Work => { u with ctxs := [], clk := { u.clk with free := 0 } }) h
theorem Work.modCtx_runBlank (w : Work) (q : Nat) (f : Ctx → Ctx) : runBlank (w.modCtx q f) = runBlank w := by
  simp [runBlank, txnBlank, tellBlank, writeBlank, readBlank, sendBlank]
theorem Work.modDev_runBlank (w : Work) (f : Dev → Dev) : runBlank (w.modDev f) = runBlank w :=
  runBlank_of_txnBlank (txnBlank_of_readBlank (w.modDev_readBlank f))
theorem Work.modPart_runBlank (w : Work) (p : Nat) (f : Part → Part) : runBlank (w.modPart p f) = runBlank w :=
  runBlank_of_txnBlank (txnBlank_of_readBlank (w.modPart_readBlank p f))
theorem Work.modFace_runBlank (w : Work) (n : Nat) (f : Face → Face) : runBlank (w.modFace n f) = runBlank w :=
  runBlank_of_txnBlank (txnBlank_of_readBlank (w.modFace_readBlank n f))
theorem Work.store_runBlank (w : Work) (p a : Nat) (l : List Nat) : runBlank (w.store p a l) = runBlank w :=
  runBlank_of_txnBlank (txnBlank_of_writeBlank (w.store_frame p a l))
theorem Work.writeback_frame (w : Work) (q : Nat) : runBlank (w.writeback q) = runBlank w := by
  unfold Work.writeback
  dsimp only
  split
  · rfl
  · exact w.store_runBlank _ _ _
theorem Work.writeRec_frame (w : Work) (q : Nat) (r : Rec) : runBlank (w.writeRec q r) = runBlank w := by
  unfold Work.writeRec
  dsimp only
  split
  · exact w.modCtx_runBlank _ _
  · exact ((Work.writeback_frame _ _).trans (Work.modCtx_runBlank _ _ _)).trans (w.store_runBlank _ _ _)
theorem Work.oweRec_frame (w : Work) (q : Nat) (r : Rec) : runBlank (w.oweRec q r) = runBlank w := by
  unfold Work.oweRec
  dsimp only
  split
  · exact w.writeRec_frame q r
  · exact w.modCtx_runBlank _ _
theorem Work.ctxState_frame (w : Work) (q : Nat) (st : CState) : runBlank (w.ctxState q st) = runBlank w := by
  unfold Work.ctxState
  split
  · rfl
  · exact (Work.writeback_frame _ _).trans (w.modCtx_runBlank _ _)
theorem Work.dropMark_frame (w : Work) (p op : Nat) (s : W32) : runBlank (w.dropMark p op s) = runBlank w := by
  unfold Work.dropMark
  split
  · rfl
  · exact (Work.modDev_runBlank _ _).trans (w.modPart_runBlank _ _)
theorem Work.canaryAdd_runBlank (w : Work) (p i n : Nat) : runBlank (w.canaryAdd p i n) = runBlank w := w.modPart_runBlank _ _
theorem Work.faultCtx_frame (w : Work) (q op seq code : Nat) : runBlank (w.faultCtx q op seq code) = runBlank w :=
  w.modCtx_runBlank _ _
theorem Work.faultCanary_frame (w : Work) (p code : Nat) : runBlank (w.faultCanary p code) = runBlank w := by
  unfold Work.faultCanary
  dsimp only
  split <;> split
  · exact (Work.canaryAdd_runBlank _ _ _ _).trans (w.canaryAdd_runBlank _ _ _)
  · exact w.canaryAdd_runBlank _ _ _
  · exact w.canaryAdd_runBlank _ _ _
  · rfl
theorem Work.faultMarks_frame (w : Work) (q p op : Nat) (codes : List Nat) (s : W32) :
    runBlank (w.faultMarks q p op codes s) = runBlank w := by
  unfold Work.faultMarks
  dsimp only
  refine (Work.each_keeps runBlank _ (fun w c => w.faultCanary_frame p c) _ _).trans ((Work.dropMark_frame _ _ _ _).trans ?_)
  split
  · exact w.ctxState_frame _ _
  · rfl
theorem Work.delFlight_runBlank (w : Work) (id : Nat) : runBlank (w.delFlight id) = runBlank w := by
  simp [runBlank, txnBlank, tellBlank, writeBlank, readBlank, sendBlank, Work.delFlight]
theorem Work.modFlight_runBlank (w : Work) (id : Nat) (f : Flight → Flight) : runBlank (w.modFlight id f) = runBlank w :=
  runBlank_of_txnBlank (w.modFlight_txnBlank id f)
theorem Work.faultFlight_frame (w : Work) (x : Flight) (code wm : Nat) : runBlank (w.faultFlight x code wm) = runBlank w := by
  have d : ∀ v : Work, runBlank (if code = 0x0401 then v.faceCtr x.face 0x0408 1 else v) = runBlank v := by
    intro v
    split
    · exact v.modFace_runBlank _ _
    · rfl
  unfold Work.faultFlight
  exact ((((Work.faultMarks_frame _ _ _ _ _ _).trans (d _)).trans
    (Work.each_keeps runBlank _ (fun w r => w.writeRec_frame _ r) _ _)).trans (Work.faultCtx_frame _ _ _ _ _)).trans
      (w.delFlight_runBlank _)
theorem Work.tornWops_writeBlank (k : Nat) (l : List Wop) (w : Work) : writeBlank (w.tornWops k l) = writeBlank w := by
  induction l generalizing w with
  | nil => rfl
  | cons o os ih =>
    refine (ih _).trans (Work.each_keeps writeBlank
      (fun w (b : Nat × Nat) => if Config.torn k b.1 then w.putByte b.1 b.2 else w) (fun w b => ?_) _ _)
    split
    · exact w.putByte_writeBlank _ _
    · rfl
theorem Work.dropTxns_runBlank (w : Work) (id : Nat) : runBlank (w.dropTxns id) = runBlank w := by
  simp [runBlank, txnBlank, tellBlank, writeBlank, readBlank, sendBlank, Work.dropTxns]
theorem Work.fresh_runBlank (w : Work) : runBlank w.fresh.2 = runBlank w := rfl
theorem Work.faultAt_frame (w : Work) (x : Flight) (above : List URes) (code wm : Nat) :
    runBlank (w.faultAt x above code wm) = runBlank w := by
  have t : ∀ (v : Work) (k : Nat) (l : List Wop), runBlank (v.tornWops k l) = runBlank v :=
    fun v k l => runBlank_of_txnBlank (txnBlank_of_writeBlank (Work.tornWops_writeBlank k l v))
  unfold Work.faultAt
  dsimp only
  split
  · exact ((Work.modFlight_runBlank _ _ _).trans (t _ _ _)).trans w.fresh_runBlank
  · exact (((Work.dropTxns_runBlank _ _).trans (Work.faultFlight_frame _ _ _ _)).trans (t _ _ _)).trans w.fresh_runBlank

/-- Everything that running an engine command's units can change: the plan, the descriptors, the bell, the fabric's routes, the
rings, grants and books, boot, flash, power and the memory as the command found it are as they were. -/
theorem Work.runUnits_frame (w : Work) (x : Flight) (us : List URes) (total : Nat) (limit : Option (Nat × Nat))
    (prefetch torn : Bool) : runBlank (w.runUnits x us total limit prefetch torn) = runBlank w := by
  have e : ∀ (v : Work) (o : Option URes) (code : Nat),
      runBlank (match o with | some u => if u.bad = code then v.readingTo x.part u.reads u.ecc else v | none => v) = runBlank v := by
    intro v o code
    cases o with
    | none => rfl
    | some u =>
      dsimp only
      split
      · exact runBlank_of_txnBlank (v.readingTo_frame _ _ _)
      · rfl
  unfold Work.runUnits
  generalize stopAt us limit = stop
  dsimp only
  generalize us.take _ = live
  split
  · exact Work.each_keeps runBlank _ (fun w r => runBlank_of_txnBlank (w.openTxn_frame _ _)) _ _
  · split
    · rfl
    · have c := runBlank_of_txnBlank (Work.commitUnits_frame live w x prefetch 0)
      cases stop with
      | none => exact (Work.modFlight_runBlank _ _ _).trans c
      | some r => exact ((Work.faultAt_frame _ _ _ _ _).trans (e _ _ _)).trans c

/-- A repair command is the only thing that forgets HBM: running an engine command does not. -/
theorem Work.runUnits_scrambled (w : Work) (x : Flight) (us : List URes) (total : Nat) (limit : Option (Nat × Nat))
    (prefetch torn : Bool) : (w.runUnits x us total limit prefetch torn).ms.scrambled = w.ms.scrambled := by
  show (runBlank _).ms.scrambled = (runBlank w).ms.scrambled
  rw [Work.runUnits_frame]

end Sys2Proof.Machine
end

