-- ==== Sys2Proof/Laws/Fields.lean ====
section
/-! SUPPORT. The fields that each shared operation leaves as they are, as rewriting rules. -/

namespace Sys2Proof.Machine

/-- What an election changes: the bell (R382, R384). -/
theorem Work.elect_frame (w : Work) : { w.elect with bell := {} } = { w with bell := {} } := by
  unfold Work.elect Work.chooseUp
  dsimp only
  split
  · rfl
  · split <;> rfl
theorem Work.charge_msFrame (w : Work) (p : Nat) (l : List Nat) :
    { w.charge p l with ms := { scrambled := (w.charge p l).ms.scrambled, mapped := (w.charge p l).ms.mapped, repairEn := (w.charge p l).ms.repairEn } }
      = { w with ms := { scrambled := w.ms.scrambled, mapped := w.ms.mapped, repairEn := w.ms.repairEn } } := by
  obtain h | ⟨_, _, h⟩ := w.charge_cases p l <;> rw [h] <;> rfl
theorem Work.cleared_msFrame (w : Work) (l : List Nat) :
    { w.cleared l with ms := { scrambled := (w.cleared l).ms.scrambled, mapped := (w.cleared l).ms.mapped, repairEn := (w.cleared l).ms.repairEn } }
      = { w with ms := { scrambled := w.ms.scrambled, mapped := w.ms.mapped, repairEn := w.ms.repairEn } } := rfl

/-- What a write of memory and its charge may change. -/
def memBlank (w : Work) : Work :=
  { w with ms := { scrambled := w.ms.scrambled, mapped := w.ms.mapped, repairEn := w.ms.repairEn }, wr := [] }
theorem Work.charge_memBlank (w : Work) (p : Nat) (l : List Nat) : memBlank (w.charge p l) = memBlank w :=
  congrArg (fun u : Work => { u with wr := [] }) (w.charge_msFrame p l)
theorem Work.put_memBlank (w : Work) (a : Nat) (l : List Nat) : memBlank (w.put a l) = memBlank w :=
  congrArg (fun u : Work => { u with ms := { scrambled := u.ms.scrambled, mapped := u.ms.mapped, repairEn := u.ms.repairEn } }) (Work.put_frame l w a)
theorem Work.storeHfc_memFrame (w : Work) (a : Nat) (l : List Nat) : memBlank (w.storeHfc a l) = memBlank w := by
  unfold Work.storeHfc
  split
  · rfl
  · exact (show memBlank _ = memBlank (w.put a l) from rfl).trans (w.put_memBlank a l)
theorem Work.store_memFrame (w : Work) (p a : Nat) (l : List Nat) : memBlank (w.store p a l) = memBlank w := by
  unfold Work.store
  split
  · rfl
  · exact (Work.charge_memBlank _ _ _).trans (w.storeHfc_memFrame a l)

/-- What a record or a writeback may change. -/
def recBlank (w : Work) : Work := { memBlank w with ctxs := [] }
theorem Work.store_recBlank (w : Work) (p a : Nat) (l : List Nat) : recBlank (w.store p a l) = recBlank w :=
  congrArg (fun u : Work => { u with ctxs := [] }) (w.store_memFrame p a l)
theorem Work.modCtx_recBlank (w : Work) (q : Nat) (f : Ctx → Ctx) : recBlank (w.modCtx q f) = recBlank w := by
  simp [recBlank, memBlank]
theorem Work.writeback_memFrame (w : Work) (q : Nat) : recBlank (w.writeback q) = recBlank w := by
  unfold Work.writeback
  dsimp only
  split
  · rfl
  · exact w.store_recBlank _ _ _
theorem Work.writeRec_memFrame (w : Work) (q : Nat) (r : Rec) : recBlank (w.writeRec q r) = recBlank w := by
  unfold Work.writeRec
  dsimp only
  split
  · exact w.modCtx_recBlank _ _
  · exact ((Work.writeback_memFrame _ _).trans (Work.modCtx_recBlank _ _ _)).trans (w.store_recBlank _ _ _)
theorem Work.oweRec_memFrame (w : Work) (q : Nat) (r : Rec) : recBlank (w.oweRec q r) = recBlank w := by
  unfold Work.oweRec
  dsimp only
  split
  · exact w.writeRec_memFrame q r
  · exact w.modCtx_recBlank _ _
theorem Work.ctxState_memFrame (w : Work) (q : Nat) (st : CState) : recBlank (w.ctxState q st) = recBlank w := by
  unfold Work.ctxState
  split
  · rfl
  · exact (Work.writeback_memFrame _ _).trans (w.modCtx_recBlank _ _)
theorem Work.dropMark_partFrame (w : Work) (p op : Nat) (s : W32) :
    { w.dropMark p op s with parts := [], dev := {} } = { w with parts := [], dev := {} } := by
  unfold Work.dropMark; split <;> rfl

@[simp] theorem Work.hostOut_fields (w : Work) (dest : HostTo) (n : Nat) (o : Out) :
    (w.hostOut dest n o).clk = w.clk ∧ (w.hostOut dest n o).bell = w.bell ∧ (w.hostOut dest n o).ms = w.ms ∧
    (w.hostOut dest n o).struct = w.struct ∧ (w.hostOut dest n o).dev = w.dev ∧ (w.hostOut dest n o).parts = w.parts ∧
    (w.hostOut dest n o).ctxs = w.ctxs ∧ (w.hostOut dest n o).tags = w.tags ∧ (w.hostOut dest n o).descs = w.descs ∧
    (w.hostOut dest n o).flights = w.flights ∧ (w.hostOut dest n o).faces = w.faces ∧ (w.hostOut dest n o).gals = w.gals ∧
    (w.hostOut dest n o).ports = w.ports ∧ (w.hostOut dest n o).fab = w.fab ∧ (w.hostOut dest n o).txns = w.txns ∧
    (w.hostOut dest n o).rings = w.rings ∧ (w.hostOut dest n o).collIn = w.collIn ∧ (w.hostOut dest n o).grants = w.grants ∧
    (w.hostOut dest n o).books = w.books ∧ (w.hostOut dest n o).boot = w.boot ∧ (w.hostOut dest n o).flash = w.flash ∧
    (w.hostOut dest n o).pwr = w.pwr ∧ (w.hostOut dest n o).mem = w.mem ∧ (w.hostOut dest n o).wr = w.wr := by
  have h := w.hostOut_frame dest n o
  revert h
  generalize w.hostOut dest n o = v
  intro h
  exact ⟨(congrArg (·.clk) h :), (congrArg (·.bell) h :), (congrArg (·.ms) h :), (congrArg (·.struct) h :), (congrArg (·.dev) h :), (congrArg (·.parts) h :), (congrArg (·.ctxs) h :), (congrArg (·.tags) h :), (congrArg (·.descs) h :), (congrArg (·.flights) h :), (congrArg (·.faces) h :), (congrArg (·.gals) h :), (congrArg (·.ports) h :), (congrArg (·.fab) h :), (congrArg (·.txns) h :), (congrArg (·.rings) h :), (congrArg (·.collIn) h :), (congrArg (·.grants) h :), (congrArg (·.books) h :), (congrArg (·.boot) h :), (congrArg (·.flash) h :), (congrArg (·.pwr) h :), (congrArg (·.mem) h :), (congrArg (·.wr) h :)⟩
@[simp] theorem Work.hostSend_fields (w : Work) (dest : HostTo) (n : Nat) (o : Out) :
    (w.hostSend dest n o).clk = w.clk ∧ (w.hostSend dest n o).bell = w.bell ∧ (w.hostSend dest n o).ms = w.ms ∧
    (w.hostSend dest n o).struct = w.struct ∧ (w.hostSend dest n o).dev = w.dev ∧ (w.hostSend dest n o).parts = w.parts ∧
    (w.hostSend dest n o).ctxs = w.ctxs ∧ (w.hostSend dest n o).tags = w.tags ∧ (w.hostSend dest n o).descs = w.descs ∧
    (w.hostSend dest n o).flights = w.flights ∧ (w.hostSend dest n o).faces = w.faces ∧ (w.hostSend dest n o).gals = w.gals ∧
    (w.hostSend dest n o).ports = w.ports ∧ (w.hostSend dest n o).fab = w.fab ∧ (w.hostSend dest n o).txns = w.txns ∧
    (w.hostSend dest n o).rings = w.rings ∧ (w.hostSend dest n o).collIn = w.collIn ∧ (w.hostSend dest n o).grants = w.grants ∧
    (w.hostSend dest n o).books = w.books ∧ (w.hostSend dest n o).boot = w.boot ∧ (w.hostSend dest n o).flash = w.flash ∧
    (w.hostSend dest n o).pwr = w.pwr ∧ (w.hostSend dest n o).mem = w.mem ∧ (w.hostSend dest n o).wr = w.wr := by
  have h := w.hostSend_frame dest n o
  revert h
  generalize w.hostSend dest n o = v
  intro h
  exact ⟨(congrArg (·.clk) h :), (congrArg (·.bell) h :), (congrArg (·.ms) h :), (congrArg (·.struct) h :), (congrArg (·.dev) h :), (congrArg (·.parts) h :), (congrArg (·.ctxs) h :), (congrArg (·.tags) h :), (congrArg (·.descs) h :), (congrArg (·.flights) h :), (congrArg (·.faces) h :), (congrArg (·.gals) h :), (congrArg (·.ports) h :), (congrArg (·.fab) h :), (congrArg (·.txns) h :), (congrArg (·.rings) h :), (congrArg (·.collIn) h :), (congrArg (·.grants) h :), (congrArg (·.books) h :), (congrArg (·.boot) h :), (congrArg (·.flash) h :), (congrArg (·.pwr) h :), (congrArg (·.mem) h :), (congrArg (·.wr) h :)⟩
@[simp] theorem Work.sendMsg_fields (w : Work) (id : Nat) (m : DevMsg) :
    (w.sendMsg id m).clk = w.clk ∧ (w.sendMsg id m).bell = w.bell ∧ (w.sendMsg id m).ms = w.ms ∧
    (w.sendMsg id m).struct = w.struct ∧ (w.sendMsg id m).dev = w.dev ∧ (w.sendMsg id m).parts = w.parts ∧
    (w.sendMsg id m).ctxs = w.ctxs ∧ (w.sendMsg id m).tags = w.tags ∧ (w.sendMsg id m).descs = w.descs ∧
    (w.sendMsg id m).flights = w.flights ∧ (w.sendMsg id m).faces = w.faces ∧ (w.sendMsg id m).gals = w.gals ∧
    (w.sendMsg id m).ports = w.ports ∧ (w.sendMsg id m).fab = w.fab ∧ (w.sendMsg id m).txns = w.txns ∧
    (w.sendMsg id m).rings = w.rings ∧ (w.sendMsg id m).collIn = w.collIn ∧ (w.sendMsg id m).grants = w.grants ∧
    (w.sendMsg id m).books = w.books ∧ (w.sendMsg id m).boot = w.boot ∧ (w.sendMsg id m).flash = w.flash ∧
    (w.sendMsg id m).pwr = w.pwr ∧ (w.sendMsg id m).mem = w.mem ∧ (w.sendMsg id m).wr = w.wr := by
  have h := w.sendMsg_frame id m
  revert h
  generalize w.sendMsg id m = v
  intro h
  exact ⟨(congrArg (·.clk) h :), (congrArg (·.bell) h :), (congrArg (·.ms) h :), (congrArg (·.struct) h :), (congrArg (·.dev) h :), (congrArg (·.parts) h :), (congrArg (·.ctxs) h :), (congrArg (·.tags) h :), (congrArg (·.descs) h :), (congrArg (·.flights) h :), (congrArg (·.faces) h :), (congrArg (·.gals) h :), (congrArg (·.ports) h :), (congrArg (·.fab) h :), (congrArg (·.txns) h :), (congrArg (·.rings) h :), (congrArg (·.collIn) h :), (congrArg (·.grants) h :), (congrArg (·.books) h :), (congrArg (·.boot) h :), (congrArg (·.flash) h :), (congrArg (·.pwr) h :), (congrArg (·.mem) h :), (congrArg (·.wr) h :)⟩
@[simp] theorem Work.raise_fields (w : Work) (kind part code shift : Nat) (l : List Nat) :
    (w.raise kind part code shift l).clk = w.clk ∧ (w.raise kind part code shift l).bell = w.bell ∧
    (w.raise kind part code shift l).ms = w.ms ∧ (w.raise kind part code shift l).struct = w.struct ∧
    (w.raise kind part code shift l).dev = w.dev ∧ (w.raise kind part code shift l).parts = w.parts ∧
    (w.raise kind part code shift l).ctxs = w.ctxs ∧ (w.raise kind part code shift l).tags = w.tags ∧
    (w.raise kind part code shift l).descs = w.descs ∧ (w.raise kind part code shift l).flights = w.flights ∧
    (w.raise kind part code shift l).faces = w.faces ∧ (w.raise kind part code shift l).gals = w.gals ∧
    (w.raise kind part code shift l).ports = w.ports ∧ (w.raise kind part code shift l).fab = w.fab ∧
    (w.raise kind part code shift l).txns = w.txns ∧ (w.raise kind part code shift l).rings = w.rings ∧
    (w.raise kind part code shift l).collIn = w.collIn ∧ (w.raise kind part code shift l).grants = w.grants ∧
    (w.raise kind part code shift l).books = w.books ∧ (w.raise kind part code shift l).boot = w.boot ∧
    (w.raise kind part code shift l).flash = w.flash ∧ (w.raise kind part code shift l).pwr = w.pwr ∧
    (w.raise kind part code shift l).mem = w.mem ∧ (w.raise kind part code shift l).wr = w.wr := by
  have h := w.raise_frame kind part code shift l
  revert h
  generalize w.raise kind part code shift l = v
  intro h
  exact ⟨(congrArg (·.clk) h :), (congrArg (·.bell) h :), (congrArg (·.ms) h :), (congrArg (·.struct) h :), (congrArg (·.dev) h :), (congrArg (·.parts) h :), (congrArg (·.ctxs) h :), (congrArg (·.tags) h :), (congrArg (·.descs) h :), (congrArg (·.flights) h :), (congrArg (·.faces) h :), (congrArg (·.gals) h :), (congrArg (·.ports) h :), (congrArg (·.fab) h :), (congrArg (·.txns) h :), (congrArg (·.rings) h :), (congrArg (·.collIn) h :), (congrArg (·.grants) h :), (congrArg (·.books) h :), (congrArg (·.boot) h :), (congrArg (·.flash) h :), (congrArg (·.pwr) h :), (congrArg (·.mem) h :), (congrArg (·.wr) h :)⟩
@[simp] theorem Work.canaryAll_fields (w : Work) (i n : Nat) :
    (w.canaryAll i n).clk = w.clk ∧ (w.canaryAll i n).bell = w.bell ∧ (w.canaryAll i n).ms = w.ms ∧
    (w.canaryAll i n).struct = w.struct ∧ (w.canaryAll i n).dev = w.dev ∧ (w.canaryAll i n).ctxs = w.ctxs ∧
    (w.canaryAll i n).tags = w.tags ∧ (w.canaryAll i n).descs = w.descs ∧ (w.canaryAll i n).flights = w.flights ∧
    (w.canaryAll i n).faces = w.faces ∧ (w.canaryAll i n).gals = w.gals ∧ (w.canaryAll i n).ports = w.ports ∧
    (w.canaryAll i n).fab = w.fab ∧ (w.canaryAll i n).txns = w.txns ∧ (w.canaryAll i n).rings = w.rings ∧
    (w.canaryAll i n).collIn = w.collIn ∧ (w.canaryAll i n).grants = w.grants ∧ (w.canaryAll i n).books = w.books ∧
    (w.canaryAll i n).host = w.host ∧ (w.canaryAll i n).boot = w.boot ∧ (w.canaryAll i n).flash = w.flash ∧
    (w.canaryAll i n).pwr = w.pwr ∧ (w.canaryAll i n).out = w.out ∧ (w.canaryAll i n).mem = w.mem ∧
    (w.canaryAll i n).wr = w.wr := by
  have h := w.canaryAll_frame i n
  revert h
  generalize w.canaryAll i n = v
  intro h
  exact ⟨(congrArg (·.clk) h :), (congrArg (·.bell) h :), (congrArg (·.ms) h :), (congrArg (·.struct) h :), (congrArg (·.dev) h :), (congrArg (·.ctxs) h :), (congrArg (·.tags) h :), (congrArg (·.descs) h :), (congrArg (·.flights) h :), (congrArg (·.faces) h :), (congrArg (·.gals) h :), (congrArg (·.ports) h :), (congrArg (·.fab) h :), (congrArg (·.txns) h :), (congrArg (·.rings) h :), (congrArg (·.collIn) h :), (congrArg (·.grants) h :), (congrArg (·.books) h :), (congrArg (·.host) h :), (congrArg (·.boot) h :), (congrArg (·.flash) h :), (congrArg (·.pwr) h :), (congrArg (·.out) h :), (congrArg (·.mem) h :), (congrArg (·.wr) h :)⟩
@[simp] theorem Work.elect_fields (w : Work) :
    (w.elect).clk = w.clk ∧ (w.elect).ms = w.ms ∧ (w.elect).struct = w.struct ∧ (w.elect).dev = w.dev ∧
    (w.elect).parts = w.parts ∧ (w.elect).ctxs = w.ctxs ∧ (w.elect).tags = w.tags ∧ (w.elect).descs = w.descs ∧
    (w.elect).flights = w.flights ∧ (w.elect).faces = w.faces ∧ (w.elect).gals = w.gals ∧ (w.elect).ports = w.ports ∧
    (w.elect).fab = w.fab ∧ (w.elect).txns = w.txns ∧ (w.elect).rings = w.rings ∧ (w.elect).collIn = w.collIn ∧
    (w.elect).grants = w.grants ∧ (w.elect).books = w.books ∧ (w.elect).host = w.host ∧ (w.elect).boot = w.boot ∧
    (w.elect).flash = w.flash ∧ (w.elect).pwr = w.pwr ∧ (w.elect).out = w.out ∧ (w.elect).mem = w.mem ∧ (w.elect).wr = w.wr := by
  have h := w.elect_frame
  revert h
  generalize w.elect = v
  intro h
  exact ⟨(congrArg (·.clk) h :), (congrArg (·.ms) h :), (congrArg (·.struct) h :), (congrArg (·.dev) h :), (congrArg (·.parts) h :), (congrArg (·.ctxs) h :), (congrArg (·.tags) h :), (congrArg (·.descs) h :), (congrArg (·.flights) h :), (congrArg (·.faces) h :), (congrArg (·.gals) h :), (congrArg (·.ports) h :), (congrArg (·.fab) h :), (congrArg (·.txns) h :), (congrArg (·.rings) h :), (congrArg (·.collIn) h :), (congrArg (·.grants) h :), (congrArg (·.books) h :), (congrArg (·.host) h :), (congrArg (·.boot) h :), (congrArg (·.flash) h :), (congrArg (·.pwr) h :), (congrArg (·.out) h :), (congrArg (·.mem) h :), (congrArg (·.wr) h :)⟩
@[simp] theorem Work.memCe_fields (w : Work) (pc : Nat) :
    (w.memCe pc).clk = w.clk ∧ (w.memCe pc).bell = w.bell ∧ (w.memCe pc).struct = w.struct ∧ (w.memCe pc).ctxs = w.ctxs ∧
    (w.memCe pc).tags = w.tags ∧ (w.memCe pc).descs = w.descs ∧ (w.memCe pc).flights = w.flights ∧
    (w.memCe pc).ports = w.ports ∧ (w.memCe pc).fab = w.fab ∧ (w.memCe pc).txns = w.txns ∧ (w.memCe pc).rings = w.rings ∧
    (w.memCe pc).collIn = w.collIn ∧ (w.memCe pc).grants = w.grants ∧ (w.memCe pc).books = w.books ∧
    (w.memCe pc).host = w.host ∧ (w.memCe pc).boot = w.boot ∧ (w.memCe pc).flash = w.flash ∧ (w.memCe pc).pwr = w.pwr ∧
    (w.memCe pc).out = w.out ∧ (w.memCe pc).mem = w.mem ∧ (w.memCe pc).wr = w.wr ∧ (w.memCe pc).ms.scrambled = w.ms.scrambled ∧
    (w.memCe pc).ms.mapped = w.ms.mapped ∧ (w.memCe pc).ms.repairEn = w.ms.repairEn := by
  have h := w.memCe_frame pc
  revert h
  generalize w.memCe pc = v
  intro h
  exact ⟨(congrArg (·.clk) h :), (congrArg (·.bell) h :), (congrArg (·.struct) h :), (congrArg (·.ctxs) h :), (congrArg (·.tags) h :), (congrArg (·.descs) h :), (congrArg (·.flights) h :), (congrArg (·.ports) h :), (congrArg (·.fab) h :), (congrArg (·.txns) h :), (congrArg (·.rings) h :), (congrArg (·.collIn) h :), (congrArg (·.grants) h :), (congrArg (·.books) h :), (congrArg (·.host) h :), (congrArg (·.boot) h :), (congrArg (·.flash) h :), (congrArg (·.pwr) h :), (congrArg (·.out) h :), (congrArg (·.mem) h :), (congrArg (·.wr) h :), (congrArg (·.ms.scrambled) h :), (congrArg (·.ms.mapped) h :), (congrArg (·.ms.repairEn) h :)⟩
@[simp] theorem Work.charge_fields (w : Work) (p : Nat) (l : List Nat) :
    (w.charge p l).clk = w.clk ∧ (w.charge p l).bell = w.bell ∧ (w.charge p l).struct = w.struct ∧ (w.charge p l).dev = w.dev ∧
    (w.charge p l).parts = w.parts ∧ (w.charge p l).ctxs = w.ctxs ∧ (w.charge p l).tags = w.tags ∧
    (w.charge p l).descs = w.descs ∧ (w.charge p l).flights = w.flights ∧ (w.charge p l).faces = w.faces ∧
    (w.charge p l).gals = w.gals ∧ (w.charge p l).ports = w.ports ∧ (w.charge p l).fab = w.fab ∧ (w.charge p l).txns = w.txns ∧
    (w.charge p l).rings = w.rings ∧ (w.charge p l).collIn = w.collIn ∧ (w.charge p l).grants = w.grants ∧
    (w.charge p l).books = w.books ∧ (w.charge p l).host = w.host ∧ (w.charge p l).boot = w.boot ∧
    (w.charge p l).flash = w.flash ∧ (w.charge p l).pwr = w.pwr ∧ (w.charge p l).out = w.out ∧ (w.charge p l).mem = w.mem ∧
    (w.charge p l).wr = w.wr ∧ (w.charge p l).ms.scrambled = w.ms.scrambled ∧ (w.charge p l).ms.mapped = w.ms.mapped ∧
    (w.charge p l).ms.repairEn = w.ms.repairEn := by
  have h := w.charge_msFrame p l
  revert h
  generalize w.charge p l = v
  intro h
  exact ⟨(congrArg (·.clk) h :), (congrArg (·.bell) h :), (congrArg (·.struct) h :), (congrArg (·.dev) h :), (congrArg (·.parts) h :), (congrArg (·.ctxs) h :), (congrArg (·.tags) h :), (congrArg (·.descs) h :), (congrArg (·.flights) h :), (congrArg (·.faces) h :), (congrArg (·.gals) h :), (congrArg (·.ports) h :), (congrArg (·.fab) h :), (congrArg (·.txns) h :), (congrArg (·.rings) h :), (congrArg (·.collIn) h :), (congrArg (·.grants) h :), (congrArg (·.books) h :), (congrArg (·.host) h :), (congrArg (·.boot) h :), (congrArg (·.flash) h :), (congrArg (·.pwr) h :), (congrArg (·.out) h :), (congrArg (·.mem) h :), (congrArg (·.wr) h :), (congrArg (·.ms.scrambled) h :), (congrArg (·.ms.mapped) h :), (congrArg (·.ms.repairEn) h :)⟩
@[simp] theorem Work.cleared_fields (w : Work) (l : List Nat) :
    (w.cleared l).clk = w.clk ∧ (w.cleared l).bell = w.bell ∧ (w.cleared l).struct = w.struct ∧ (w.cleared l).dev = w.dev ∧
    (w.cleared l).parts = w.parts ∧ (w.cleared l).ctxs = w.ctxs ∧ (w.cleared l).tags = w.tags ∧ (w.cleared l).descs = w.descs ∧
    (w.cleared l).flights = w.flights ∧ (w.cleared l).faces = w.faces ∧ (w.cleared l).gals = w.gals ∧
    (w.cleared l).ports = w.ports ∧ (w.cleared l).fab = w.fab ∧ (w.cleared l).txns = w.txns ∧ (w.cleared l).rings = w.rings ∧
    (w.cleared l).collIn = w.collIn ∧ (w.cleared l).grants = w.grants ∧ (w.cleared l).books = w.books ∧
    (w.cleared l).host = w.host ∧ (w.cleared l).boot = w.boot ∧ (w.cleared l).flash = w.flash ∧ (w.cleared l).pwr = w.pwr ∧
    (w.cleared l).out = w.out ∧ (w.cleared l).mem = w.mem ∧ (w.cleared l).wr = w.wr ∧
    (w.cleared l).ms.scrambled = w.ms.scrambled ∧ (w.cleared l).ms.mapped = w.ms.mapped ∧
    (w.cleared l).ms.repairEn = w.ms.repairEn := by
  have h := w.cleared_msFrame l
  revert h
  generalize w.cleared l = v
  intro h
  exact ⟨(congrArg (·.clk) h :), (congrArg (·.bell) h :), (congrArg (·.struct) h :), (congrArg (·.dev) h :), (congrArg (·.parts) h :), (congrArg (·.ctxs) h :), (congrArg (·.tags) h :), (congrArg (·.descs) h :), (congrArg (·.flights) h :), (congrArg (·.faces) h :), (congrArg (·.gals) h :), (congrArg (·.ports) h :), (congrArg (·.fab) h :), (congrArg (·.txns) h :), (congrArg (·.rings) h :), (congrArg (·.collIn) h :), (congrArg (·.grants) h :), (congrArg (·.books) h :), (congrArg (·.host) h :), (congrArg (·.boot) h :), (congrArg (·.flash) h :), (congrArg (·.pwr) h :), (congrArg (·.out) h :), (congrArg (·.mem) h :), (congrArg (·.wr) h :), (congrArg (·.ms.scrambled) h :), (congrArg (·.ms.mapped) h :), (congrArg (·.ms.repairEn) h :)⟩
@[simp] theorem Work.softMet_fields (w : Work) (l : List (Nat × Nat)) :
    (w.softMet l).clk = w.clk ∧ (w.softMet l).bell = w.bell ∧ (w.softMet l).struct = w.struct ∧ (w.softMet l).ctxs = w.ctxs ∧
    (w.softMet l).tags = w.tags ∧ (w.softMet l).descs = w.descs ∧ (w.softMet l).flights = w.flights ∧
    (w.softMet l).ports = w.ports ∧ (w.softMet l).fab = w.fab ∧ (w.softMet l).txns = w.txns ∧ (w.softMet l).rings = w.rings ∧
    (w.softMet l).collIn = w.collIn ∧ (w.softMet l).grants = w.grants ∧ (w.softMet l).books = w.books ∧
    (w.softMet l).host = w.host ∧ (w.softMet l).boot = w.boot ∧ (w.softMet l).flash = w.flash ∧ (w.softMet l).pwr = w.pwr ∧
    (w.softMet l).out = w.out ∧ (w.softMet l).mem = w.mem ∧ (w.softMet l).wr = w.wr ∧
    (w.softMet l).ms.scrambled = w.ms.scrambled ∧ (w.softMet l).ms.mapped = w.ms.mapped ∧
    (w.softMet l).ms.repairEn = w.ms.repairEn := by
  have h := w.softMet_frame l
  revert h
  generalize w.softMet l = v
  intro h
  exact ⟨(congrArg (·.clk) h :), (congrArg (·.bell) h :), (congrArg (·.struct) h :), (congrArg (·.ctxs) h :), (congrArg (·.tags) h :), (congrArg (·.descs) h :), (congrArg (·.flights) h :), (congrArg (·.ports) h :), (congrArg (·.fab) h :), (congrArg (·.txns) h :), (congrArg (·.rings) h :), (congrArg (·.collIn) h :), (congrArg (·.grants) h :), (congrArg (·.books) h :), (congrArg (·.host) h :), (congrArg (·.boot) h :), (congrArg (·.flash) h :), (congrArg (·.pwr) h :), (congrArg (·.out) h :), (congrArg (·.mem) h :), (congrArg (·.wr) h :), (congrArg (·.ms.scrambled) h :), (congrArg (·.ms.mapped) h :), (congrArg (·.ms.repairEn) h :)⟩
@[simp] theorem Work.reading_fields (w : Work) (p : Nat) (l : List (Nat × Nat)) :
    (w.reading p l).clk = w.clk ∧ (w.reading p l).bell = w.bell ∧ (w.reading p l).struct = w.struct ∧
    (w.reading p l).ctxs = w.ctxs ∧ (w.reading p l).tags = w.tags ∧ (w.reading p l).descs = w.descs ∧
    (w.reading p l).flights = w.flights ∧ (w.reading p l).ports = w.ports ∧ (w.reading p l).fab = w.fab ∧
    (w.reading p l).txns = w.txns ∧ (w.reading p l).rings = w.rings ∧ (w.reading p l).collIn = w.collIn ∧
    (w.reading p l).grants = w.grants ∧ (w.reading p l).books = w.books ∧ (w.reading p l).host = w.host ∧
    (w.reading p l).boot = w.boot ∧ (w.reading p l).flash = w.flash ∧ (w.reading p l).pwr = w.pwr ∧
    (w.reading p l).out = w.out ∧ (w.reading p l).mem = w.mem ∧ (w.reading p l).wr = w.wr ∧
    (w.reading p l).ms.scrambled = w.ms.scrambled ∧ (w.reading p l).ms.mapped = w.ms.mapped ∧
    (w.reading p l).ms.repairEn = w.ms.repairEn := by
  have h := w.reading_frame p l
  revert h
  generalize w.reading p l = v
  intro h
  exact ⟨(congrArg (·.clk) h :), (congrArg (·.bell) h :), (congrArg (·.struct) h :), (congrArg (·.ctxs) h :), (congrArg (·.tags) h :), (congrArg (·.descs) h :), (congrArg (·.flights) h :), (congrArg (·.ports) h :), (congrArg (·.fab) h :), (congrArg (·.txns) h :), (congrArg (·.rings) h :), (congrArg (·.collIn) h :), (congrArg (·.grants) h :), (congrArg (·.books) h :), (congrArg (·.host) h :), (congrArg (·.boot) h :), (congrArg (·.flash) h :), (congrArg (·.pwr) h :), (congrArg (·.out) h :), (congrArg (·.mem) h :), (congrArg (·.wr) h :), (congrArg (·.ms.scrambled) h :), (congrArg (·.ms.mapped) h :), (congrArg (·.ms.repairEn) h :)⟩
@[simp] theorem Work.put_fields (w : Work) (a : Nat) (l : List Nat) :
    (w.put a l).clk = w.clk ∧ (w.put a l).bell = w.bell ∧ (w.put a l).ms = w.ms ∧ (w.put a l).struct = w.struct ∧
    (w.put a l).dev = w.dev ∧ (w.put a l).parts = w.parts ∧ (w.put a l).ctxs = w.ctxs ∧ (w.put a l).tags = w.tags ∧
    (w.put a l).descs = w.descs ∧ (w.put a l).flights = w.flights ∧ (w.put a l).faces = w.faces ∧ (w.put a l).gals = w.gals ∧
    (w.put a l).ports = w.ports ∧ (w.put a l).fab = w.fab ∧ (w.put a l).txns = w.txns ∧ (w.put a l).rings = w.rings ∧
    (w.put a l).collIn = w.collIn ∧ (w.put a l).grants = w.grants ∧ (w.put a l).books = w.books ∧ (w.put a l).host = w.host ∧
    (w.put a l).boot = w.boot ∧ (w.put a l).flash = w.flash ∧ (w.put a l).pwr = w.pwr ∧ (w.put a l).out = w.out ∧
    (w.put a l).mem = w.mem := by
  have h := Work.put_frame l w a
  revert h
  generalize w.put a l = v
  intro h
  exact ⟨(congrArg (·.clk) h :), (congrArg (·.bell) h :), (congrArg (·.ms) h :), (congrArg (·.struct) h :), (congrArg (·.dev) h :), (congrArg (·.parts) h :), (congrArg (·.ctxs) h :), (congrArg (·.tags) h :), (congrArg (·.descs) h :), (congrArg (·.flights) h :), (congrArg (·.faces) h :), (congrArg (·.gals) h :), (congrArg (·.ports) h :), (congrArg (·.fab) h :), (congrArg (·.txns) h :), (congrArg (·.rings) h :), (congrArg (·.collIn) h :), (congrArg (·.grants) h :), (congrArg (·.books) h :), (congrArg (·.host) h :), (congrArg (·.boot) h :), (congrArg (·.flash) h :), (congrArg (·.pwr) h :), (congrArg (·.out) h :), (congrArg (·.mem) h :)⟩
@[simp] theorem Work.storeHfc_fields (w : Work) (a : Nat) (l : List Nat) :
    (w.storeHfc a l).clk = w.clk ∧ (w.storeHfc a l).bell = w.bell ∧ (w.storeHfc a l).struct = w.struct ∧
    (w.storeHfc a l).dev = w.dev ∧ (w.storeHfc a l).parts = w.parts ∧ (w.storeHfc a l).ctxs = w.ctxs ∧
    (w.storeHfc a l).tags = w.tags ∧ (w.storeHfc a l).descs = w.descs ∧ (w.storeHfc a l).flights = w.flights ∧
    (w.storeHfc a l).faces = w.faces ∧ (w.storeHfc a l).gals = w.gals ∧ (w.storeHfc a l).ports = w.ports ∧
    (w.storeHfc a l).fab = w.fab ∧ (w.storeHfc a l).txns = w.txns ∧ (w.storeHfc a l).rings = w.rings ∧
    (w.storeHfc a l).collIn = w.collIn ∧ (w.storeHfc a l).grants = w.grants ∧ (w.storeHfc a l).books = w.books ∧
    (w.storeHfc a l).host = w.host ∧ (w.storeHfc a l).boot = w.boot ∧ (w.storeHfc a l).flash = w.flash ∧
    (w.storeHfc a l).pwr = w.pwr ∧ (w.storeHfc a l).out = w.out ∧ (w.storeHfc a l).mem = w.mem ∧
    (w.storeHfc a l).ms.scrambled = w.ms.scrambled ∧ (w.storeHfc a l).ms.mapped = w.ms.mapped ∧
    (w.storeHfc a l).ms.repairEn = w.ms.repairEn := by
  have h := w.storeHfc_memFrame a l
  revert h
  generalize w.storeHfc a l = v
  intro h
  exact ⟨(congrArg (·.clk) h :), (congrArg (·.bell) h :), (congrArg (·.struct) h :), (congrArg (·.dev) h :), (congrArg (·.parts) h :), (congrArg (·.ctxs) h :), (congrArg (·.tags) h :), (congrArg (·.descs) h :), (congrArg (·.flights) h :), (congrArg (·.faces) h :), (congrArg (·.gals) h :), (congrArg (·.ports) h :), (congrArg (·.fab) h :), (congrArg (·.txns) h :), (congrArg (·.rings) h :), (congrArg (·.collIn) h :), (congrArg (·.grants) h :), (congrArg (·.books) h :), (congrArg (·.host) h :), (congrArg (·.boot) h :), (congrArg (·.flash) h :), (congrArg (·.pwr) h :), (congrArg (·.out) h :), (congrArg (·.mem) h :), (congrArg (·.ms.scrambled) h :), (congrArg (·.ms.mapped) h :), (congrArg (·.ms.repairEn) h :)⟩
@[simp] theorem Work.store_fields (w : Work) (p a : Nat) (l : List Nat) :
    (w.store p a l).clk = w.clk ∧ (w.store p a l).bell = w.bell ∧ (w.store p a l).struct = w.struct ∧
    (w.store p a l).dev = w.dev ∧ (w.store p a l).parts = w.parts ∧ (w.store p a l).ctxs = w.ctxs ∧
    (w.store p a l).tags = w.tags ∧ (w.store p a l).descs = w.descs ∧ (w.store p a l).flights = w.flights ∧
    (w.store p a l).faces = w.faces ∧ (w.store p a l).gals = w.gals ∧ (w.store p a l).ports = w.ports ∧
    (w.store p a l).fab = w.fab ∧ (w.store p a l).txns = w.txns ∧ (w.store p a l).rings = w.rings ∧
    (w.store p a l).collIn = w.collIn ∧ (w.store p a l).grants = w.grants ∧ (w.store p a l).books = w.books ∧
    (w.store p a l).host = w.host ∧ (w.store p a l).boot = w.boot ∧ (w.store p a l).flash = w.flash ∧
    (w.store p a l).pwr = w.pwr ∧ (w.store p a l).out = w.out ∧ (w.store p a l).mem = w.mem ∧
    (w.store p a l).ms.scrambled = w.ms.scrambled ∧ (w.store p a l).ms.mapped = w.ms.mapped ∧
    (w.store p a l).ms.repairEn = w.ms.repairEn := by
  have h := w.store_memFrame p a l
  revert h
  generalize w.store p a l = v
  intro h
  exact ⟨(congrArg (·.clk) h :), (congrArg (·.bell) h :), (congrArg (·.struct) h :), (congrArg (·.dev) h :), (congrArg (·.parts) h :), (congrArg (·.ctxs) h :), (congrArg (·.tags) h :), (congrArg (·.descs) h :), (congrArg (·.flights) h :), (congrArg (·.faces) h :), (congrArg (·.gals) h :), (congrArg (·.ports) h :), (congrArg (·.fab) h :), (congrArg (·.txns) h :), (congrArg (·.rings) h :), (congrArg (·.collIn) h :), (congrArg (·.grants) h :), (congrArg (·.books) h :), (congrArg (·.host) h :), (congrArg (·.boot) h :), (congrArg (·.flash) h :), (congrArg (·.pwr) h :), (congrArg (·.out) h :), (congrArg (·.mem) h :), (congrArg (·.ms.scrambled) h :), (congrArg (·.ms.mapped) h :), (congrArg (·.ms.repairEn) h :)⟩
@[simp] theorem Work.doWops_fields (w : Work) (l : List Wop) :
    (w.doWops l).clk = w.clk ∧ (w.doWops l).bell = w.bell ∧ (w.doWops l).ms = w.ms ∧ (w.doWops l).struct = w.struct ∧
    (w.doWops l).dev = w.dev ∧ (w.doWops l).parts = w.parts ∧ (w.doWops l).ctxs = w.ctxs ∧ (w.doWops l).tags = w.tags ∧
    (w.doWops l).descs = w.descs ∧ (w.doWops l).flights = w.flights ∧ (w.doWops l).faces = w.faces ∧
    (w.doWops l).gals = w.gals ∧ (w.doWops l).ports = w.ports ∧ (w.doWops l).fab = w.fab ∧ (w.doWops l).txns = w.txns ∧
    (w.doWops l).rings = w.rings ∧ (w.doWops l).collIn = w.collIn ∧ (w.doWops l).grants = w.grants ∧
    (w.doWops l).books = w.books ∧ (w.doWops l).host = w.host ∧ (w.doWops l).boot = w.boot ∧ (w.doWops l).flash = w.flash ∧
    (w.doWops l).pwr = w.pwr ∧ (w.doWops l).out = w.out ∧ (w.doWops l).mem = w.mem := by
  have h := Work.doWops_frame l w
  revert h
  generalize w.doWops l = v
  intro h
  exact ⟨(congrArg (·.clk) h :), (congrArg (·.bell) h :), (congrArg (·.ms) h :), (congrArg (·.struct) h :), (congrArg (·.dev) h :), (congrArg (·.parts) h :), (congrArg (·.ctxs) h :), (congrArg (·.tags) h :), (congrArg (·.descs) h :), (congrArg (·.flights) h :), (congrArg (·.faces) h :), (congrArg (·.gals) h :), (congrArg (·.ports) h :), (congrArg (·.fab) h :), (congrArg (·.txns) h :), (congrArg (·.rings) h :), (congrArg (·.collIn) h :), (congrArg (·.grants) h :), (congrArg (·.books) h :), (congrArg (·.host) h :), (congrArg (·.boot) h :), (congrArg (·.flash) h :), (congrArg (·.pwr) h :), (congrArg (·.out) h :), (congrArg (·.mem) h :)⟩
@[simp] theorem Work.putFlit_fields (w : Work) (n : Nat) (f : Flit) :
    (w.putFlit n f).clk = w.clk ∧ (w.putFlit n f).bell = w.bell ∧ (w.putFlit n f).ms = w.ms ∧
    (w.putFlit n f).struct = w.struct ∧ (w.putFlit n f).parts = w.parts ∧ (w.putFlit n f).ctxs = w.ctxs ∧
    (w.putFlit n f).tags = w.tags ∧ (w.putFlit n f).descs = w.descs ∧ (w.putFlit n f).faces = w.faces ∧
    (w.putFlit n f).gals = w.gals ∧ (w.putFlit n f).fab = w.fab ∧ (w.putFlit n f).rings = w.rings ∧
    (w.putFlit n f).collIn = w.collIn ∧ (w.putFlit n f).grants = w.grants ∧ (w.putFlit n f).books = w.books ∧
    (w.putFlit n f).host = w.host ∧ (w.putFlit n f).boot = w.boot ∧ (w.putFlit n f).flash = w.flash ∧
    (w.putFlit n f).pwr = w.pwr ∧ (w.putFlit n f).mem = w.mem ∧ (w.putFlit n f).wr = w.wr := by
  have h := w.putFlit_frame n f
  revert h
  generalize w.putFlit n f = v
  intro h
  exact ⟨(congrArg (·.clk) h :), (congrArg (·.bell) h :), (congrArg (·.ms) h :), (congrArg (·.struct) h :), (congrArg (·.parts) h :), (congrArg (·.ctxs) h :), (congrArg (·.tags) h :), (congrArg (·.descs) h :), (congrArg (·.faces) h :), (congrArg (·.gals) h :), (congrArg (·.fab) h :), (congrArg (·.rings) h :), (congrArg (·.collIn) h :), (congrArg (·.grants) h :), (congrArg (·.books) h :), (congrArg (·.host) h :), (congrArg (·.boot) h :), (congrArg (·.flash) h :), (congrArg (·.pwr) h :), (congrArg (·.mem) h :), (congrArg (·.wr) h :)⟩
@[simp] theorem Work.flushPort_fields (w : Work) (n : Nat) :
    (w.flushPort n).clk = w.clk ∧ (w.flushPort n).bell = w.bell ∧ (w.flushPort n).ms = w.ms ∧
    (w.flushPort n).struct = w.struct ∧ (w.flushPort n).parts = w.parts ∧ (w.flushPort n).ctxs = w.ctxs ∧
    (w.flushPort n).tags = w.tags ∧ (w.flushPort n).descs = w.descs ∧ (w.flushPort n).faces = w.faces ∧
    (w.flushPort n).gals = w.gals ∧ (w.flushPort n).fab = w.fab ∧ (w.flushPort n).rings = w.rings ∧
    (w.flushPort n).collIn = w.collIn ∧ (w.flushPort n).grants = w.grants ∧ (w.flushPort n).books = w.books ∧
    (w.flushPort n).host = w.host ∧ (w.flushPort n).boot = w.boot ∧ (w.flushPort n).flash = w.flash ∧
    (w.flushPort n).pwr = w.pwr ∧ (w.flushPort n).mem = w.mem ∧ (w.flushPort n).wr = w.wr := by
  have h := w.flushPort_frame n
  revert h
  generalize w.flushPort n = v
  intro h
  exact ⟨(congrArg (·.clk) h :), (congrArg (·.bell) h :), (congrArg (·.ms) h :), (congrArg (·.struct) h :), (congrArg (·.parts) h :), (congrArg (·.ctxs) h :), (congrArg (·.tags) h :), (congrArg (·.descs) h :), (congrArg (·.faces) h :), (congrArg (·.gals) h :), (congrArg (·.fab) h :), (congrArg (·.rings) h :), (congrArg (·.collIn) h :), (congrArg (·.grants) h :), (congrArg (·.books) h :), (congrArg (·.host) h :), (congrArg (·.boot) h :), (congrArg (·.flash) h :), (congrArg (·.pwr) h :), (congrArg (·.mem) h :), (congrArg (·.wr) h :)⟩
@[simp] theorem Work.sendFlit_fields (w : Work) (n : Nat) (f : Flit) :
    (w.sendFlit n f).clk = w.clk ∧ (w.sendFlit n f).bell = w.bell ∧ (w.sendFlit n f).ms = w.ms ∧
    (w.sendFlit n f).struct = w.struct ∧ (w.sendFlit n f).parts = w.parts ∧ (w.sendFlit n f).ctxs = w.ctxs ∧
    (w.sendFlit n f).tags = w.tags ∧ (w.sendFlit n f).descs = w.descs ∧ (w.sendFlit n f).faces = w.faces ∧
    (w.sendFlit n f).gals = w.gals ∧ (w.sendFlit n f).fab = w.fab ∧ (w.sendFlit n f).rings = w.rings ∧
    (w.sendFlit n f).collIn = w.collIn ∧ (w.sendFlit n f).grants = w.grants ∧ (w.sendFlit n f).books = w.books ∧
    (w.sendFlit n f).host = w.host ∧ (w.sendFlit n f).boot = w.boot ∧ (w.sendFlit n f).flash = w.flash ∧
    (w.sendFlit n f).pwr = w.pwr ∧ (w.sendFlit n f).mem = w.mem ∧ (w.sendFlit n f).wr = w.wr := by
  have h := w.sendFlit_frame n f
  revert h
  generalize w.sendFlit n f = v
  intro h
  exact ⟨(congrArg (·.clk) h :), (congrArg (·.bell) h :), (congrArg (·.ms) h :), (congrArg (·.struct) h :), (congrArg (·.parts) h :), (congrArg (·.ctxs) h :), (congrArg (·.tags) h :), (congrArg (·.descs) h :), (congrArg (·.faces) h :), (congrArg (·.gals) h :), (congrArg (·.fab) h :), (congrArg (·.rings) h :), (congrArg (·.collIn) h :), (congrArg (·.grants) h :), (congrArg (·.books) h :), (congrArg (·.host) h :), (congrArg (·.boot) h :), (congrArg (·.flash) h :), (congrArg (·.pwr) h :), (congrArg (·.mem) h :), (congrArg (·.wr) h :)⟩
@[simp] theorem Work.sendCtl_fields (w : Work) (type dst part txn : Nat) (data : List Nat) :
    (w.sendCtl type dst part txn data).clk = w.clk ∧ (w.sendCtl type dst part txn data).bell = w.bell ∧
    (w.sendCtl type dst part txn data).ms = w.ms ∧ (w.sendCtl type dst part txn data).struct = w.struct ∧
    (w.sendCtl type dst part txn data).parts = w.parts ∧ (w.sendCtl type dst part txn data).ctxs = w.ctxs ∧
    (w.sendCtl type dst part txn data).tags = w.tags ∧ (w.sendCtl type dst part txn data).descs = w.descs ∧
    (w.sendCtl type dst part txn data).faces = w.faces ∧ (w.sendCtl type dst part txn data).gals = w.gals ∧
    (w.sendCtl type dst part txn data).fab = w.fab ∧ (w.sendCtl type dst part txn data).rings = w.rings ∧
    (w.sendCtl type dst part txn data).collIn = w.collIn ∧ (w.sendCtl type dst part txn data).grants = w.grants ∧
    (w.sendCtl type dst part txn data).books = w.books ∧ (w.sendCtl type dst part txn data).host = w.host ∧
    (w.sendCtl type dst part txn data).boot = w.boot ∧ (w.sendCtl type dst part txn data).flash = w.flash ∧
    (w.sendCtl type dst part txn data).pwr = w.pwr ∧ (w.sendCtl type dst part txn data).mem = w.mem ∧
    (w.sendCtl type dst part txn data).wr = w.wr := by
  have h := w.sendCtl_frame type dst part txn data
  revert h
  generalize w.sendCtl type dst part txn data = v
  intro h
  exact ⟨(congrArg (·.clk) h :), (congrArg (·.bell) h :), (congrArg (·.ms) h :), (congrArg (·.struct) h :), (congrArg (·.parts) h :), (congrArg (·.ctxs) h :), (congrArg (·.tags) h :), (congrArg (·.descs) h :), (congrArg (·.faces) h :), (congrArg (·.gals) h :), (congrArg (·.fab) h :), (congrArg (·.rings) h :), (congrArg (·.collIn) h :), (congrArg (·.grants) h :), (congrArg (·.books) h :), (congrArg (·.host) h :), (congrArg (·.boot) h :), (congrArg (·.flash) h :), (congrArg (·.pwr) h :), (congrArg (·.mem) h :), (congrArg (·.wr) h :)⟩
@[simp] theorem Work.answerBy_fields (w : Work) (n : Nat) (f : Flit) :
    (w.answerBy n f).clk = w.clk ∧ (w.answerBy n f).bell = w.bell ∧ (w.answerBy n f).ms = w.ms ∧
    (w.answerBy n f).struct = w.struct ∧ (w.answerBy n f).parts = w.parts ∧ (w.answerBy n f).ctxs = w.ctxs ∧
    (w.answerBy n f).tags = w.tags ∧ (w.answerBy n f).descs = w.descs ∧ (w.answerBy n f).faces = w.faces ∧
    (w.answerBy n f).gals = w.gals ∧ (w.answerBy n f).fab = w.fab ∧ (w.answerBy n f).rings = w.rings ∧
    (w.answerBy n f).collIn = w.collIn ∧ (w.answerBy n f).grants = w.grants ∧ (w.answerBy n f).books = w.books ∧
    (w.answerBy n f).host = w.host ∧ (w.answerBy n f).boot = w.boot ∧ (w.answerBy n f).flash = w.flash ∧
    (w.answerBy n f).pwr = w.pwr ∧ (w.answerBy n f).mem = w.mem ∧ (w.answerBy n f).wr = w.wr := by
  have h := w.answerBy_frame n f
  revert h
  generalize w.answerBy n f = v
  intro h
  exact ⟨(congrArg (·.clk) h :), (congrArg (·.bell) h :), (congrArg (·.ms) h :), (congrArg (·.struct) h :), (congrArg (·.parts) h :), (congrArg (·.ctxs) h :), (congrArg (·.tags) h :), (congrArg (·.descs) h :), (congrArg (·.faces) h :), (congrArg (·.gals) h :), (congrArg (·.fab) h :), (congrArg (·.rings) h :), (congrArg (·.collIn) h :), (congrArg (·.grants) h :), (congrArg (·.books) h :), (congrArg (·.host) h :), (congrArg (·.boot) h :), (congrArg (·.flash) h :), (congrArg (·.pwr) h :), (congrArg (·.mem) h :), (congrArg (·.wr) h :)⟩
@[simp] theorem Work.nak_fields (w : Work) (n src part txn : Nat) (why : NakReason) :
    (w.nak n src part txn why).clk = w.clk ∧ (w.nak n src part txn why).bell = w.bell ∧ (w.nak n src part txn why).ms = w.ms ∧
    (w.nak n src part txn why).struct = w.struct ∧ (w.nak n src part txn why).parts = w.parts ∧
    (w.nak n src part txn why).ctxs = w.ctxs ∧ (w.nak n src part txn why).tags = w.tags ∧
    (w.nak n src part txn why).descs = w.descs ∧ (w.nak n src part txn why).faces = w.faces ∧
    (w.nak n src part txn why).gals = w.gals ∧ (w.nak n src part txn why).fab = w.fab ∧
    (w.nak n src part txn why).rings = w.rings ∧ (w.nak n src part txn why).collIn = w.collIn ∧
    (w.nak n src part txn why).grants = w.grants ∧ (w.nak n src part txn why).books = w.books ∧
    (w.nak n src part txn why).host = w.host ∧ (w.nak n src part txn why).boot = w.boot ∧
    (w.nak n src part txn why).flash = w.flash ∧ (w.nak n src part txn why).pwr = w.pwr ∧
    (w.nak n src part txn why).mem = w.mem ∧ (w.nak n src part txn why).wr = w.wr := by
  have h := w.nak_frame n src part txn why
  revert h
  generalize w.nak n src part txn why = v
  intro h
  exact ⟨(congrArg (·.clk) h :), (congrArg (·.bell) h :), (congrArg (·.ms) h :), (congrArg (·.struct) h :), (congrArg (·.parts) h :), (congrArg (·.ctxs) h :), (congrArg (·.tags) h :), (congrArg (·.descs) h :), (congrArg (·.faces) h :), (congrArg (·.gals) h :), (congrArg (·.fab) h :), (congrArg (·.rings) h :), (congrArg (·.collIn) h :), (congrArg (·.grants) h :), (congrArg (·.books) h :), (congrArg (·.host) h :), (congrArg (·.boot) h :), (congrArg (·.flash) h :), (congrArg (·.pwr) h :), (congrArg (·.mem) h :), (congrArg (·.wr) h :)⟩
@[simp] theorem Work.refuse_fields (w : Work) (n src part txn : Nat) (reset : Bool) :
    (w.refuse n src part txn reset).clk = w.clk ∧ (w.refuse n src part txn reset).bell = w.bell ∧
    (w.refuse n src part txn reset).ms = w.ms ∧ (w.refuse n src part txn reset).struct = w.struct ∧
    (w.refuse n src part txn reset).parts = w.parts ∧ (w.refuse n src part txn reset).ctxs = w.ctxs ∧
    (w.refuse n src part txn reset).tags = w.tags ∧ (w.refuse n src part txn reset).descs = w.descs ∧
    (w.refuse n src part txn reset).faces = w.faces ∧ (w.refuse n src part txn reset).gals = w.gals ∧
    (w.refuse n src part txn reset).fab = w.fab ∧ (w.refuse n src part txn reset).rings = w.rings ∧
    (w.refuse n src part txn reset).collIn = w.collIn ∧ (w.refuse n src part txn reset).grants = w.grants ∧
    (w.refuse n src part txn reset).books = w.books ∧ (w.refuse n src part txn reset).host = w.host ∧
    (w.refuse n src part txn reset).boot = w.boot ∧ (w.refuse n src part txn reset).flash = w.flash ∧
    (w.refuse n src part txn reset).pwr = w.pwr ∧ (w.refuse n src part txn reset).mem = w.mem ∧
    (w.refuse n src part txn reset).wr = w.wr := by
  have h := w.refuse_frame n src part txn reset
  revert h
  generalize w.refuse n src part txn reset = v
  intro h
  exact ⟨(congrArg (·.clk) h :), (congrArg (·.bell) h :), (congrArg (·.ms) h :), (congrArg (·.struct) h :), (congrArg (·.parts) h :), (congrArg (·.ctxs) h :), (congrArg (·.tags) h :), (congrArg (·.descs) h :), (congrArg (·.faces) h :), (congrArg (·.gals) h :), (congrArg (·.fab) h :), (congrArg (·.rings) h :), (congrArg (·.collIn) h :), (congrArg (·.grants) h :), (congrArg (·.books) h :), (congrArg (·.host) h :), (congrArg (·.boot) h :), (congrArg (·.flash) h :), (congrArg (·.pwr) h :), (congrArg (·.mem) h :), (congrArg (·.wr) h :)⟩
@[simp] theorem Work.linkIn_fields (w : Work) (n vc k free : Nat) (l : LinkIn) :
    (w.linkIn n vc k free l).clk = w.clk ∧ (w.linkIn n vc k free l).bell = w.bell ∧ (w.linkIn n vc k free l).ms = w.ms ∧
    (w.linkIn n vc k free l).struct = w.struct ∧ (w.linkIn n vc k free l).parts = w.parts ∧
    (w.linkIn n vc k free l).ctxs = w.ctxs ∧ (w.linkIn n vc k free l).tags = w.tags ∧ (w.linkIn n vc k free l).descs = w.descs ∧
    (w.linkIn n vc k free l).faces = w.faces ∧ (w.linkIn n vc k free l).gals = w.gals ∧ (w.linkIn n vc k free l).fab = w.fab ∧
    (w.linkIn n vc k free l).rings = w.rings ∧ (w.linkIn n vc k free l).collIn = w.collIn ∧
    (w.linkIn n vc k free l).grants = w.grants ∧ (w.linkIn n vc k free l).books = w.books ∧
    (w.linkIn n vc k free l).host = w.host ∧ (w.linkIn n vc k free l).boot = w.boot ∧ (w.linkIn n vc k free l).flash = w.flash ∧
    (w.linkIn n vc k free l).pwr = w.pwr ∧ (w.linkIn n vc k free l).mem = w.mem ∧ (w.linkIn n vc k free l).wr = w.wr := by
  have h := w.linkIn_frame n vc k free l
  revert h
  generalize w.linkIn n vc k free l = v
  intro h
  exact ⟨(congrArg (·.clk) h :), (congrArg (·.bell) h :), (congrArg (·.ms) h :), (congrArg (·.struct) h :), (congrArg (·.parts) h :), (congrArg (·.ctxs) h :), (congrArg (·.tags) h :), (congrArg (·.descs) h :), (congrArg (·.faces) h :), (congrArg (·.gals) h :), (congrArg (·.fab) h :), (congrArg (·.rings) h :), (congrArg (·.collIn) h :), (congrArg (·.grants) h :), (congrArg (·.books) h :), (congrArg (·.host) h :), (congrArg (·.boot) h :), (congrArg (·.flash) h :), (congrArg (·.pwr) h :), (congrArg (·.mem) h :), (congrArg (·.wr) h :)⟩
@[simp] theorem Work.tagTo_fields (w : Work) (t : Nat) (v : W32) :
    (w.tagTo t v).clk = w.clk ∧ (w.tagTo t v).bell = w.bell ∧ (w.tagTo t v).ms = w.ms ∧ (w.tagTo t v).struct = w.struct ∧
    (w.tagTo t v).dev = w.dev ∧ (w.tagTo t v).parts = w.parts ∧ (w.tagTo t v).ctxs = w.ctxs ∧ (w.tagTo t v).descs = w.descs ∧
    (w.tagTo t v).faces = w.faces ∧ (w.tagTo t v).gals = w.gals ∧ (w.tagTo t v).ports = w.ports ∧ (w.tagTo t v).fab = w.fab ∧
    (w.tagTo t v).txns = w.txns ∧ (w.tagTo t v).rings = w.rings ∧ (w.tagTo t v).collIn = w.collIn ∧
    (w.tagTo t v).grants = w.grants ∧ (w.tagTo t v).books = w.books ∧ (w.tagTo t v).host = w.host ∧
    (w.tagTo t v).boot = w.boot ∧ (w.tagTo t v).flash = w.flash ∧ (w.tagTo t v).pwr = w.pwr ∧ (w.tagTo t v).out = w.out ∧
    (w.tagTo t v).mem = w.mem ∧ (w.tagTo t v).wr = w.wr := by
  have h := w.tagTo_frame t v
  revert h
  generalize w.tagTo t v = v
  intro h
  exact ⟨(congrArg (·.clk) h :), (congrArg (·.bell) h :), (congrArg (·.ms) h :), (congrArg (·.struct) h :), (congrArg (·.dev) h :), (congrArg (·.parts) h :), (congrArg (·.ctxs) h :), (congrArg (·.descs) h :), (congrArg (·.faces) h :), (congrArg (·.gals) h :), (congrArg (·.ports) h :), (congrArg (·.fab) h :), (congrArg (·.txns) h :), (congrArg (·.rings) h :), (congrArg (·.collIn) h :), (congrArg (·.grants) h :), (congrArg (·.books) h :), (congrArg (·.host) h :), (congrArg (·.boot) h :), (congrArg (·.flash) h :), (congrArg (·.pwr) h :), (congrArg (·.out) h :), (congrArg (·.mem) h :), (congrArg (·.wr) h :)⟩
@[simp] theorem Work.tagAdd_fields (w : Work) (t v : Nat) :
    (w.tagAdd t v).clk = w.clk ∧ (w.tagAdd t v).bell = w.bell ∧ (w.tagAdd t v).ms = w.ms ∧ (w.tagAdd t v).struct = w.struct ∧
    (w.tagAdd t v).dev = w.dev ∧ (w.tagAdd t v).parts = w.parts ∧ (w.tagAdd t v).ctxs = w.ctxs ∧
    (w.tagAdd t v).descs = w.descs ∧ (w.tagAdd t v).faces = w.faces ∧ (w.tagAdd t v).gals = w.gals ∧
    (w.tagAdd t v).ports = w.ports ∧ (w.tagAdd t v).fab = w.fab ∧ (w.tagAdd t v).txns = w.txns ∧
    (w.tagAdd t v).rings = w.rings ∧ (w.tagAdd t v).collIn = w.collIn ∧ (w.tagAdd t v).grants = w.grants ∧
    (w.tagAdd t v).books = w.books ∧ (w.tagAdd t v).host = w.host ∧ (w.tagAdd t v).boot = w.boot ∧
    (w.tagAdd t v).flash = w.flash ∧ (w.tagAdd t v).pwr = w.pwr ∧ (w.tagAdd t v).out = w.out ∧ (w.tagAdd t v).mem = w.mem ∧
    (w.tagAdd t v).wr = w.wr := by
  have h := w.tagAdd_frame t v
  revert h
  generalize w.tagAdd t v = v
  intro h
  exact ⟨(congrArg (·.clk) h :), (congrArg (·.bell) h :), (congrArg (·.ms) h :), (congrArg (·.struct) h :), (congrArg (·.dev) h :), (congrArg (·.parts) h :), (congrArg (·.ctxs) h :), (congrArg (·.descs) h :), (congrArg (·.faces) h :), (congrArg (·.gals) h :), (congrArg (·.ports) h :), (congrArg (·.fab) h :), (congrArg (·.txns) h :), (congrArg (·.rings) h :), (congrArg (·.collIn) h :), (congrArg (·.grants) h :), (congrArg (·.books) h :), (congrArg (·.host) h :), (congrArg (·.boot) h :), (congrArg (·.flash) h :), (congrArg (·.pwr) h :), (congrArg (·.out) h :), (congrArg (·.mem) h :), (congrArg (·.wr) h :)⟩
@[simp] theorem Work.memUe_fields (w : Work) (pc off source : Nat) :
    (w.memUe pc off source).clk = w.clk ∧ (w.memUe pc off source).bell = w.bell ∧ (w.memUe pc off source).struct = w.struct ∧
    (w.memUe pc off source).ctxs = w.ctxs ∧ (w.memUe pc off source).descs = w.descs ∧ (w.memUe pc off source).fab = w.fab ∧
    (w.memUe pc off source).rings = w.rings ∧ (w.memUe pc off source).collIn = w.collIn ∧
    (w.memUe pc off source).grants = w.grants ∧ (w.memUe pc off source).books = w.books ∧
    (w.memUe pc off source).boot = w.boot ∧ (w.memUe pc off source).flash = w.flash ∧ (w.memUe pc off source).pwr = w.pwr ∧
    (w.memUe pc off source).mem = w.mem ∧ (w.memUe pc off source).ms.scrambled = w.ms.scrambled ∧
    (w.memUe pc off source).ms.mapped = w.ms.mapped ∧ (w.memUe pc off source).ms.repairEn = w.ms.repairEn := by
  have h := w.memUe_frame pc off source
  revert h
  generalize w.memUe pc off source = v
  intro h
  exact ⟨(congrArg (·.clk) h :), (congrArg (·.bell) h :), (congrArg (·.struct) h :), (congrArg (·.ctxs) h :), (congrArg (·.descs) h :), (congrArg (·.fab) h :), (congrArg (·.rings) h :), (congrArg (·.collIn) h :), (congrArg (·.grants) h :), (congrArg (·.books) h :), (congrArg (·.boot) h :), (congrArg (·.flash) h :), (congrArg (·.pwr) h :), (congrArg (·.mem) h :), (congrArg (·.ms.scrambled) h :), (congrArg (·.ms.mapped) h :), (congrArg (·.ms.repairEn) h :)⟩
@[simp] theorem Work.eccMet_fields (w : Work) (a len source : Nat) :
    (w.eccMet a len source).clk = w.clk ∧ (w.eccMet a len source).bell = w.bell ∧ (w.eccMet a len source).struct = w.struct ∧
    (w.eccMet a len source).ctxs = w.ctxs ∧ (w.eccMet a len source).descs = w.descs ∧ (w.eccMet a len source).fab = w.fab ∧
    (w.eccMet a len source).rings = w.rings ∧ (w.eccMet a len source).collIn = w.collIn ∧
    (w.eccMet a len source).grants = w.grants ∧ (w.eccMet a len source).books = w.books ∧
    (w.eccMet a len source).boot = w.boot ∧ (w.eccMet a len source).flash = w.flash ∧ (w.eccMet a len source).pwr = w.pwr ∧
    (w.eccMet a len source).mem = w.mem ∧ (w.eccMet a len source).ms.scrambled = w.ms.scrambled ∧
    (w.eccMet a len source).ms.mapped = w.ms.mapped ∧ (w.eccMet a len source).ms.repairEn = w.ms.repairEn := by
  have h := w.eccMet_frame a len source
  revert h
  generalize w.eccMet a len source = v
  intro h
  exact ⟨(congrArg (·.clk) h :), (congrArg (·.bell) h :), (congrArg (·.struct) h :), (congrArg (·.ctxs) h :), (congrArg (·.descs) h :), (congrArg (·.fab) h :), (congrArg (·.rings) h :), (congrArg (·.collIn) h :), (congrArg (·.grants) h :), (congrArg (·.books) h :), (congrArg (·.boot) h :), (congrArg (·.flash) h :), (congrArg (·.pwr) h :), (congrArg (·.mem) h :), (congrArg (·.ms.scrambled) h :), (congrArg (·.ms.mapped) h :), (congrArg (·.ms.repairEn) h :)⟩
@[simp] theorem Work.openTxn_fields (w : Work) (t : Txn) (b : Bool) :
    (w.openTxn t b).clk = w.clk ∧ (w.openTxn t b).bell = w.bell ∧ (w.openTxn t b).struct = w.struct ∧
    (w.openTxn t b).ctxs = w.ctxs ∧ (w.openTxn t b).descs = w.descs ∧ (w.openTxn t b).fab = w.fab ∧
    (w.openTxn t b).rings = w.rings ∧ (w.openTxn t b).collIn = w.collIn ∧ (w.openTxn t b).grants = w.grants ∧
    (w.openTxn t b).books = w.books ∧ (w.openTxn t b).boot = w.boot ∧ (w.openTxn t b).flash = w.flash ∧
    (w.openTxn t b).pwr = w.pwr ∧ (w.openTxn t b).mem = w.mem ∧ (w.openTxn t b).ms.scrambled = w.ms.scrambled ∧
    (w.openTxn t b).ms.mapped = w.ms.mapped ∧ (w.openTxn t b).ms.repairEn = w.ms.repairEn := by
  have h := w.openTxn_frame t b
  revert h
  generalize w.openTxn t b = v
  intro h
  exact ⟨(congrArg (·.clk) h :), (congrArg (·.bell) h :), (congrArg (·.struct) h :), (congrArg (·.ctxs) h :), (congrArg (·.descs) h :), (congrArg (·.fab) h :), (congrArg (·.rings) h :), (congrArg (·.collIn) h :), (congrArg (·.grants) h :), (congrArg (·.books) h :), (congrArg (·.boot) h :), (congrArg (·.flash) h :), (congrArg (·.pwr) h :), (congrArg (·.mem) h :), (congrArg (·.ms.scrambled) h :), (congrArg (·.ms.mapped) h :), (congrArg (·.ms.repairEn) h :)⟩
@[simp] theorem Work.commitUnit_fields (w : Work) (x : Flight) (b : Bool) (n : Nat) (u : URes) :
    (w.commitUnit x b n u).clk = w.clk ∧ (w.commitUnit x b n u).bell = w.bell ∧ (w.commitUnit x b n u).struct = w.struct ∧
    (w.commitUnit x b n u).ctxs = w.ctxs ∧ (w.commitUnit x b n u).descs = w.descs ∧ (w.commitUnit x b n u).fab = w.fab ∧
    (w.commitUnit x b n u).rings = w.rings ∧ (w.commitUnit x b n u).collIn = w.collIn ∧
    (w.commitUnit x b n u).grants = w.grants ∧ (w.commitUnit x b n u).books = w.books ∧ (w.commitUnit x b n u).boot = w.boot ∧
    (w.commitUnit x b n u).flash = w.flash ∧ (w.commitUnit x b n u).pwr = w.pwr ∧ (w.commitUnit x b n u).mem = w.mem ∧
    (w.commitUnit x b n u).ms.scrambled = w.ms.scrambled ∧ (w.commitUnit x b n u).ms.mapped = w.ms.mapped ∧
    (w.commitUnit x b n u).ms.repairEn = w.ms.repairEn := by
  have h := w.commitUnit_frame x b n u
  revert h
  generalize w.commitUnit x b n u = v
  intro h
  exact ⟨(congrArg (·.clk) h :), (congrArg (·.bell) h :), (congrArg (·.struct) h :), (congrArg (·.ctxs) h :), (congrArg (·.descs) h :), (congrArg (·.fab) h :), (congrArg (·.rings) h :), (congrArg (·.collIn) h :), (congrArg (·.grants) h :), (congrArg (·.books) h :), (congrArg (·.boot) h :), (congrArg (·.flash) h :), (congrArg (·.pwr) h :), (congrArg (·.mem) h :), (congrArg (·.ms.scrambled) h :), (congrArg (·.ms.mapped) h :), (congrArg (·.ms.repairEn) h :)⟩
@[simp] theorem Work.commitUnits_fields (w : Work) (x : Flight) (b : Bool) (n : Nat) (us : List URes) :
    (w.commitUnits x b n us).clk = w.clk ∧ (w.commitUnits x b n us).bell = w.bell ∧ (w.commitUnits x b n us).struct = w.struct ∧
    (w.commitUnits x b n us).ctxs = w.ctxs ∧ (w.commitUnits x b n us).descs = w.descs ∧ (w.commitUnits x b n us).fab = w.fab ∧
    (w.commitUnits x b n us).rings = w.rings ∧ (w.commitUnits x b n us).collIn = w.collIn ∧
    (w.commitUnits x b n us).grants = w.grants ∧ (w.commitUnits x b n us).books = w.books ∧
    (w.commitUnits x b n us).boot = w.boot ∧ (w.commitUnits x b n us).flash = w.flash ∧ (w.commitUnits x b n us).pwr = w.pwr ∧
    (w.commitUnits x b n us).mem = w.mem ∧ (w.commitUnits x b n us).ms.scrambled = w.ms.scrambled ∧
    (w.commitUnits x b n us).ms.mapped = w.ms.mapped ∧ (w.commitUnits x b n us).ms.repairEn = w.ms.repairEn := by
  have h := Work.commitUnits_frame us w x b n
  revert h
  generalize w.commitUnits x b n us = v
  intro h
  exact ⟨(congrArg (·.clk) h :), (congrArg (·.bell) h :), (congrArg (·.struct) h :), (congrArg (·.ctxs) h :), (congrArg (·.descs) h :), (congrArg (·.fab) h :), (congrArg (·.rings) h :), (congrArg (·.collIn) h :), (congrArg (·.grants) h :), (congrArg (·.books) h :), (congrArg (·.boot) h :), (congrArg (·.flash) h :), (congrArg (·.pwr) h :), (congrArg (·.mem) h :), (congrArg (·.ms.scrambled) h :), (congrArg (·.ms.mapped) h :), (congrArg (·.ms.repairEn) h :)⟩
@[simp] theorem Work.writeback_fields (w : Work) (q : Nat) :
    (w.writeback q).clk = w.clk ∧ (w.writeback q).bell = w.bell ∧ (w.writeback q).struct = w.struct ∧
    (w.writeback q).dev = w.dev ∧ (w.writeback q).parts = w.parts ∧ (w.writeback q).tags = w.tags ∧
    (w.writeback q).descs = w.descs ∧ (w.writeback q).flights = w.flights ∧ (w.writeback q).faces = w.faces ∧
    (w.writeback q).gals = w.gals ∧ (w.writeback q).ports = w.ports ∧ (w.writeback q).fab = w.fab ∧
    (w.writeback q).txns = w.txns ∧ (w.writeback q).rings = w.rings ∧ (w.writeback q).collIn = w.collIn ∧
    (w.writeback q).grants = w.grants ∧ (w.writeback q).books = w.books ∧ (w.writeback q).host = w.host ∧
    (w.writeback q).boot = w.boot ∧ (w.writeback q).flash = w.flash ∧ (w.writeback q).pwr = w.pwr ∧
    (w.writeback q).out = w.out ∧ (w.writeback q).mem = w.mem ∧ (w.writeback q).ms.scrambled = w.ms.scrambled ∧
    (w.writeback q).ms.mapped = w.ms.mapped ∧ (w.writeback q).ms.repairEn = w.ms.repairEn := by
  have h := w.writeback_memFrame q
  revert h
  generalize w.writeback q = v
  intro h
  exact ⟨(congrArg (·.clk) h :), (congrArg (·.bell) h :), (congrArg (·.struct) h :), (congrArg (·.dev) h :), (congrArg (·.parts) h :), (congrArg (·.tags) h :), (congrArg (·.descs) h :), (congrArg (·.flights) h :), (congrArg (·.faces) h :), (congrArg (·.gals) h :), (congrArg (·.ports) h :), (congrArg (·.fab) h :), (congrArg (·.txns) h :), (congrArg (·.rings) h :), (congrArg (·.collIn) h :), (congrArg (·.grants) h :), (congrArg (·.books) h :), (congrArg (·.host) h :), (congrArg (·.boot) h :), (congrArg (·.flash) h :), (congrArg (·.pwr) h :), (congrArg (·.out) h :), (congrArg (·.mem) h :), (congrArg (·.ms.scrambled) h :), (congrArg (·.ms.mapped) h :), (congrArg (·.ms.repairEn) h :)⟩
@[simp] theorem Work.writeRec_fields (w : Work) (q : Nat) (r : Rec) :
    (w.writeRec q r).clk = w.clk ∧ (w.writeRec q r).bell = w.bell ∧ (w.writeRec q r).struct = w.struct ∧
    (w.writeRec q r).dev = w.dev ∧ (w.writeRec q r).parts = w.parts ∧ (w.writeRec q r).tags = w.tags ∧
    (w.writeRec q r).descs = w.descs ∧ (w.writeRec q r).flights = w.flights ∧ (w.writeRec q r).faces = w.faces ∧
    (w.writeRec q r).gals = w.gals ∧ (w.writeRec q r).ports = w.ports ∧ (w.writeRec q r).fab = w.fab ∧
    (w.writeRec q r).txns = w.txns ∧ (w.writeRec q r).rings = w.rings ∧ (w.writeRec q r).collIn = w.collIn ∧
    (w.writeRec q r).grants = w.grants ∧ (w.writeRec q r).books = w.books ∧ (w.writeRec q r).host = w.host ∧
    (w.writeRec q r).boot = w.boot ∧ (w.writeRec q r).flash = w.flash ∧ (w.writeRec q r).pwr = w.pwr ∧
    (w.writeRec q r).out = w.out ∧ (w.writeRec q r).mem = w.mem ∧ (w.writeRec q r).ms.scrambled = w.ms.scrambled ∧
    (w.writeRec q r).ms.mapped = w.ms.mapped ∧ (w.writeRec q r).ms.repairEn = w.ms.repairEn := by
  have h := w.writeRec_memFrame q r
  revert h
  generalize w.writeRec q r = v
  intro h
  exact ⟨(congrArg (·.clk) h :), (congrArg (·.bell) h :), (congrArg (·.struct) h :), (congrArg (·.dev) h :), (congrArg (·.parts) h :), (congrArg (·.tags) h :), (congrArg (·.descs) h :), (congrArg (·.flights) h :), (congrArg (·.faces) h :), (congrArg (·.gals) h :), (congrArg (·.ports) h :), (congrArg (·.fab) h :), (congrArg (·.txns) h :), (congrArg (·.rings) h :), (congrArg (·.collIn) h :), (congrArg (·.grants) h :), (congrArg (·.books) h :), (congrArg (·.host) h :), (congrArg (·.boot) h :), (congrArg (·.flash) h :), (congrArg (·.pwr) h :), (congrArg (·.out) h :), (congrArg (·.mem) h :), (congrArg (·.ms.scrambled) h :), (congrArg (·.ms.mapped) h :), (congrArg (·.ms.repairEn) h :)⟩
@[simp] theorem Work.oweRec_fields (w : Work) (q : Nat) (r : Rec) :
    (w.oweRec q r).clk = w.clk ∧ (w.oweRec q r).bell = w.bell ∧ (w.oweRec q r).struct = w.struct ∧ (w.oweRec q r).dev = w.dev ∧
    (w.oweRec q r).parts = w.parts ∧ (w.oweRec q r).tags = w.tags ∧ (w.oweRec q r).descs = w.descs ∧
    (w.oweRec q r).flights = w.flights ∧ (w.oweRec q r).faces = w.faces ∧ (w.oweRec q r).gals = w.gals ∧
    (w.oweRec q r).ports = w.ports ∧ (w.oweRec q r).fab = w.fab ∧ (w.oweRec q r).txns = w.txns ∧
    (w.oweRec q r).rings = w.rings ∧ (w.oweRec q r).collIn = w.collIn ∧ (w.oweRec q r).grants = w.grants ∧
    (w.oweRec q r).books = w.books ∧ (w.oweRec q r).host = w.host ∧ (w.oweRec q r).boot = w.boot ∧
    (w.oweRec q r).flash = w.flash ∧ (w.oweRec q r).pwr = w.pwr ∧ (w.oweRec q r).out = w.out ∧ (w.oweRec q r).mem = w.mem ∧
    (w.oweRec q r).ms.scrambled = w.ms.scrambled ∧ (w.oweRec q r).ms.mapped = w.ms.mapped ∧
    (w.oweRec q r).ms.repairEn = w.ms.repairEn := by
  have h := w.oweRec_memFrame q r
  revert h
  generalize w.oweRec q r = v
  intro h
  exact ⟨(congrArg (·.clk) h :), (congrArg (·.bell) h :), (congrArg (·.struct) h :), (congrArg (·.dev) h :), (congrArg (·.parts) h :), (congrArg (·.tags) h :), (congrArg (·.descs) h :), (congrArg (·.flights) h :), (congrArg (·.faces) h :), (congrArg (·.gals) h :), (congrArg (·.ports) h :), (congrArg (·.fab) h :), (congrArg (·.txns) h :), (congrArg (·.rings) h :), (congrArg (·.collIn) h :), (congrArg (·.grants) h :), (congrArg (·.books) h :), (congrArg (·.host) h :), (congrArg (·.boot) h :), (congrArg (·.flash) h :), (congrArg (·.pwr) h :), (congrArg (·.out) h :), (congrArg (·.mem) h :), (congrArg (·.ms.scrambled) h :), (congrArg (·.ms.mapped) h :), (congrArg (·.ms.repairEn) h :)⟩
@[simp] theorem Work.ctxState_fields (w : Work) (q : Nat) (st : CState) :
    (w.ctxState q st).clk = w.clk ∧ (w.ctxState q st).bell = w.bell ∧ (w.ctxState q st).struct = w.struct ∧
    (w.ctxState q st).dev = w.dev ∧ (w.ctxState q st).parts = w.parts ∧ (w.ctxState q st).tags = w.tags ∧
    (w.ctxState q st).descs = w.descs ∧ (w.ctxState q st).flights = w.flights ∧ (w.ctxState q st).faces = w.faces ∧
    (w.ctxState q st).gals = w.gals ∧ (w.ctxState q st).ports = w.ports ∧ (w.ctxState q st).fab = w.fab ∧
    (w.ctxState q st).txns = w.txns ∧ (w.ctxState q st).rings = w.rings ∧ (w.ctxState q st).collIn = w.collIn ∧
    (w.ctxState q st).grants = w.grants ∧ (w.ctxState q st).books = w.books ∧ (w.ctxState q st).host = w.host ∧
    (w.ctxState q st).boot = w.boot ∧ (w.ctxState q st).flash = w.flash ∧ (w.ctxState q st).pwr = w.pwr ∧
    (w.ctxState q st).out = w.out ∧ (w.ctxState q st).mem = w.mem ∧ (w.ctxState q st).ms.scrambled = w.ms.scrambled ∧
    (w.ctxState q st).ms.mapped = w.ms.mapped ∧ (w.ctxState q st).ms.repairEn = w.ms.repairEn := by
  have h := w.ctxState_memFrame q st
  revert h
  generalize w.ctxState q st = v
  intro h
  exact ⟨(congrArg (·.clk) h :), (congrArg (·.bell) h :), (congrArg (·.struct) h :), (congrArg (·.dev) h :), (congrArg (·.parts) h :), (congrArg (·.tags) h :), (congrArg (·.descs) h :), (congrArg (·.flights) h :), (congrArg (·.faces) h :), (congrArg (·.gals) h :), (congrArg (·.ports) h :), (congrArg (·.fab) h :), (congrArg (·.txns) h :), (congrArg (·.rings) h :), (congrArg (·.collIn) h :), (congrArg (·.grants) h :), (congrArg (·.books) h :), (congrArg (·.host) h :), (congrArg (·.boot) h :), (congrArg (·.flash) h :), (congrArg (·.pwr) h :), (congrArg (·.out) h :), (congrArg (·.mem) h :), (congrArg (·.ms.scrambled) h :), (congrArg (·.ms.mapped) h :), (congrArg (·.ms.repairEn) h :)⟩
@[simp] theorem Work.dropMark_fields (w : Work) (p op : Nat) (s : W32) :
    (w.dropMark p op s).clk = w.clk ∧ (w.dropMark p op s).bell = w.bell ∧ (w.dropMark p op s).ms = w.ms ∧
    (w.dropMark p op s).struct = w.struct ∧ (w.dropMark p op s).ctxs = w.ctxs ∧ (w.dropMark p op s).tags = w.tags ∧
    (w.dropMark p op s).descs = w.descs ∧ (w.dropMark p op s).flights = w.flights ∧ (w.dropMark p op s).faces = w.faces ∧
    (w.dropMark p op s).gals = w.gals ∧ (w.dropMark p op s).ports = w.ports ∧ (w.dropMark p op s).fab = w.fab ∧
    (w.dropMark p op s).txns = w.txns ∧ (w.dropMark p op s).rings = w.rings ∧ (w.dropMark p op s).collIn = w.collIn ∧
    (w.dropMark p op s).grants = w.grants ∧ (w.dropMark p op s).books = w.books ∧ (w.dropMark p op s).host = w.host ∧
    (w.dropMark p op s).boot = w.boot ∧ (w.dropMark p op s).flash = w.flash ∧ (w.dropMark p op s).pwr = w.pwr ∧
    (w.dropMark p op s).out = w.out ∧ (w.dropMark p op s).mem = w.mem ∧ (w.dropMark p op s).wr = w.wr := by
  have h := w.dropMark_partFrame p op s
  revert h
  generalize w.dropMark p op s = v
  intro h
  exact ⟨(congrArg (·.clk) h :), (congrArg (·.bell) h :), (congrArg (·.ms) h :), (congrArg (·.struct) h :), (congrArg (·.ctxs) h :), (congrArg (·.tags) h :), (congrArg (·.descs) h :), (congrArg (·.flights) h :), (congrArg (·.faces) h :), (congrArg (·.gals) h :), (congrArg (·.ports) h :), (congrArg (·.fab) h :), (congrArg (·.txns) h :), (congrArg (·.rings) h :), (congrArg (·.collIn) h :), (congrArg (·.grants) h :), (congrArg (·.books) h :), (congrArg (·.host) h :), (congrArg (·.boot) h :), (congrArg (·.flash) h :), (congrArg (·.pwr) h :), (congrArg (·.out) h :), (congrArg (·.mem) h :), (congrArg (·.wr) h :)⟩
@[simp] theorem Work.faultMarks_fields (w : Work) (q p op : Nat) (codes : List Nat) (s : W32) :
    (w.faultMarks q p op codes s).bell = w.bell ∧ (w.faultMarks q p op codes s).struct = w.struct ∧
    (w.faultMarks q p op codes s).descs = w.descs ∧ (w.faultMarks q p op codes s).fab = w.fab ∧
    (w.faultMarks q p op codes s).rings = w.rings ∧ (w.faultMarks q p op codes s).collIn = w.collIn ∧
    (w.faultMarks q p op codes s).grants = w.grants ∧ (w.faultMarks q p op codes s).books = w.books ∧
    (w.faultMarks q p op codes s).boot = w.boot ∧ (w.faultMarks q p op codes s).flash = w.flash ∧
    (w.faultMarks q p op codes s).pwr = w.pwr ∧ (w.faultMarks q p op codes s).mem = w.mem ∧
    (w.faultMarks q p op codes s).ms.scrambled = w.ms.scrambled ∧ (w.faultMarks q p op codes s).ms.mapped = w.ms.mapped ∧
    (w.faultMarks q p op codes s).ms.repairEn = w.ms.repairEn ∧ (w.faultMarks q p op codes s).clk.lease = w.clk.lease ∧
    (w.faultMarks q p op codes s).clk.bell = w.clk.bell ∧ (w.faultMarks q p op codes s).clk.cyc10 = w.clk.cyc10 ∧
    (w.faultMarks q p op codes s).clk.span = w.clk.span := by
  have h := w.faultMarks_frame q p op codes s
  revert h
  generalize w.faultMarks q p op codes s = v
  intro h
  exact ⟨(congrArg (·.bell) h :), (congrArg (·.struct) h :), (congrArg (·.descs) h :), (congrArg (·.fab) h :), (congrArg (·.rings) h :), (congrArg (·.collIn) h :), (congrArg (·.grants) h :), (congrArg (·.books) h :), (congrArg (·.boot) h :), (congrArg (·.flash) h :), (congrArg (·.pwr) h :), (congrArg (·.mem) h :), (congrArg (·.ms.scrambled) h :), (congrArg (·.ms.mapped) h :), (congrArg (·.ms.repairEn) h :), (congrArg (·.clk.lease) h :), (congrArg (·.clk.bell) h :), (congrArg (·.clk.cyc10) h :), (congrArg (·.clk.span) h :)⟩
@[simp] theorem Work.faultFlight_fields (w : Work) (x : Flight) (code wm : Nat) :
    (w.faultFlight x code wm).bell = w.bell ∧ (w.faultFlight x code wm).struct = w.struct ∧
    (w.faultFlight x code wm).descs = w.descs ∧ (w.faultFlight x code wm).fab = w.fab ∧
    (w.faultFlight x code wm).rings = w.rings ∧ (w.faultFlight x code wm).collIn = w.collIn ∧
    (w.faultFlight x code wm).grants = w.grants ∧ (w.faultFlight x code wm).books = w.books ∧
    (w.faultFlight x code wm).boot = w.boot ∧ (w.faultFlight x code wm).flash = w.flash ∧
    (w.faultFlight x code wm).pwr = w.pwr ∧ (w.faultFlight x code wm).mem = w.mem ∧
    (w.faultFlight x code wm).ms.scrambled = w.ms.scrambled ∧ (w.faultFlight x code wm).ms.mapped = w.ms.mapped ∧
    (w.faultFlight x code wm).ms.repairEn = w.ms.repairEn ∧ (w.faultFlight x code wm).clk.lease = w.clk.lease ∧
    (w.faultFlight x code wm).clk.bell = w.clk.bell ∧ (w.faultFlight x code wm).clk.cyc10 = w.clk.cyc10 ∧
    (w.faultFlight x code wm).clk.span = w.clk.span := by
  have h := w.faultFlight_frame x code wm
  revert h
  generalize w.faultFlight x code wm = v
  intro h
  exact ⟨(congrArg (·.bell) h :), (congrArg (·.struct) h :), (congrArg (·.descs) h :), (congrArg (·.fab) h :), (congrArg (·.rings) h :), (congrArg (·.collIn) h :), (congrArg (·.grants) h :), (congrArg (·.books) h :), (congrArg (·.boot) h :), (congrArg (·.flash) h :), (congrArg (·.pwr) h :), (congrArg (·.mem) h :), (congrArg (·.ms.scrambled) h :), (congrArg (·.ms.mapped) h :), (congrArg (·.ms.repairEn) h :), (congrArg (·.clk.lease) h :), (congrArg (·.clk.bell) h :), (congrArg (·.clk.cyc10) h :), (congrArg (·.clk.span) h :)⟩
@[simp] theorem Work.runUnits_fields (w : Work) (x : Flight) (us : List URes) (total : Nat) (limit : Option (Nat × Nat)) (a b : Bool) :
    (w.runUnits x us total limit a b).bell = w.bell ∧ (w.runUnits x us total limit a b).struct = w.struct ∧
    (w.runUnits x us total limit a b).descs = w.descs ∧ (w.runUnits x us total limit a b).fab = w.fab ∧
    (w.runUnits x us total limit a b).rings = w.rings ∧ (w.runUnits x us total limit a b).collIn = w.collIn ∧
    (w.runUnits x us total limit a b).grants = w.grants ∧ (w.runUnits x us total limit a b).books = w.books ∧
    (w.runUnits x us total limit a b).boot = w.boot ∧ (w.runUnits x us total limit a b).flash = w.flash ∧
    (w.runUnits x us total limit a b).pwr = w.pwr ∧ (w.runUnits x us total limit a b).mem = w.mem ∧
    (w.runUnits x us total limit a b).ms.scrambled = w.ms.scrambled ∧
    (w.runUnits x us total limit a b).ms.mapped = w.ms.mapped ∧ (w.runUnits x us total limit a b).ms.repairEn = w.ms.repairEn ∧
    (w.runUnits x us total limit a b).clk.lease = w.clk.lease ∧ (w.runUnits x us total limit a b).clk.bell = w.clk.bell ∧
    (w.runUnits x us total limit a b).clk.cyc10 = w.clk.cyc10 ∧
    (w.runUnits x us total limit a b).clk.span = w.clk.span := by
  have h := w.runUnits_frame x us total limit a b
  revert h
  generalize w.runUnits x us total limit a b = v
  intro h
  exact ⟨(congrArg (·.bell) h :), (congrArg (·.struct) h :), (congrArg (·.descs) h :), (congrArg (·.fab) h :), (congrArg (·.rings) h :), (congrArg (·.collIn) h :), (congrArg (·.grants) h :), (congrArg (·.books) h :), (congrArg (·.boot) h :), (congrArg (·.flash) h :), (congrArg (·.pwr) h :), (congrArg (·.mem) h :), (congrArg (·.ms.scrambled) h :), (congrArg (·.ms.mapped) h :), (congrArg (·.ms.repairEn) h :), (congrArg (·.clk.lease) h :), (congrArg (·.clk.bell) h :), (congrArg (·.clk.cyc10) h :), (congrArg (·.clk.span) h :)⟩

end Sys2Proof.Machine
end

