-- ==== Sys2Proof/Laws/PerInstr.lean ====
section
/-! SUPPORT. Statements about every command, one lemma per constructor. -/

namespace Sys2Proof.Laws.UnitsExist

/-- A well-formed command names units that exist. -/
def Statement (i : Instr) : Prop := i.wf = true → i.unitsExist = true

/-- The first of two checks. -/
theorem left {a b : Bool} (h : (a && b) = true) : a = true := by
  cases a
  · exact h
  · rfl

theorem nop (q : Nat) : Statement (.nop q) :=
  fun h => h
theorem fence (q : Nat) : Statement (.fence q) :=
  fun h => h
theorem branchIf (q : Nat) : Statement (.branchIf q) :=
  fun h => h
theorem call (q : Nat) : Statement (.call q) :=
  fun h => h
theorem ret (q : Nat) : Statement (.ret q) :=
  fun h => h
theorem waitBell (q : Nat) : Statement (.waitBell q) :=
  fun h => h
theorem bounds (q : Nat) : Statement (.bounds q) :=
  fun h => h
theorem shift (q : Nat) : Statement (.shift q) :=
  fun h => h
theorem tagSignal (q : Nat) : Statement (.tagSignal q) :=
  fun h => h
theorem tagWait (q : Nat) : Statement (.tagWait q) :=
  fun h => h
theorem tagSet (q : Nat) : Statement (.tagSet q) :=
  fun h => h
theorem tagRemote (q : Nat) : Statement (.tagRemote q) :=
  fun h => h
theorem load (q : Nat) : Statement (.load q) :=
  fun h => h
theorem store (q : Nat) : Statement (.store q) :=
  fun h => h
theorem prefetch (q : Nat) : Statement (.prefetch q) :=
  fun h => h
theorem copy (q : Nat) : Statement (.copy q) :=
  fun h => h
theorem tileMm (f u : Nat) (parity : Option Nat) : Statement (.tileMm f u parity) :=
  fun h => h
theorem tileMv (f u : Nat) (parity : Option Nat) : Statement (.tileMv f u parity) :=
  fun h => h
theorem tileSp (f u : Nat) (parity : Option Nat) : Statement (.tileSp f u parity) :=
  fun h => h
theorem maskReg (f u : Nat) (parity : Option Nat) : Statement (.maskReg f u parity) :=
  fun h => h
theorem gather (f u : Nat) (parity : Option Nat) : Statement (.gather f u parity) :=
  fun h => h
theorem merge (f u : Nat) (parity : Option Nat) : Statement (.merge f u parity) :=
  fun h => h
theorem segsort (f u : Nat) (parity : Option Nat) : Statement (.segsort f u parity) :=
  fun h => h
theorem vecOp (f u : Nat) (parity : Option Nat) : Statement (.vecOp f u parity) :=
  fun h => h
theorem rowNorm (f u : Nat) (parity : Option Nat) : Statement (.rowNorm f u parity) :=
  fun h => h
theorem rowSoftmax (f u : Nat) (parity : Option Nat) : Statement (.rowSoftmax f u parity) :=
  fun h => h
theorem rowLoss (f u : Nat) (parity : Option Nat) : Statement (.rowLoss f u parity) :=
  fun h => h
theorem optStep (f u : Nat) (parity : Option Nat) : Statement (.optStep f u parity) :=
  fun h => h
theorem route (g : Nat) : Statement (.route g) :=
  fun h => h
theorem census (g : Nat) : Statement (.census g) :=
  fun h => h
theorem grantWait (q : Nat) : Statement (.grantWait q) :=
  fun h => h
theorem amaxRound (f u : Nat) : Statement (.amaxRound f u) :=
  fun h => h
theorem collBucket (f u : Nat) : Statement (.collBucket f u) :=
  fun h => h
theorem kvPass (f u : Nat) : Statement (.kvPass f u) :=
  fun h => h
theorem descCreate (q : Nat) : Statement (.descCreate q) :=
  fun h => h
theorem descDrop (q : Nat) : Statement (.descDrop q) :=
  fun h => h
theorem secure (f : Nat) : Statement (.secure f) :=
  fun h => h
theorem digest (f : Nat) : Statement (.digest f) :=
  fun h => h
theorem commandFetch (f : Nat) : Statement (.commandFetch f) :=
  fun h => h
theorem commandIssue (f : Nat) (again : Bool) : Statement (.commandIssue f again) :=
  fun h => h
theorem engineDispatch (f : Nat) (c : Cls) : Statement (.engineDispatch f c) :=
  fun h => h
theorem commandRetire (q id : Nat) : Statement (.commandRetire q id) :=
  fun h => h
theorem deadlineTest (q id units : Nat) : Statement (.deadlineTest q id units) :=
  fun h => h
theorem overrunTallyRecord (q : Nat) : Statement (.overrunTallyRecord q) :=
  fun h => h
theorem devDoorbell (q tail : Nat) : Statement (.devDoorbell q tail) :=
  fun h => left h
theorem devTallyAck (q consumed : Nat) : Statement (.devTallyAck q consumed) :=
  fun h => left h
theorem arm (q : Nat) : Statement (.arm q) :=
  fun h => h
theorem stop (q : Nat) : Statement (.stop q) :=
  fun h => h
theorem resumeRetry (q : Nat) : Statement (.resumeRetry q) :=
  fun h => h
theorem resumeSkip (q : Nat) : Statement (.resumeSkip q) :=
  fun h => h
theorem disarm (q : Nat) : Statement (.disarm q) :=
  fun h => h
theorem stoppingDrained (q : Nat) : Statement (.stoppingDrained q) :=
  fun h => h
theorem devTagSignal (tag value : Nat) : Statement (.devTagSignal tag value) :=
  fun h => left h
theorem faceReset (f : Nat) : Statement (.faceReset f) :=
  fun h => h
theorem galleryReset (g : Nat) : Statement (.galleryReset g) :=
  fun h => h
theorem partitionReset (p : Nat) : Statement (.partitionReset p) :=
  fun h => h
theorem warmReset : Statement (.warmReset) :=
  fun _ => rfl
theorem coldReset : Statement (.coldReset) :=
  fun _ => rfl
theorem resetComplete : Statement (.resetComplete) :=
  fun _ => rfl
theorem shiftMark (p : Nat) : Statement (.shiftMark p) :=
  fun h => h
theorem auditComplete (p : Nat) : Statement (.auditComplete p) :=
  fun h => h
theorem collectivePhase (p ring phase : Nat) : Statement (.collectivePhase p ring phase) :=
  fun h => left (left h)
theorem pointsPreIdle (p port : Nat) : Statement (.pointsPreIdle p port) :=
  fun h => h
theorem pointsSwitch (p port : Nat) : Statement (.pointsSwitch p port) :=
  fun h => h
theorem hostDeadline (p layer : Nat) : Statement (.hostDeadline p layer) :=
  fun h => left h
theorem grantDeadlineTest (p layer : Nat) : Statement (.grantDeadlineTest p layer) :=
  fun h => left h
theorem grantInstall (p layer shift : Nat) : Statement (.grantInstall p layer shift) :=
  fun h => left (left h)
theorem reconfigBoundary (p : Nat) : Statement (.reconfigBoundary p) :=
  fun h => h
theorem secureWindowOpen (p : Nat) : Statement (.secureWindowOpen p) :=
  fun h => h
theorem secureWindowClose (p : Nat) : Statement (.secureWindowClose p) :=
  fun h => h
theorem heartbeatSend : Statement (.heartbeatSend) :=
  fun _ => rfl
theorem heartbeatLoss (n : Nat) : Statement (.heartbeatLoss n) :=
  fun h => h
theorem lossOfLight (n : Nat) : Statement (.lossOfLight n) :=
  fun h => h
theorem seekLightDetect (n : Nat) : Statement (.seekLightDetect n) :=
  fun h => h
theorem trainComplete (n : Nat) : Statement (.trainComplete n) :=
  fun h => h
theorem trainingRecordReceive (n : Nat) (r : TrainRec) : Statement (.trainingRecordReceive n r) :=
  fun h => left h
theorem trainingTimeout (n : Nat) : Statement (.trainingTimeout n) :=
  fun h => h
theorem pointsRetrainTimeout (n : Nat) : Statement (.pointsRetrainTimeout n) :=
  fun h => h
theorem faultedTimeout (n : Nat) : Statement (.faultedTimeout n) :=
  fun h => h
theorem retrain (n value : Nat) : Statement (.retrain n value) :=
  fun h => left h
theorem fabLostClear (word value : Nat) : Statement (.fabLostClear word value) :=
  fun h => left h
theorem writeTransactionReceive (n : Nat) (l : LinkIn) (t : WriteTxn) : Statement (.writeTransactionReceive n l t) :=
  fun h => left (left (left (left h)))
theorem readRequestReceive (n : Nat) (l : LinkIn) (src part txn vc addr len : Nat) : Statement (.readRequestReceive n l src part txn vc addr len) :=
  fun h => left (left (left (left (left (left h)))))
theorem readResponseReceive (n : Nat) (l : LinkIn) (src txn vc : Nat) (data : List Nat) : Statement (.readResponseReceive n l src txn vc data) :=
  fun h => left (left (left (left h)))
theorem ackReceive (n : Nat) (l : LinkIn) (src txn : Nat) : Statement (.ackReceive n l src txn) :=
  fun h => left (left h)
theorem nakReceive (n : Nat) (l : LinkIn) (src txn : Nat) (why : NakReason) : Statement (.nakReceive n l src txn why) :=
  fun h => left (left h)
theorem tagSignalReceive (n : Nat) (l : LinkIn) (src part txn tag value : Nat) : Statement (.tagSignalReceive n l src part txn tag value) :=
  fun h => left (left (left (left (left h))))
theorem heartbeatReceive (n : Nat) (l : LinkIn) (h : Heartbeat) : Statement (.heartbeatReceive n l h) :=
  fun h => left (left (left h))
theorem lossNoticeReceive (n : Nat) (l : LinkIn) (lost tLoss declarer : Nat) : Statement (.lossNoticeReceive n l lost tLoss declarer) :=
  fun h => left (left (left h))
theorem badFlitReceive (n uncorr : Nat) : Statement (.badFlitReceive n uncorr) :=
  fun h => h
theorem flitForward (n : Nat) (l : LinkIn) (fl : TransitFlit) : Statement (.flitForward n l fl) :=
  fun h => left (left (left (left h)))
theorem transitCreditTimeout (n : Nat) : Statement (.transitCreditTimeout n) :=
  fun h => h
theorem settlementTimeout (txn : Nat) : Statement (.settlementTimeout txn) :=
  fun _ => rfl
theorem collectiveFlitReceive (n : Nat) (l : LinkIn) (fl : CollFlit) : Statement (.collectiveFlitReceive n l fl) :=
  fun h => left (left (left (left (left (left h)))))
theorem closeFlitReceive (n : Nat) (l : LinkIn) (part ring seq count : Nat) : Statement (.closeFlitReceive n l part ring seq count) :=
  fun h => left (left (left h))
theorem resolveFlitReceive (n : Nat) (l : LinkIn) (part ring pass qmin : Nat) : Statement (.resolveFlitReceive n l part ring pass qmin) :=
  fun h => left (left (left h))
theorem kvReadyReceive (n : Nat) (l : LinkIn) (part ring seq step : Nat) : Statement (.kvReadyReceive n l part ring seq step) :=
  fun h => left (left (left h))
theorem collectiveIdleTimeout (q id : Nat) : Statement (.collectiveIdleTimeout q id) :=
  fun h => h
theorem ptpMessage (port domain : Nat) (ipv6 locked : Bool) (ptpNs offset : Nat) : Statement (.ptpMessage port domain ipv6 locked ptpNs offset) :=
  fun h => left (left (left h))
theorem freerunTimeout : Statement (.freerunTimeout) :=
  fun _ => rfl
theorem masterTimeout : Statement (.masterTimeout) :=
  fun _ => rfl
theorem upstreamReselectTimeout : Statement (.upstreamReselectTimeout) :=
  fun _ => rfl
theorem holdoverTimeout : Statement (.holdoverTimeout) :=
  fun _ => rfl
theorem canaryEvaluation : Statement (.canaryEvaluation) :=
  fun _ => rfl
theorem stopeRampStep (f a : Nat) : Statement (.stopeRampStep f a) :=
  fun h => h
theorem stopeIdleTimeout (f a : Nat) : Statement (.stopeIdleTimeout f a) :=
  fun h => h
theorem stopeWindStep (f a : Nat) : Statement (.stopeWindStep f a) :=
  fun h => h
theorem faceStopeCtrl (f value : Nat) : Statement (.faceStopeCtrl f value) :=
  fun h => left h
theorem regulatorRefill : Statement (.regulatorRefill) :=
  fun _ => rfl
theorem scrubRead (pc : Nat) (ecc : EccResult) (raced : Bool) : Statement (.scrubRead pc ecc raced) :=
  fun h => h
theorem save : Statement (.save) :=
  fun _ => rfl
theorem healthSaveComplete : Statement (.healthSaveComplete) :=
  fun _ => rfl
theorem memRepairCtrl (value : Nat) : Statement (.memRepairCtrl value) :=
  fun _ => rfl
theorem memRepairCmd (value : Nat) : Statement (.memRepairCmd value) :=
  fun _ => rfl
theorem devPartQuiesce (value : Nat) : Statement (.devPartQuiesce value) :=
  fun _ => rfl
theorem quiesceComplete (p : Nat) : Statement (.quiesceComplete p) :=
  fun h => h
theorem commit : Statement (.commit) :=
  fun _ => rfl
theorem discard : Statement (.discard) :=
  fun _ => rfl
theorem validationComplete : Statement (.validationComplete) :=
  fun _ => rfl
theorem applyComplete : Statement (.applyComplete) :=
  fun _ => rfl
theorem devGrantArea (p value : Nat) : Statement (.devGrantArea p value) :=
  fun h => left h
theorem devRatioArea (p value : Nat) : Statement (.devRatioArea p value) :=
  fun h => left h
theorem devRosterArea (p value : Nat) : Statement (.devRosterArea p value) :=
  fun h => left h
theorem registerWrite (addr value : Nat) : Statement (.registerWrite addr value) :=
  fun _ => rfl
theorem spdm (h : Hdr) (m : SpdmMsg) : Statement (.spdm h m) :=
  fun _ => rfl
theorem secured (outer : Hdr) (spdm : Nat) (macOk : Bool) (h : Hdr) (r : Req) : Statement (.secured outer spdm macOk h r) :=
  fun _ => rfl
theorem sessionOpen (h : Hdr) (mode leaseLog2 rsv : Nat) (label : List Nat) : Statement (.sessionOpen h mode leaseLog2 rsv label) :=
  fun _ => rfl
theorem leaseRenew (h : Hdr) : Statement (.leaseRenew h) :=
  fun _ => rfl
theorem sessionClose (h : Hdr) : Statement (.sessionClose h) :=
  fun _ => rfl
theorem custodyClaim (h : Hdr) : Statement (.custodyClaim h) :=
  fun _ => rfl
theorem regRead (h : Hdr) (addrs : List Nat) : Statement (.regRead h addrs) :=
  fun _ => rfl
theorem regWrite (h : Hdr) (pairs : List (Nat × Nat)) : Statement (.regWrite h pairs) :=
  fun _ => rfl
theorem memRead (h : Hdr) (addr len rsv : Nat) : Statement (.memRead h addr len rsv) :=
  fun _ => rfl
theorem memWrite (h : Hdr) (addr : Nat) (data : List Nat) : Statement (.memWrite h addr data) :=
  fun _ => rfl
theorem doorbell (h : Hdr) (entries : List (Nat × Nat × Nat)) : Statement (.doorbell h entries) :=
  fun _ => rfl
theorem reset (h : Hdr) (scope index rsv : Nat) : Statement (.reset h scope index rsv) :=
  fun _ => rfl
theorem imageWrite (h : Hdr) (off rsv : Nat) (data : List Nat) : Statement (.imageWrite h off rsv data) :=
  fun _ => rfl
theorem grant (h : Hdr) (part layer rsv : Nat) (body : List Nat) : Statement (.grant h part layer rsv body) :=
  fun _ => rfl
theorem eventAck (h : Hdr) (upTo : Nat) : Statement (.eventAck h upTo) :=
  fun _ => rfl
theorem telemetrySet (h : Hdr) (periodLog2 rsv : Nat) (addrs : List Nat) : Statement (.telemetrySet h periodLog2 rsv addrs) :=
  fun _ => rfl
theorem windowOpen (h : Hdr) (w : WindowReq) : Statement (.windowOpen h w) :=
  fun _ => rfl
theorem windowClose (h : Hdr) (w rsv : Nat) : Statement (.windowClose h w rsv) :=
  fun _ => rfl
theorem addrSet (h : Hdr) (body : List Nat) : Statement (.addrSet h body) :=
  fun _ => rfl
theorem telemetry (session : Nat) : Statement (.telemetry session) :=
  fun _ => rfl
theorem eventResend (session : Nat) : Statement (.eventResend session) :=
  fun _ => rfl
theorem leaseExpiry (session : Nat) : Statement (.leaseExpiry session) :=
  fun _ => rfl
theorem fragmentTimeout (session seq : Nat) : Statement (.fragmentTimeout session seq) :=
  fun _ => rfl
theorem reservationExpiry : Statement (.reservationExpiry) :=
  fun _ => rfl
theorem neighborPacket (port : Nat) (k : NeighborKind) : Statement (.neighborPacket port k) :=
  fun h => h
theorem rdmaWrite (port w rkey psn va : Nat) (data : List Nat) (imm : Bool) (ecn : Nat) : Statement (.rdmaWrite port w rkey psn va data imm ecn) :=
  fun h => left (left (left (left h)))
theorem rdmaRead (port w rkey psn va len ecn : Nat) : Statement (.rdmaRead port w rkey psn va len ecn) :=
  fun h => left (left (left (left h)))
theorem roceInvalidRequest (port w psn ecn : Nat) : Statement (.roceInvalidRequest port w psn ecn) :=
  fun h => left h
theorem cnpReceive (port w : Nat) : Statement (.cnpReceive port w) :=
  fun h => h
theorem roceRateRestore : Statement (.roceRateRestore) :=
  fun _ => rfl
theorem fwStage : Statement (.fwStage) :=
  fun _ => rfl
theorem fwCommit : Statement (.fwCommit) :=
  fun _ => rfl
theorem planSave : Statement (.planSave) :=
  fun _ => rfl
theorem planClear : Statement (.planClear) :=
  fun _ => rfl
theorem anchorAdd : Statement (.anchorAdd) :=
  fun _ => rfl
theorem anchorClear : Statement (.anchorClear) :=
  fun _ => rfl
theorem flashOpComplete : Statement (.flashOpComplete) :=
  fun _ => rfl
theorem romSelfTestComplete (pair0 pair1 : Bool) : Statement (.romSelfTestComplete pair0 pair1) :=
  fun _ => rfl
theorem identityComplete (ok : Bool) : Statement (.identityComplete ok) :=
  fun _ => rfl
theorem hfVerifyComplete (badRead : Nat) : Statement (.hfVerifyComplete badRead) :=
  fun _ => rfl
theorem hfStartComplete (badRead : Nat) (fails : List TrainFail) : Statement (.hfStartComplete badRead fails) :=
  fun _ => rfl
theorem planLoadComplete : Statement (.planLoadComplete) :=
  fun _ => rfl
theorem vinRise (straps : Nat) : Statement (.vinRise straps) :=
  fun _ => rfl
theorem vinLow : Statement (.vinLow) :=
  fun _ => rfl
theorem undervoltageTrip : Statement (.undervoltageTrip) :=
  fun _ => rfl
theorem overcurrentTrip : Statement (.overcurrentTrip) :=
  fun _ => rfl
theorem vinRemove : Statement (.vinRemove) :=
  fun _ => rfl
theorem resetNAssert : Statement (.resetNAssert) :=
  fun _ => rfl
theorem resetNRelease : Statement (.resetNRelease) :=
  fun _ => rfl
theorem refclkLoss : Statement (.refclkLoss) :=
  fun _ => rfl
theorem refclkRecover : Statement (.refclkRecover) :=
  fun _ => rfl
theorem brakeNAssert : Statement (.brakeNAssert) :=
  fun _ => rfl
theorem brakeNRelease : Statement (.brakeNRelease) :=
  fun _ => rfl
theorem governorSample (pinW vinMv iin10ma : Nat) : Statement (.governorSample pinW vinMv iin10ma) :=
  fun _ => rfl
theorem thermalLevelRise (t : Temps) : Statement (.thermalLevelRise t) :=
  fun _ => rfl
theorem thermalLevelFall (t : Temps) : Statement (.thermalLevelFall t) :=
  fun _ => rfl
theorem inletHigh : Statement (.inletHigh) :=
  fun _ => rfl
theorem smbusReadStatus : Statement (.smbusReadStatus) :=
  fun _ => rfl
theorem smbusReadInput : Statement (.smbusReadInput) :=
  fun _ => rfl
theorem smbusReadTemp : Statement (.smbusReadTemp) :=
  fun _ => rfl
theorem smbusReadId : Statement (.smbusReadId) :=
  fun _ => rfl
theorem smbusWrite (cmd : Nat) : Statement (.smbusWrite cmd) :=
  fun _ => rfl
theorem idleFlitReceive (n : Nat) (l : LinkIn) (replay : Bool) (corrected : Nat) : Statement (.idleFlitReceive n l replay corrected) :=
  fun h => left h
theorem ptpLockLoss : Statement (.ptpLockLoss) :=
  fun _ => rfl
theorem spdmHeartbeatTimeout (spdm : Nat) : Statement (.spdmHeartbeatTimeout spdm) :=
  fun _ => rfl
theorem hostLinkChange (port : Nat) (up fec : Bool) (uncorr : Nat) : Statement (.hostLinkChange port up fec uncorr) :=
  fun h => h
theorem pfcFrameReceive (port prio : Nat) (pause : Bool) : Statement (.pfcFrameReceive port prio pause) :=
  fun h => left h
theorem reservedMessageType (h : Hdr) (type : Nat) : Statement (.reservedMessageType h type) :=
  fun _ => rfl
theorem hostPacketDiscard (port : Nat) (f : HostFrame) : Statement (.hostPacketDiscard port f) :=
  fun h => left (left h)
theorem memRepairData (write : Bool) (value : Nat) : Statement (.memRepairData write value) :=
  fun _ => rfl

end Sys2Proof.Laws.UnitsExist
end

