-- ==== Sys2Proof/Tests/Slice0.lean ====
section
/-! SUPPORT. The model's own tests: what WellFormed refuses, worked examples of the spec, and for every statement
with hypotheses a concrete state and operands that meet them. -/

namespace Sys2Proof.Tests

open Machine
set_option Elab.async false

/-! ## Small states -/

/-- A part in READY under the ROM default plan. -/
def base : State := { State.reset with boot := { st := .ready }, struct := { plan := romPlan } }

/-- An active context of face 0 with its rings in HBM. -/
def ctxA : Ctx := { st := .active, ringBase := 0x2000, ringLog2 := 6, tallyBase := 0x4000, tallyLog2 := 6 }

/-- An issued command of context 0 with the bytes given, at a phase. -/
def fl (l : List Nat) (cls : Cls) (ph : Phase) : Flight := { id := 1, cmd := leNat l, cls := cls, phase := ph }

/-- A part on which one command has issued. -/
def one (x : Flight) : State := { base with ctxs := [(0, ctxA)], flights := [x], dev := { nextFlight := 2 } }

/-- A created plain descriptor over the 16 KiB from `a`. -/
def plain (fmt a : Nat) (ext : List Nat) (str : List Int) : Desc :=
  ⟨.created, { version := 1, fmt := fmt, use := 3, rank := ext.length, base := a, allocBase := a / 256 * 256, allocLen := 64,
               ext := ext, str := str }⟩

/-- Face 0's store. -/
def F : Nat := Config.faceBase

/-- A part with descriptors 1, 2, … and one issued command. -/
def desk (l : List Desc) (x : Flight) : State := { one x with descs := (l.zipIdx).map (fun e => (e.2 + 1, e.1)) }

/-- Bell time counts, and reads `t`. -/
def at_ (s : State) (t : Nat) : State := { s with bell := { s.bell with st := .locked }, clk := { s.clk with bell := t } }

/-- The outcome is a next state. -/
def goesOn : Host.Outcome State Fault Refusal → Bool
  | .next _ => true
  | _ => false

/-- The next state, the state itself where there is none. -/
def nextOf (s : State) : Host.Outcome State Fault Refusal → State
  | .next t => t
  | _ => s

/-! ## Statements of the machine, the sequencer and the tags -/

theorem wit_stepRunsTheFrontCommand :
    let s : State := { base with pending := [.nop 0, .fence 1] }
    s.pending = .nop 0 :: [.fence 1] := by decide
theorem wit_idleStepTicks :
    let ahead : State := { base with bell := { st := .locked, frac := 1000000 } }
    let late : State := { base with bell := { st := .locked, frac := -1000000 } }
    base.pending = [] ∧ ahead.pending = [] ∧ ahead.gains = true ∧ late.pending = [] ∧ late.loses = true
    ∧ (∀ e ∈ base.ports, e.2.st = .up → e.2.told = e.2.rxSeq ∧ ∀ k ∈ e.2.owed, k = 0)
    ∧ ¬ TripEnds base := by
  unfold TripEnds
  decide +kernel
theorem wit_nothingLeft : NothingLeft base ∧ NothingLeft { base with parts := [(0, {})] } :=
  ⟨.inr fun _ h => (List.not_mem_nil h).elim, .inr fun e h => by simp only [List.mem_singleton] at h; subst h; simp⟩
theorem wit_memoryCanonicalKept :
    let s : State := { base with mem := [(5, 7)] }
    s.memWf = true ∧ goesOn (step s) = true := by decide +kernel
theorem wit_queueKept :
    let s : State := { one (fl [0] .seq .wait) with pending := [.nop 1] }
    goesOn (exec (.nop 0) s) = true := by decide +kernel
theorem wit_unitsDecide : (Instr.nop 65535).wf = true ∧ (Instr.nop 65536).unitsExist = false := by decide +kernel

theorem wit_sequencerCommands :
    (let x := fl [0x00] .seq .wait; (one x).seqNext 0 0x00 = some x)
    ∧ (let x := fl [0x01] .seq .wait; (one x).seqNext 0 0x01 = some x ∧ ∀ y ∈ (one x).flights, y.q = 0 → x.id ≤ y.id)
    ∧ (let x := fl [0x01] .seq .wait
       let s : State := { one x with flights := [{ fl [0x20] .data .queued with id := 0 }, x] }
       s.seqNext 0 0x01 = some x ∧ ∃ y ∈ s.flights, y.q = 0 ∧ y.id < x.id)
    ∧ (let x := fl [0x05, 0, 0, 0, 9] .seq .wait
       let s := at_ (one x) 9
       s.seqNext 0 0x05 = some x ∧ s.bell.st.counts = true ∧ s.waitTick x ≤ s.clk.bell)
    ∧ (let x := fl [0x05, 0, 0, 0, 9] .seq .wait
       let s := at_ (one x) 8
       s.seqNext 0 0x05 = some x ∧ s.clk.bell < s.waitTick x)
    ∧ (let x := fl [0x07, 0, 0, 0, 3, 0, 0, 0, 1] .seq .wait; (one x).seqNext 0 0x07 = some x)
    ∧ (let x := fl [0x06] .seq .wait
       let s : State := { one x with ctxs := [(0, { ctxA with buf := [⟨0x10, 1, 0, 0⟩] })] }
       let b := withCtx s x.q (fun c => { c with bound := some (boundOf x.cmd) })
       let c := fl [0x06, 0, 0, 0, 0xFF, 0xFF, 0xFF, 0xFF, 3] .seq .wait
       let u := at_ { s with flights := [c] } 9
       let d := withCtx u c.q (fun k => { k with bound := some (boundOf c.cmd) })
       s.seqNext 0 0x06 = some x ∧ (s.ctx x.q).next? = some ⟨0x10, 1, 0, 0⟩ ∧ 0x10 ≤ opOf 0x10 ∧ b.boundPast x.q = false
         ∧ u.seqNext 0 0x06 = some c ∧ d.boundPast c.q = true)
    ∧ (let x := fl [0x06] .seq .wait
       let s : State := { one x with ctxs := [(0, { ctxA with buf := [⟨0x01, 1, 0, 0⟩] })] }
       ((one x).ctx x.q).next? = none ∧ s.seqNext 0 0x06 = some x ∧ (s.ctx x.q).next? = some ⟨0x01, 1, 0, 0⟩
         ∧ opOf 0x01 < 0x10) := by decide +kernel

/-- A plan with a shift mark of partition 0: phase 100, period 1000. -/
def marked : State := { base with struct := { plan := { romPlan with bell := [⟨100, 1, 0, 0, 1000⟩] } } }

theorem wit_currentShift :
    (marked.struct.plan.mark 0 = some (100, 1000) ∧ 100 ≤ (at_ marked 100).clk.bell)
    ∧ (at_ marked 99).clk.bell < 100 ∧ base.struct.plan.mark 0 = none := by decide +kernel

theorem wit_controlFlow :
    (let x := fl [0x03, 0, 0, 0, 0, 0x30] .seq .wait
     let s := one x
     s.seqNext 0 0x03 = some x ∧ (s.ctx 0).calls.length < 4 ∧ s.targetOk x.part (cb x.cmd 4 6) = true)
    ∧ (let x := fl [0x04] .seq .wait
       let s : State := { one x with ctxs := [(0, { ctxA with calls := [some 0x3010, none] })] }
       s.seqNext 0 0x04 = some x ∧ (s.ctx x.q).calls = some 0x3010 :: [none])
    ∧ (let x := fl [0x04] .seq .wait
       let s : State := { one x with ctxs := [(0, { ctxA with calls := [none] })] }
       s.seqNext 0 0x04 = some x ∧ (s.ctx x.q).calls = none :: [])
    ∧ (let x := fl [0x02, 0, 0, 0, 2] .seq .wait
       let s := one x
       s.seqNext 0 0x02 = some x ∧ branchTaken (s.ctx x.q) (cb x.cmd 4 1) = false)
    ∧ (let x := fl [0x02, 0, 0, 0, 0, 0, 0, 0, 5] .seq .wait
       let s := one x
       s.seqNext 0 0x02 = some x ∧ branchTaken (s.ctx x.q) (cb x.cmd 4 1) = true ∧ cb x.cmd 4 1 ≠ 1 ∧ cb x.cmd 5 1 ≠ 1
         ∧ (s.ctx x.q).calls = [] ∧ s32 (cb x.cmd 8 4) = (5 : Nat)) := by decide +kernel

theorem wit_branchForms :
    (let x := fl [0x02, 0, 0, 0, 1, 0, 0, 0, 5] .seq .wait
     let s : State := { one x with ctxs := [(0, { ctxA with satFlag := true })] }
     s.seqNext 0 0x02 = some x ∧ branchTaken (s.ctx x.q) (cb x.cmd 4 1) = true ∧ cb x.cmd 4 1 = 1 ∧ cb x.cmd 5 1 ≠ 1
       ∧ (s.ctx x.q).calls = [] ∧ s32 (cb x.cmd 8 4) = (5 : Nat))
    ∧ (let x := fl [0x02, 0, 0, 0, 0, 0, 0, 0, 0xFE, 0xFF, 0xFF, 0xFF] .seq .wait
       let s : State := { one x with ctxs := [(0, { ctxA with calls := [none] })] }
       s.seqNext 0 0x02 = some x ∧ branchTaken (s.ctx x.q) (cb x.cmd 4 1) = true ∧ cb x.cmd 4 1 ≠ 1 ∧ cb x.cmd 5 1 ≠ 1
         ∧ (s.ctx x.q).calls ≠ [] ∧ s32 (cb x.cmd 8 4) ≠ -1)
    ∧ (let x := fl [0x02, 0, 0, 0, 0, 1, 0, 0, 0, 0x30] .seq .wait
       let s := one x
       s.seqNext 0 0x02 = some x ∧ branchTaken (s.ctx x.q) (cb x.cmd 4 1) = true ∧ cb x.cmd 4 1 ≠ 1 ∧ cb x.cmd 5 1 = 1
         ∧ (s.ctx x.q).calls.length < 4 ∧ s.targetOk x.part (cb x.cmd 8 6) = true)
    ∧ (let x := fl [0x02, 0, 0, 0, 0, 0, 0, 0, 0xFF, 0xFF, 0xFF, 0xFF] .seq .wait
       let s := one x
       let c : State := { one x with ctxs := [(0, { ctxA with calls := [none] })] }
       branchTaken (s.ctx x.q) (cb x.cmd 4 1) = true ∧ cb x.cmd 5 1 ≠ 1 ∧ (s.ctx x.q).calls = [] ∧ s32 (cb x.cmd 8 4) < 0
         ∧ (c.ctx x.q).calls ≠ [] ∧ s32 (cb x.cmd 8 4) = -1) := by decide +kernel

theorem wit_tagSignals :
    (let x := fl [0x10, 0, 7, 0, 1] .tag .wait; (one x).seqNext 0 0x10 = some x)
    ∧ (let x := fl [0x12, 0, 7, 0, 1] .tag .wait; (one x).seqNext 0 0x12 = some x)
    ∧ (let x := fl [0x13, 0, 7, 0, 1, 0, 0, 0, 0, 0] .tag .wait
       let s := one x
       s.seqNext 0 0x13 = some x ∧ cb x.cmd 8 1 = s.ownPos ∧ s.tagAcceptable (cb x.cmd 9 1) (tagOf x.cmd) = true
         ∧ x.fault = none ∧ ∀ y ∈ s.txns, y.owner ≠ x.id)
    ∧ (let x := fl [0x13, 0, 7, 0, 1, 0, 0, 0, 0, 3] .tag .wait
       let s := one x
       s.seqNext 0 0x13 = some x ∧ cb x.cmd 8 1 = s.ownPos ∧ s.tagAcceptable (cb x.cmd 9 1) (tagOf x.cmd) = false)
    ∧ (let x := fl [0x13, 0, 7, 0, 1, 0, 0, 0, 1, 0] .tag .wait
       let s := one x
       let u : State := { s with fab := { s.fab with routes := [(1, ⟨true, 0, 3⟩)] }, ports := [(3, { st := .up, role := 2 })] }
       let l : State := { u with fab := { u.fab with lost := 2 } }
       s.seqNext 0 0x13 = some x ∧ cb x.cmd 8 1 ≠ s.ownPos ∧ s.egress (cb x.cmd 8 1) = none
         ∧ u.seqNext 0 0x13 = some x ∧ (u.egress (cb x.cmd 8 1)).isSome = true ∧ u.isLost (cb x.cmd 8 1) = false
         ∧ l.seqNext 0 0x13 = some x ∧ (l.egress (cb x.cmd 8 1)).isSome = true ∧ l.isLost (cb x.cmd 8 1) = true) := by
  decide +kernel

theorem wit_devTagSignalWrite :
    (base.struct.plan.partOfTag 32767).isSome = true ∧ State.reset.struct.plan.partOfTag 0 = none := by decide +kernel

theorem wit_tagWaitCommand :
    (let x := fl [0x11, 0, 7, 0, 0, 0, 0, 0x80] .tag .wait
     let s : State := { one x with tags := [(7, 0xFFFFFFFF)] }
     s.seqNext 0 0x11 = some x ∧ (s.tag (tagOf x.cmd) - BitVec.ofNat 32 (cb x.cmd 4 4)).toNat = 2 ^ 31 - 1)
    ∧ (let x := fl [0x11, 0, 7, 0, 0, 0, 0, 0x80] .tag .wait
       let s := one x
       s.seqNext 0 0x11 = some x ∧ (s.tag (tagOf x.cmd) - BitVec.ofNat 32 (cb x.cmd 4 4)).toNat = 2 ^ 31 ∧ x.stamp = none)
    ∧ (let x := { fl [0x11, 0, 7, 0, 0, 0, 0, 0x80] .tag .wait with stamp := some 5 }
       (one x).seqNext 0 0x11 = some x ∧ x.stamp.isSome = true)
    ∧ (let y := fl [0x11, 0, 7, 0, 3] .tag .wait
       let s := one y
       opOf y.cmd = 0x11 ∧ y.phase = .wait ∧ tagOf y.cmd = 7 ∧ ((3 : W32) - BitVec.ofNat 32 (cb y.cmd 4 4)).toNat < 2 ^ 31
         ∧ (s.struct.plan.partOfTag 7).isSome = true ∧ (3 : W32) = s.tag 7 + BitVec.ofNat 32 3 ∧ s.tagAcceptable 0 7 = true)
    ∧ (let y := fl [0x11, 0, 7, 0, 3] .tag .wait
       let x := { fl [0x10, 0, 7, 0, 3] .tag .wait with id := 0 }
       let s : State := { one y with flights := [x, y] }
       y ∈ s.flights ∧ s.seqNext 0 0x10 = some x ∧ 7 = tagOf x.cmd ∧ (3 : W32) = s.tag 7 + BitVec.ofNat 32 (cb x.cmd 4 4))
    ∧ (let y := fl [0x11, 0, 7, 0, 3] .tag .wait
       let x := { fl [0x12, 0, 7, 0, 3] .tag .wait with id := 0 }
       let s : State := { one y with flights := [x, y] }
       y ∈ s.flights ∧ s.seqNext 0 0x12 = some x ∧ 7 = tagOf x.cmd ∧ (3 : W32) = BitVec.ofNat 32 (cb x.cmd 4 4))
    ∧ (let y := fl [0x11, 0, 7, 0, 3] .tag .wait
       let s : State := { one y with ports := [(3, { st := .up, role := 2 })] }
       (s.port 3).st = .up ∧ (s.port 3).inOrder 0 = true ∧ roleTakes (s.port 3).role 0 6 = true ∧ s.tagAcceptable 0 7 = true)
    ∧ (let y := fl [0x11, 0, 7, 0, 3] .tag .wait
       let x := { fl [0x13, 0, 7, 0, 3, 0, 0, 0, 0, 0] .tag .wait with id := 0 }
       let s : State := { one y with flights := [x, y] }
       y ∈ s.flights ∧ s.seqNext 0 0x13 = some x ∧ 7 = tagOf x.cmd ∧ cb x.cmd 8 1 = s.ownPos
         ∧ s.tagAcceptable (cb x.cmd 9 1) 7 = true ∧ (3 : W32) = s.tag 7 + BitVec.ofNat 32 (cb x.cmd 4 4))
    ∧ (let y := fl [0x11, 0, 7, 0, 1] .tag .wait
       let x := { fl [0x20, 0x02, 7, 0] .data .done with id := 0 }
       let s : State := { one y with flights := [x, y] }
       s.flights.find? (fun x => x.id = 0 ∧ x.q = 0) = some x ∧ s.mayRetire x = true ∧ s.endFault x = none
         ∧ fSig x.cmd = true ∧ 7 = tagOf x.cmd ∧ (1 : W32) = s.tag 7 + 1 ∧ y.id ≠ 0) := by decide +kernel

/-! ## Statements of the engines -/

/-- Units that all pass, and of which there is one. -/
def passing (us : List URes) : Bool := us.all (fun u => u.bad == 0 && u.needs == [] && !u.waits) && !us.isEmpty

theorem allPass_of_passing (us : List URes) (h : passing us = true) : AllPass us ∧ us ≠ [] := by
  simp only [passing, Bool.and_eq_true, List.all_eq_true, beq_iff_eq, Bool.not_eq_true', List.isEmpty_eq_false_iff] at h
  exact ⟨fun u hu => ⟨(h.1 u hu).1.1, (h.1 u hu).1.2, (h.1 u hu).2⟩, h.2⟩

/-- Two FP32 matrices of 4 × 2 in face 0's store. -/
def mats : List Desc := [plain 0 F [4, 2] [1, 4], plain 0 (F + 0x100) [4, 2] [1, 4]]

/-- A data movement from descriptor 1 to descriptor 2. -/
def mover (op : Nat) : Flight := fl [op, 0, 0, 0, 1, 0, 2, 0] .data (.running 0)

theorem wit_dataMovement :
    (let x := mover 0x20; (desk mats x).runningOf 0 0x20 = some x ∧ passing (moveUnits (desk mats x).begin_ x) = true)
    ∧ (let x := mover 0x21; (desk mats x).runningOf 0 0x21 = some x ∧ passing (moveUnits (desk mats x).begin_ x) = true)
    ∧ (let x := mover 0x22; (desk mats x).runningOf 0 0x22 = some x ∧ passing (moveUnits (desk mats x).begin_ x) = true)
    ∧ (let x := mover 0x23; (desk mats x).runningOf 0 0x23 = some x ∧ passing (moveUnits (desk mats x).begin_ x) = true) := by
  decide +kernel

/-- A descriptor of kind 1 whose second row lies at position 1. -/
def far : List Desc :=
  [⟨.created, { version := 1, kind := 1, use := 3, rank := 2, viewDim := 1, viewArg := 0, base := F, allocBase := F,
                allocLen := 64, ext := [4, 1], str := [1, 4] }⟩, plain 0 (F + 0x100) [4, 2] [1, 4]]

/-- A COPY from it, whose reads of position 1 are open. -/
def farCopy : Flight := { mover 0x23 with rosters := [(0, [0, 1])] }
/-- The plan with a ring of two members, of partition 0. -/
def ringed : Plan := { romPlan with rings := [⟨0, 0, 0, 0xFF, 2, 0, 1, 2⟩], dev := { shaftSize := 2 } }
def farState : State :=
  { desk far farCopy with
    struct := { plan := ringed }
    txns := [{ id := 5, kind := .read, dst := 1, owner := 1, addr := F, len := 16 }] }

theorem wit_moveWaits :
    (let us := moveUnits farState.begin_ farCopy
     farState.runningOf 0 0x23 = some farCopy ∧ (∀ u ∈ us, u.bad = 0) ∧ (us.flatMap (fun u => remoteReads u.needs)).eraseDups = []
       ∧ ∃ u ∈ us, u.waits = true)
    ∧ ∀ op ∈ [0x20, 0x21, 0x22, 0x23],
      let x := { mover op with rosters := [(0, [0, 1])] }
      let s : State := { desk far x with struct := { plan := ringed } }
      let us := moveUnits s.begin_ x
      s.runningOf 0 op = some x ∧ (∀ u ∈ us, u.bad = 0) ∧ (us.flatMap (fun u => remoteReads u.needs)).eraseDups ≠ [] := by
  decide +kernel

/-- A TILE_MM or TILE_MV of FP16 operands of 4 × 2 to an FP32 result of 2 × 2. -/
def tile (op hi : Nat) : Flight := fl [op, 0, 0, 0, 1, 0, 2, hi, 3, 0] .stope (.running 0)
def tileDescs (M : Nat) : List Desc :=
  [plain 1 F [4, M] [1, 4], plain 1 (F + 0x1000) [4, 2] [1, 4], plain 0 (F + 0x2000) [2, M] [1, 2]]
/-- Its array is on. -/
def hot (M : Nat) (x : Flight) : State :=
  { desk (tileDescs M) x with faces := [(0, { arrs := [{ pw := .on, groups := 8 }, {}, {}, {}] })] }

theorem wit_denseEngines :
    (let x := tile 0x30 0
     (hot 2 x).runningOn 0 0 0x30 = some x ∧ (((hot 2 x).face 0).arrs.getD 0 {}).pw = .on ∧ mmSplit x.cmd = false
       ∧ passing (mmUnits (hot 2 x).begin_ x) = true)
    ∧ (let x := tile 0x30 0
       (desk (tileDescs 2) x).runningOn 0 0 0x30 = some x ∧ (((desk (tileDescs 2) x).face 0).arrs.getD 0 {}).pw ≠ .on)
    ∧ (let x := tile 0x30 0x10
       let s := hot 33 x
       s.runningOn 0 0 0x30 = some x ∧ ((s.face 0).arrs.getD 0 {}).pw = .on ∧ mmSplit x.cmd = true
         ∧ (∀ h ∈ halfRows ((tileOf s.begin_ x).a.e 1), passing (tileUnits s.begin_ x (tileOf s.begin_ x) h.2.1 h.2.2) = true
           ∧ (tileUnits s.begin_ x (tileOf s.begin_ x) h.2.1 h.2.2).all (fun u => u.wr.all (fun o => o.pos.isNone)) = true)
         ∧ ∃ h ∈ halfRows ((tileOf s.begin_ x).a.e 1), h.1 = 1 % 2
           ∧ 1 / 2 < (tileUnits s.begin_ x (tileOf s.begin_ x) h.2.1 h.2.2).length)
    ∧ (let x := tile 0x30 0
       (mmUnits (hot 2 x).begin_ x).all (fun u => u.wr.all (fun o => o.pos.isNone)) = true ∧ 0 < (mmUnits (hot 2 x).begin_ x).length)
    ∧ (let x := tile 0x31 0
       (hot 2 x).runningOn 0 0 0x31 = some x ∧ passing (mvUnits (hot 2 x).begin_ x) = true
         ∧ (mvUnits (hot 2 x).begin_ x).all (fun u => u.wr.all (fun o => o.pos.isNone)) = true
         ∧ 0 < (mvUnits (hot 2 x).begin_ x).length ∧ ∀ y ∈ (hot 2 x).txns, y.owner ≠ x.id) := by
  decide +kernel

/-- The codes of a mask of 4 × 4, rows {0,1}, {0,1}, {2,3}, {2,3} (R230): 32, 32, 2, 2. -/
def codes : List Desc := [plain 8 F [6, 4] [1, 6], plain 8 (F + 0x100) [1, 4] [1, 1]]
def codeMem : Mem := [(F, 32), (F + 6, 32), (F + 12, 2), (F + 18, 2)]
def maskCmd (op : Nat) : Flight :=
  fl (if op = 2 then [0x41, 0, 0, 0, 0, 2] else [0x41, 0, 0, 0, 0, op, 1, 0, 2, 0, 4, 0, 0, 0, 3, 0]) .riffle (.running 0)
def maskState (x : Flight) : State := { desk codes x with mem := codeMem }
/-- The slot that it leaves. -/
def slot0 : MaskSlot := ⟨.registered, 4, 4, 0, (codes.getD 0 {}).img, (codes.getD 1 {}).img⟩
/-- A forward TILE_SP of one row through that mask. -/
def sparse : Flight := fl [0x40, 0, 0, 0, 3, 0, 4, 0, 5, 0] .riffle (.running 0)
def sparseState : State :=
  { desk (codes ++ [plain 1 (F + 0x200) [4, 1] [1, 4], plain 1 (F + 0x300) [2, 4] [1, 2], plain 0 (F + 0x400) [4, 1] [1, 4]]) sparse with
    mem := codeMem
    faces := [(0, { masks := [(0, slot0)] })] }

/-- Row tensors of FP32: 32 × 2, 32 × 2, and a vector of 2 words. -/
def rows2 : List Desc := [plain 0 F [32, 2] [1, 32], plain 0 (F + 0x200) [32, 2] [1, 32], plain 0 (F + 0x400) [2] [1]]
def tramCmd (op hi : Nat) (l : List Nat) : Flight := fl ([op, 0, 0, 0, 1, hi, 2, 0] ++ l) .tram (.running 0)

theorem wit_sparseAndTram :
    (sparseState.runningOn 0 0 0x40 = some sparse ∧ passing (tileSpUnits sparseState.begin_ sparse) = true)
    ∧ (let x := maskCmd 0
       let s := maskState x
       s.runningOn 0 0 0x41 = some x ∧ mrOp x.cmd ≠ 2 ∧ passing (registerUnits s.begin_ x) = true)
    ∧ (let x := maskCmd 2
       let s := maskState x
       s.runningOn 0 0 0x41 = some x ∧ mrOp x.cmd = 2 ∧ s.slotUsed x = false)
    ∧ (let x := maskCmd 2
       let s : State := { maskState x with flights := [{ sparse with id := 0, phase := .done }, x] }
       s.runningOn 0 0 0x41 = some x ∧ mrOp x.cmd = 2 ∧ s.slotUsed x = true)
    ∧ (let x := tramCmd 0x50 0 [3, 0]
       let s := desk rows2 x
       s.runningOn 0 0 0x50 = some x ∧ passing (gatherUnits s.begin_ x) = true)
    ∧ (let x := tramCmd 0x51 0 [3, 0]
       let s := desk rows2 x
       s.runningOn 0 0 0x51 = some x ∧ passing (mergePlan s.begin_ x).us = true)
    ∧ (let x := tramCmd 0x52 0 [2, 0, 0, 0]
       let s := desk rows2 x
       s.runningOn 0 0 0x52 = some x ∧ passing (segsortUnits s.begin_ x) = true) := by
  decide +kernel

/-- A VEC_OP that adds (op 1), an OPT_STEP of SGD with 4 elements, and the row commands. -/
def vecAdd : Flight := fl [0x60, 0, 0, 0, 3, 0, 1, 0, 2, 0, 0, 0, 0, 0, 1, 0] .vector (.running 0)
def vecs : List Desc :=
  [plain 0 F [4] [1], plain 0 (F + 0x100) [4] [1], plain 0 (F + 0x200) [4] [1], plain 0 (F + 0x300) [16] [1]]
def sgd : Flight := { fl [0x64, 0, 0, 0, 1, 0x10, 2, 0, 3, 0, 0, 0, 0, 0, 4, 0] .vector (.running 0) with cap := List.replicate 16 0 }
def rowCmd (op : Nat) (l : List Nat) : Flight := fl ([op, 0, 0, 0, 1, 0, 2, 0] ++ l) .row (.running 0)
def rows3 : List Desc :=
  [plain 0 F [4, 2] [1, 4], plain 0 (F + 0x200) [4, 2] [1, 4], plain 0 (F + 0x400) [4, 3] [1, 4]]

theorem wit_vectorAndRow :
    ((desk vecs vecAdd).runningOn 0 0 0x60 = some vecAdd ∧ passing (vecOpUnits (desk vecs vecAdd).begin_ vecAdd) = true)
    ∧ ((desk vecs sgd).runningOn 0 0 0x64 = some sgd ∧ passing (optParts (desk vecs sgd).begin_ sgd).2 = true)
    ∧ (let x := rowCmd 0x61 [3, 0]
       let s := desk rows3 x
       s.runningOn 0 0 0x61 = some x ∧ passing ((rowsOf s.begin_ x).map (·.u)) = true)
    ∧ (let x := rowCmd 0x62 []
       let s := desk rows3 x
       s.runningOn 0 0 0x62 = some x ∧ passing ((rowsOf s.begin_ x).map (·.u)) = true)
    ∧ (let x := fl [0x63, 0, 0, 0, 1, 0, 2, 0, 3, 0] .row (.running 0)
       let s := desk [plain 0 F [4, 2] [1, 4], plain 0 (F + 0x200) [2] [1], plain 0 (F + 0x400) [2] [1]] x
       s.runningOn 0 0 0x63 = some x ∧ passing ((rowsOf s.begin_ x).map (·.u)) = true) := by
  decide +kernel

/-- The image of a plain FP32 vector of 4 at the start of HBM's second page. -/
def image : List Nat :=
  [1, 0x30, 1, 0, 0xFF, 0, 0, 0] ++ leBytes 8 0x1000 ++ leBytes 8 0x1000 ++ leBytes 8 1 ++ leBytes 16 4 ++ leBytes 16 1
/-- A part with that image at 0x800. -/
def imaged (x : Flight) : State :=
  { one x with mem := (image.zipIdx.filter (fun e => decide (e.1 ≠ 0))).map (fun e => (0x800 + e.2, BitVec.ofNat 8 e.1)) }

theorem wit_descriptorCommands :
    (let x := { fl [0x90, 0, 0, 0, 9, 0, 0, 0, 0, 8] .desc (.running 0) with cap := [1] }
     let s := imaged x
     s.runningOf 0 0x90 = some x ∧ x.cap = [1] ∧ descIdx x.cmd < (s.struct.plan.bud x.part).descs ∧ cb x.cmd 8 6 % 64 = 0
       ∧ s.readCode x.part (cb x.cmd 8 6) 64 = 0
       ∧ descImageCode s.toBlk x.part (s.begin_.bytes (cb x.cmd 8 6) 64) = 0)
    ∧ (let x := fl [0x91, 0, 0, 0, 1, 0] .desc (.running 0)
       let s := desk mats x
       s.runningOf 0 0x91 = some x
         ∧ ∀ y ∈ s.flights, y.id < x.id → y.part = x.part → descIdx x.cmd ∉ s.descsOf y.part y.cmd)
    ∧ (let x := fl [0x91, 0, 0, 0, 1, 0] .desc (.running 0)
       let s : State := { desk mats x with flights := [{ mover 0x20 with id := 0 }, x] }
       s.runningOf 0 0x91 = some x
         ∧ ∃ y ∈ s.flights, y.id < x.id ∧ y.part = x.part ∧ descIdx x.cmd ∈ s.descsOf y.part y.cmd) := by
  decide +kernel

/-! ## Statements of expert routing -/

/-- Partition 0 with a grant area of one layer, a shift mark (phase 100, period 1000), and the deadlines of layer 0: the
census's 40 and the grant's 50 ticks after the mark. -/
def routed : State := { base with
  struct := { plan := { romPlan with bell := [⟨100, 1, 0, 0, 1000⟩, ⟨40, 4, 0, 0, 0⟩, ⟨50, 4, 0, 1, 0⟩] } }
  parts := [(0, { grantArea := { enable := true, base := 0x100000 } })] }
/-- A grant of 40 bytes for shift 0, which has come so far. -/
def grant0 (st : GrantStage) : Grant := { log := [{ stage := st, body := List.replicate 40 7 }] }

theorem wit_grantDeadline :
    (let s := at_ routed 151
     s.hostEvent 0 0 1 = some 50 ∧ s.lastShiftPast 0 50 1 = some 0 ∧ s.bell.st.counts = true ∧ s.inGrantArea 0 0 = true
       ∧ s.grantTested 0 0 (u32 0) = false ∧ (s.grantLog 0 0 (u32 0)).stage = .none ∧ s.struct.plan.defGrant 0 0 = none)
    ∧ (let s : State := { at_ routed 151 with grants := [(0, grant0 .accepted)] }
       s.lastShiftPast 0 50 1 = some 0 ∧ s.grantTested 0 0 (u32 0) = false ∧ (s.grantLog 0 0 (u32 0)).stage ≠ .none)
    ∧ (let s : State := { at_ routed 151 with
         struct := { plan := { routed.struct.plan with grants := [⟨0, 0, List.replicate 40 7⟩] } } }
       s.hostEvent 0 0 1 = some 50 ∧ s.lastShiftPast 0 50 1 = some 0 ∧ s.inGrantArea 0 0 = true
         ∧ s.grantTested 0 0 (u32 0) = false ∧ (s.grantLog 0 0 (u32 0)).stage = .none
         ∧ s.struct.plan.defGrant 0 0 = some (List.replicate 40 7)) := by decide +kernel

theorem wit_grantInstall :
    (let s : State := { routed with grants := [(0, grant0 .accepted)] }
     ((s.grant 0 0 0).nextWrite.map (·.shift)) = some 0 ∧ s.inGrantArea 0 0 = true ∧ s.ms.repairEn = false
       ∧ s.routing 0 0 (u32 (0 + 2 ^ 32 - 2)) = false)
    ∧ (let s : State := { routed with
         grants := [(0, grant0 .accepted)]
         flights := [{ fl [0x70] .skip .queued with shift := 0xFFFFFFFE }] }
       ((s.grant 0 0 0).nextWrite.map (·.shift)) = some 0 ∧ s.routing 0 0 (u32 (0 + 2 ^ 32 - 2)) = true) := by
  decide +kernel

theorem wit_grantWaitCommand :
    (let x := fl [0x72] .skip .wait
     let s : State := { one x with grants := [(0, { grant0 .decided with inArea := some 0 })] }
     s.waiting 0 0x72 = some x ∧ (s.grantLog x.part (cb x.cmd 4 1) x.shift.toNat).stage = .decided)
    ∧ (let x := fl [0x72] .skip .wait
       (one x).waiting 0 0x72 = some x ∧ ((one x).grantLog x.part (cb x.cmd 4 1) x.shift.toNat).stage ≠ .decided) := by
  decide +kernel

/-- A grant of the same parity two shifts on leaves the earlier one standing. -/
theorem test_laterGrantKeepsTheEarlier :
    let s : State := { routed with grants := [(0, { log := [{ shift := 2, stage := .accepted }, { stage := .accepted }] })] }
    (s.grant 0 0 2).nextWrite.map (·.shift) = some 0 ∧ (s.grantLog 0 0 2).stage = .accepted := by decide +kernel

/-- The event's row acts by itself, as a value. -/
def alone (s : State) (mine : BellRec → Bool) : Bool :=
  s.eventsNow.all (fun x => !mine x.1) || (s.eventsLeft.head?.any (fun x => mine x.1))

theorem actsAlone_of_alone (s : State) (mine : BellRec → Bool) (h : alone s mine = true) : ActsAlone s mine := by
  rcases Bool.or_eq_true_iff.mp h with h | h
  · exact .inl fun x hx => by simpa using List.all_eq_true.mp h x hx
  · cases hl : s.eventsLeft with
    | nil => simp [hl] at h
    | cons x l => exact .inr ⟨x, l, hl, by simpa [hl] using h⟩

theorem wit_censusDeadline :
    let y := { fl [0x71] .skip .queued with cap := [0, 1] }
    let s : State := { at_ routed 141 with flights := [y] }
    s.bell.st.counts = true ∧ alone s (fun e => e.kind == 4 && e.part == 0 && (e.arg0 == 0 && e.arg1 == 0)) = true
      ∧ alone (at_ routed 140) (fun e => e.kind == 4 && e.part == 0 && (e.arg0 == 0 && e.arg1 == 0)) = true
      ∧ (at_ routed 140).eventsNow ≠ [] ∧ y ∈ s.flights ∧ opOf y.cmd = 0x71 ∧ y.part = 0 ∧ y.phase ≠ .done ∧ (cfgOf y.cap).layer = 0
      ∧ s.censusLate 0 0 y.shift = true
      ∧ (let x := { y with phase := .done, wm := 1, stamp := some 141 }
         let u : State := { at_ routed 141 with flights := [x], ctxs := [(0, ctxA)] }
         u.flights.find? (fun x => x.id = 1 ∧ x.q = 0) = some x ∧ opOf x.cmd = 0x71 ∧ u.mayRetire x = true ∧ u.endFault x = none
           ∧ u.censusMissed x = true) := by decide +kernel

/-- A started ROUTE of one token on gallery 0's engine. -/
def routing1 (c : Coll) : Flight := { fl [0x70, 0, 0, 0, 1, 0, 2, 0, 3, 0] .skip (.running 0) with coll := c }

theorem wit_route :
    (let x := routing1 { started := true, sentBlock := true }
     let s : State := { one x with txns := [{ id := 9, owner := 1, st := .accepted }] }
     s.onSkip 0 0x70 = some x ∧ s.flight? x.id = some x ∧ x.coll.started = true ∧ x.coll.sentBlock = true ∧ x.fault = none
       ∧ ∀ t ∈ s.txns, t.owner = x.id → t.st = .accepted)
    ∧ (let x := routing1 { started := true }
       let s : State := { one x with txns := [{ id := 9, owner := 1 }] }
       s.onSkip 0 0x70 = some x ∧ s.flight? x.id = some x ∧ x.coll.started = true
         ∧ ∃ t ∈ s.txns, t.owner = x.id ∧ t.st = .opened)
    ∧ (let x := routing1 {}
       (one x).onSkip 0 0x70 = some x ∧ x.coll.started = false) := by decide +kernel

/-- A CENSUS of one token under hash routing of 2 experts, top 1 (R288). -/
def census1 : Flight :=
  { fl [0x71, 0, 0, 0, 1, 0, 0, 0, 0, 0, 2, 0] .skip (.running 0) with cap := [0x01010000, 2, 0, 0, 0, 0, 0, 0] }
def censusState : State := desk [plain 0 F [2, 1] [1, 2], plain 0 (F + 0x100) [10] [1]] census1

theorem wit_censusCommand :
    let s := censusState
    let x := census1
    let cfg := cfgOf x.cap
    let tok := s.img x.part (roIdx x.cmd 0)
    let out := s.img x.part (roIdx x.cmd 3)
    s.onSkip 0 0x71 = some x ∧ tok.e 1 = 1 ∧ cfg.experts = 2
      ∧ (∀ k ∈ (List.range (tok.e 1)).map (tokenIn s.begin_ x cfg tok (s.img x.part (roIdx x.cmd 1))), k.u.bad = 0)
      ∧ (let u : State := { s with books := [(2, { shift := 0xFFFFFFFE, toReport := true })] }
         (x.shift == u.curShift x.part && (u.book x.part cfg.layer 2).toReport && (u.book x.part cfg.layer 2).shift == 0xFFFFFFFE) = true
           ∧ u.eccAt (u.bookAddr x.part cfg.layer 2 + 12) 20 = none)
      ∧ (∀ i < 8 + cfg.experts, (writeRef s.begin_ x out (resolve s.begin_ x out [(i : Int)]) 0 none).bad = 0)
      ∧ (∀ i < 8 + cfg.experts, ∀ o ∈ (writeRef s.begin_ x out (resolve s.begin_ x out [(i : Int)]) 0 none).wr, o.pos = none)
      ∧ (s.part x.part).audit.pending = false ∧ s.control? = none
      ∧ (let u : State := { s with host := { sessions := [{ id := 3, mode := 1, addr := 0xFE80 * 2 ^ 112 }] } }
         ∃ c ∈ u.control?, u.session? c.id = some c ∧ (u.hostPort c.port).canReach c.addr = true)
      ∧ (let u : State := { s with host := { sessions := [{ id := 3, mode := 1, addr := 0xFFFF00000001 }] } }
         ∃ c ∈ u.control?, u.session? c.id = some c ∧ (u.hostPort c.port).canReach c.addr = false)
      ∧ (let u : State := { s with parts := [(0, { audit := { pending := true } })] }
         (u.part x.part).audit.pending = true ∧ x.shift = u.curShift x.part) := by decide +kernel

/-! ## Statements of collectives -/

/-- A part with a ring of two members, this one at rank 0, on ports 0 and 1. -/
def ringState (x : Flight) : State := { desk vecs x with struct := { plan := ringed }, ports := [(2, { st := .up, role := 2 })] }
/-- A collective command of ring 0 with no phase. -/
def coll (l : List Nat) (c : Coll) : Flight :=
  { fl l .coll (.running 0) with coll := c, rosters := [(0, [0, 1]), (8, [0, 0])] }
def amax1 : Flight := coll [0x80, 0, 0, 0, 1, 0, 2, 0, 0, 0, 0, 0xFF] {}
def bucket1 : Flight := coll [0x81, 0, 0, 0, 1, 0, 2, 0, 3, 0, 0, 0, 0xFF] {}
def kv1 (c : Coll) : Flight := coll [0x82, 0, 0, 0, 1, 0, 2, 0, 0, 0, 0, 0, 0xFF] c

theorem wit_collectivesStart :
    ((ringState amax1).runningOn 0 0 0x80 = some amax1 ∧ (ringState amax1).collMay amax1 = true
      ∧ (collOwn (ringState amax1).begin_ amax1 ((ringState amax1).viewOf amax1)).2.bad = 0 ∧ amax1.coll.started = false)
    ∧ ((ringState bucket1).runningOn 0 0 0x81 = some bucket1 ∧ (ringState bucket1).collMay bucket1 = true
      ∧ (collOwn (ringState bucket1).begin_ bucket1 ((ringState bucket1).viewOf bucket1)).2.bad = 0)
    ∧ ((ringState (kv1 {})).runningOn 0 0 0x82 = some (kv1 {}) ∧ (ringState (kv1 {})).collMay (kv1 {}) = true
      ∧ (kv1 {}).coll.ready = false ∧ (ringState (kv1 {})).flight? 1 = some (kv1 {}))
    ∧ (let s : State := { ringState amax1 with rings := [(0, { dead := 0x0610 })] }
       s.runningOn 0 0 0x80 = some amax1 ∧ s.collMay amax1 = false)
    ∧ (let s : State := { ringState bucket1 with rings := [(0, { dead := 0x0610 })] }
       s.runningOn 0 0 0x81 = some bucket1 ∧ s.collMay bucket1 = false)
    ∧ (let s : State := { ringState (kv1 {}) with rings := [(0, { dead := 0x0610 })] }
       s.runningOn 0 0 0x82 = some (kv1 {}) ∧ s.collMay (kv1 {}) = false) := by decide +kernel

/-- A KV_PASS of phase 2 on a ring that is on its bypass, where phases do not gate. -/
def kvPhase : Flight := coll [0x82, 0, 0, 0, 1, 0, 2, 0, 0, 0, 0, 0, 2] {}
def kvPhaseState : State := { ringState kvPhase with rings := [(0, { onBypass := true, lost := some 1 })] }

theorem wit_collectivePhaseStarts :
    let s := kvPhaseState
    let x := kvPhase
    (2 : Nat) ≠ 0xFF ∧ s.openColl 0 0 = [x] ∧ x.phase = .running 0 ∧ collPhase x.cmd = 2 ∧ isKv x.cmd = true
      ∧ s.flight? x.id = some x ∧ x.coll.started = false ∧ x.coll.ready = false
      ∧ (let mine := fun (e : BellRec) => e.kind == 2 && e.part == 0 && (e.arg0 == 0 && e.arg1 == 2)
         ({ s with dev := firedDev s mine } : State).collMay x = true)
      ∧ (∀ c ∈ s.collIn, CollIn.isFor x c = false)
      ∧ alone s (fun e => e.kind == 2 && e.part == 0 && (e.arg0 == 0 && e.arg1 == 2)) = true := by decide +kernel

/-- A flit of KV data for ring 0, number 0. -/
def kvFlit : CollFlit := { src := 1, part := 0, ring := 0, seq := 0, stage := 4, last := false, off := 0, data := [1, 2, 3, 4] }

theorem wit_collectiveFlitsWait :
    (let s : State := { ringState amax1 with flights := [] }
     let a := arrived s 2 1 1 0 {}
     (s.port 2).st = .up ∧ (s.port 2).inOrder 0 = true ∧ (s.port 2).inOrder 1 = false ∧ roleTakes (s.port 2).role 1 1 = true
       ∧ (s.ring 0 0).dead = 0 ∧ s.collShut 0 = false ∧ a.collOf 0 0 0 = none ∧ a.collPast 0 0 0 = false ∧ kvFlit.part = 0 ∧ kvFlit.ring = 0 ∧ kvFlit.seq = 0)
    ∧ (let s : State := { ringState amax1 with rings := [(0, { lost := some 1 })] }
       (s.ring 0 0).dead = 0 ∧ (s.ring 0 0).lost.isSome = true ∧ (s.ring 0 0).onBypass = false) := by decide +kernel

theorem wit_collectiveFlitsTaken :
    (let x := kv1 { started := true }
     let s := ringState x
     let a := arrived s 2 1 1 0 {}
     (s.port 2).st = .up ∧ (s.port 2).inOrder 0 = true ∧ roleTakes (s.port 2).role 1 1 = true ∧ s.collShut 0 = false
       ∧ (s.ring 0 0).dead = 0 ∧ (s.ring 0 0).resolving = false ∧ a.collOf 0 0 0 = some x ∧ a.flight? x.id = some x
       ∧ isKv x.cmd = true ∧ x.phase ≠ .done ∧ kvFlit.stage = 4
       ∧ kvFlit.last = false ∧ x.coll.gotLast = false ∧ kvFlit.data.length ≤ 224
       ∧ ((kvFlit.off + kvFlit.data.length : Nat) : Int) ≤ (reachOf (s.img x.part (collDst x.cmd)).own).2
          - (reachOf (s.img x.part (collDst x.cmd)).own).1 + 1)
    ∧ (let x := { amax1 with coll := { started := true, complete := true, n := 2 } }
       let a := arrived (ringState x) 2 1 1 0 {}
       a.collOf 0 0 0 = some x ∧ a.flight? x.id = some x ∧ isKv x.cmd = false ∧ x.phase ≠ .done
         ∧ x.coll.complete = true ∧ x.coll.n ≤ 1 + 1)
    ∧ (let x := amax1
       let a := arrived (ringState x) 2 1 1 0 {}
       a.collOf 0 0 0 = some x ∧ a.flight? x.id = some x ∧ isKv x.cmd = false ∧ x.coll.started = false)
    ∧ (let x := kv1 {}
       let a := arrived { ringState x with ports := [(2, { st := .up, role := 2, peerPos := 1 })] } 2 1 1 0 {}
       a.collOf 0 0 0 = some x ∧ a.flight? x.id = some x ∧ isKv x.cmd = true ∧ kvStep x.cmd = 0 ∧ x.coll.started = false
         ∧ x.coll.ready = false ∧ (a.port 2).peerPos = nth (a.viewOf x).pos ((a.viewOf x).kvTo (kvReverse x.cmd)).2) := by
  decide +kernel

theorem wit_resolveFlitTaken :
    let s : State := { ringState amax1 with
      flights := []
      struct := { plan := { ringed with rings := [⟨0, 0, 0, 0xFF, 3, 1, 1, 2⟩] } }
      rings := [(0, { lost := some 2, onBypass := true, resolving := true })] }
    (s.port 2).st = .up ∧ (s.port 2).inOrder 0 = true ∧ roleTakes (s.port 2).role 1 1 = true ∧ s.collShut 0 = false
      ∧ (s.ring 0 0).dead = 0 ∧ (s.ring 0 0).lost = some 2 ∧ (s.ring 0 0).onBypass = true ∧ (s.ring 0 0).resolving = true
      ∧ (s.begin_.viewNow 0 0).rank ≠ 0 ∧ s.openColl 0 0 = [] := by decide +kernel

theorem wit_collectiveIdle :
    (let x := kv1 { started := true }
     let s : State := { ringState x with clk := { span := 16777216 } }
     s.flight? 1 = some x ∧ x.q = 0 ∧ isColl x.cmd = true ∧ x.coll.lastIo + 16777216 ≤ s.clk.span)
    ∧ (let x := kv1 { started := true }
       let s : State := { ringState x with clk := { span := 16777215 } }
       s.flight? 1 = some x ∧ s.clk.span < x.coll.lastIo + 16777216) := by decide +kernel

/-! ## Statements of resilience -/

/-- SECURE: a close of one copy, a copy. -/
def closeCmd : Flight := fl [0xA0, 0, 0, 0, 0, 0, 0, 2, 0, 0, 0, 0, 0, 0, 1, 0] .resil (.running 0)
def copyCmd (cap : List Nat) : Flight := { fl [0xA0, 0, 0, 0, 1, 0, 0, 0] .resil (.running 0) with cap := cap }
/-- The plan with a buddy and a secure window of 10 ticks at each mark. -/
def windowed : State := { marked with
  struct := { plan := { marked.struct.plan with bell := [⟨100, 1, 0, 0, 1000⟩, ⟨0, 6, 0, 0, 10⟩] } } }

theorem wit_secureCommand :
    ((one closeCmd).onResil 0 0xA0 = some closeCmd ∧ seClose closeCmd.cmd = true)
    ∧ ((desk vecs (copyCmd [0])).onResil 0 0xA0 = some (copyCmd [0]) ∧ seClose (copyCmd [0]).cmd = false
      ∧ (copyCmd [0]).cap ≠ [1])
    ∧ (let s : State := { desk vecs (copyCmd [1]) with struct := windowed.struct }
       s.onResil 0 0xA0 = some (copyCmd [1]) ∧ s.copyMay 0 = false
         ∧ (∀ e ∈ s.ports, e.2.held = [] ∧ e.2.transit = []) ∧ (∀ y ∈ s.txns, y.id < s.dev.nextTxn)
         ∧ (imageUpTo s.begin_ 0 (imageRanges (s.img 0 (seSrc (copyCmd [1]).cmd)))).2 = none)
    ∧ (let s := desk vecs (copyCmd [1])
       let x := copyCmd [1]
       s.onResil 0 0xA0 = some x ∧ s.copyMay x.part = true
         ∧ (imageUpTo s.begin_ x.part (imageRanges (s.img x.part (seSrc x.cmd)))).2 = none) := by decide +kernel

theorem wit_digestCommand :
    let x := fl [0xA1, 0, 0, 0, 1, 0, 1, 0, 0, 0x50] .resil (.running 0)
    let s := desk vecs x
    s.onResil 0 0xA1 = some x ∧ (imageUpTo s.begin_ x.part (imageRanges (s.img x.part (seSrc x.cmd)))).2 = none
      ∧ s.inPart x.part (dgOut x.cmd) 16 = true ∧ s.readCode x.part (dgOut x.cmd) 16 = 0 ∧ s.hbmShut (dgOut x.cmd) = false
      ∧ bit (cb x.cmd 6 1) 0 = true
      ∧ (let y := fl [0xA1, 0, 0, 0, 1, 0, 0, 0, 0, 0, 0, 0, 0, 0xFF] .resil (.running 0)
         (desk vecs y).onResil 0 0xA1 = some y ∧ (desk vecs y).inPart y.part (dgOut y.cmd) 16 = false) := by
  decide +kernel

theorem wit_secureWindow :
    let mine := fun (e : BellRec) => e.kind == 6 && e.part == 0 && true
    (let s := at_ windowed 109
     alone s mine = true ∧ s.bell.st.counts = true ∧ s.windowEnd 0 = some 110
       ∧ ∀ e ∈ s.ports, e.2.held = [] ∧ e.2.transit = [])
    ∧ (alone (at_ windowed 110) mine = true ∧ (at_ windowed 110).windowEnd 0 = none)
    ∧ (let s : State := { at_ windowed 110 with parts := [(0, { secureOpen := true, secureUntil := 110 })] }
       (s.part 0).secureOpen = true ∧ (s.part 0).secureUntil ≤ s.clk.bell)
    ∧ (let s : State := { at_ windowed 109 with parts := [(0, { secureOpen := true, secureUntil := 110 })] }
       s.clk.bell < (s.part 0).secureUntil) := by decide +kernel

theorem wit_canaryEvaluation :
    ((at_ base 16384).bell.st.counts = true ∧ (at_ base 16384).clk.bell % 16384 = 0
      ∧ ((at_ base 16384).struct.plan.parts.map (·.part)).Nodup
      ∧ (∀ r ∈ (at_ base 16384).struct.plan.parts, ∀ e, ((at_ base 16384).part r.part).canary.eval = some e →
          e.tick ≠ (at_ base 16384).clk.bell)
      ∧ (∀ r ∈ (at_ base 16384).struct.plan.rings,
          (at_ base 16384).eccAt (((at_ base 16384).part r.part).rosterArea.base + 512 * r.ring) 512 = none)
      ∧ ∀ e ∈ (at_ base 16384).ports, e.2.held = [] ∧ e.2.transit = [])
    ∧ (at_ base 16383).clk.bell % 16384 ≠ 0 := by decide +kernel
theorem wit_canaryEnds :
    let e : CanaryEval := { tick := 16384, state := 1, told := false, more := false }
    let s : State := { at_ base 16384 with parts := [(0, { canary := { eval := some e } })] }
    s.pending = [] ∧ s.loses = false ∧ 0 ∈ s.parts.map (·.1) ∧ (s.part 0).canary.eval = some e ∧ e.told = false ∧ e.more = false
      ∧ ∀ y ∈ s.parts, y.2.audit.taking = false ∧ y.1 = 0 := by decide +kernel

/-! ## Statements of issue, retirement and contexts -/

theorem wit_tokenChoices :
    (tokenChoices ⟨0, 0, 1, 1, 1, 0⟩ [(4, 2)] [] 9 0 1 0 0 [] [0]).1 = [some (4, 0)] := by decide +kernel

theorem wit_commandFetch :
    (let s : State := { one (fl [0] .seq .wait) with
       ctxs := [(0, { ctxA with tail := 6, head := 2 })], faces := [(0, { waiting := [0] })], parts := [(0, { st := .running })] }
     (s.face 0).resetting = false ∧ s.pickFetch ((s.face 0).fillSlots s.hasUnfetched) = some (0, 0)
       ∧ (s.ctx 0).calls = [] ∧ (s.ctx 0).head < (s.ctx 0).tail ∧ (s.ctx 0).skip = 0
       ∧ ∀ i < 2, s.eccAt ((s.ctx 0).ringBase + 16 * 2 + 16 * i) 16 = none)
    ∧ (let s : State := { one (fl [0] .seq .wait) with
         ctxs := [(0, { ctxA with tail := 6, head := 2, calls := [none], pc := 0x3010 })], faces := [(0, { waiting := [0] })]
         parts := [(0, { st := .running })] }
       s.pickFetch ((s.face 0).fillSlots s.hasUnfetched) = some (0, 0) ∧ (s.ctx 0).calls ≠ [] ∧ (s.ctx 0).subBuf = []
         ∧ s.inHbmPart (s.partOf 0) (s.ctx 0).pc 16 = true
         ∧ ∀ i < 3, s.eccAt ((s.ctx 0).pc + 16 * i) 16 = none) := by decide +kernel

/-- Context 0 of a running partition with one command fetched. -/
def toIssue (cmd : List Nat) : State := { base with
  ctxs := [(0, { ctxA with tail := 1, head := 1, buf := [⟨leNat cmd, 0, 0, 0⟩] })]
  dev := { nextFetch := 1, nextFlight := 2 }
  parts := [(0, { st := .running })] }

/-- Another context's command of the same array cycle, and the command whose issue it meets. -/
def clashDev : Dev := { nextFetch := 1, nextFlight := 2, cycle := 1 }
def dropIssue : State := { toIssue [0x91, 0, 0, 0, 1, 0] with
  descs := (vecs.zipIdx).map (fun e => (e.2 + 1, e.1))
  flights := [{ mover 0x20 with q := 1, phase := .queued, cycle := 1 }]
  dev := clashDev }
def releaseIssue : State := { toIssue [0x41, 0, 0, 0, 0, 2] with
  faces := [(0, { masks := [(0, slot0)] })]
  flights := [{ sparse with id := 1, q := 1, phase := .queued, cycle := 1 }]
  dev := clashDev }
/-- A KV_PASS whose ring of two has its ports up and its roster at 0x9000. -/
def kvIssue : State := { toIssue [0x82, 0, 0, 0, 1, 0, 2, 0, 0, 0, 0, 0, 0xFF] with
  descs := (vecs.zipIdx).map (fun e => (e.2 + 1, e.1))
  struct := { plan := ringed }
  ports := [(0, { st := .up, role := 2 }), (1, { st := .up, role := 2 })]
  parts := [(0, { st := .running, rosterArea := ⟨true, 0x9000, 0⟩ })]
  mem := ((List.range 512).drop 2).map (fun i => (0x9000 + i, if i < 4 then 1 else 0xFF)) }

/-- What a face meets whose first context, 0, has command `n` next: its attempt, the command and its engine's answer. -/
def tries (s : State) (again : Bool) (ok : State → Fetched → Flight → Nat → Bool) : Bool :=
  decide (s.issueOrder 0 = [] ++ 0 :: []) && decide (((attempt s 0 again).face 0).issued < 4)
    && (s.ctx 0).next?.any (fun n =>
      let b := attempt s 0 again
      ok b n (b.asFlight 0 n) (engineIssue b.begin_ (b.asFlight 0 n)).1)

theorem wit_commandIssue :
    -- nothing to issue; four issued in the cycle; a stall
    (∀ k ∈ base.issueOrder 0, base.tryIssue k = .nothing)
    ∧ (let s : State := { toIssue [0] with dev := { nextFetch := 1, cycle := 3 }, faces := [(0, { cycle := 3, issued := 4 })] }
       4 ≤ ((attempt s 0 true).face 0).issued)
    ∧ (let s : State := { toIssue [0] with flights := [fl [0x05] .seq .wait] }
       s.issueOrder 0 = [0] ∧ (s.ctx 0).next? = some ⟨0, 0, 0, 0⟩ ∧ s.tryIssue 0 = .stall (some 1) ∧ (0 : Nat) < s.dev.nextFetch
         ∧ (s.face 0).cycle ≠ s.dev.cycle + 1)
    -- a context ahead that holds back
    ∧ (let s : State := { toIssue [0] with
         ctxs := [(0, { ctxA with tail := 1, head := 1, prio := 1, buf := [⟨0, 0, 0, 0⟩] }),
                  (1, { ctxA with tail := 1, head := 1, buf := [⟨0, 0, 0, 1⟩] })]
         flights := [{ fl [0x05] .seq .wait with q := 0 }] }
       s.issueOrder 0 = [0] ++ 1 :: [] ∧ s.tryIssue 0 = .stall (some 1) ∧ s.tryIssue 1 = .issue)
    -- issue, a TAG_WAIT, a fault, an engine's fault
    ∧ tries (toIssue [0]) false (fun _ n _ e => decide ((toIssue [0]).tryIssue 0 = .issue) && e == 0 && !isColl n.cmd) = true
    ∧ tries (toIssue [0x11]) false (fun _ n _ e =>
        decide ((toIssue [0x11]).tryIssue 0 = .issue) && e == 0 && opOf n.cmd == 0x11) = true
    ∧ tries (toIssue [0xFF]) false (fun _ _ _ _ => decide ((toIssue [0xFF]).tryIssue 0 = .fault 0x0201 false)) = true
    ∧ tries (toIssue [0x20, 0, 0, 0, 1, 0, 2, 0]) false (fun _ n _ e =>
        decide ((toIssue [0x20, 0, 0, 0, 1, 0, 2, 0]).tryIssue 0 = .issue) && e != 0 && !isColl n.cmd) = true := by decide +kernel

theorem wit_commandIssueClashes :
    (tries dropIssue true (fun _ n x e => decide (dropIssue.tryIssue 0 = .issue) && e == 0 && opOf n.cmd == 0x91
        && dropIssue.flights.all (fun z => decide (z.id < dropIssue.dev.nextFlight) && x.besides z && z.part == x.part
          && (dropIssue.descsOf z.part z.cmd).contains (descIdx n.cmd))) = true ∧ dropIssue.flights ≠ [])
    ∧ (tries releaseIssue true (fun _ n x e => decide (releaseIssue.tryIssue 0 = .issue) && e == 0 && opOf n.cmd == 0x41
        && mrOp n.cmd == 2 && releaseIssue.flights.all (fun z => decide (z.id < releaseIssue.dev.nextFlight) && x.besides z
          && z.face == x.face && spNames z.cmd (mrSlot n.cmd))) = true ∧ releaseIssue.flights ≠ [])
    ∧ (tries kvIssue false (fun _ n x e => decide (kvIssue.tryIssue 0 = .issue) && e == 0 && isColl n.cmd
        && !(kvIssue.ring x.part (collRing n.cmd)).onBypass) = true
      ∧ (∀ l < 256, kvIssue.isLost l = false) ∧ kvIssue.collIn = [] ∧ kvIssue.flights = []) := by decide +kernel

theorem wit_engineDispatch :
    (let x := { mover 0x20 with phase := .queued }
     (one x).flights.find? (fun y => y.cls == .data && y.phase == .queued && sharesEngine .data 0 y.face) = some x
       ∧ (one x).pickUnit 0 .data = some 0)
    ∧ (let x := { tile 0x30 0 with phase := .queued }
       (one x).flights.find? (fun y => y.cls == .stope && y.phase == .queued && sharesEngine .stope 0 y.face) = some x
         ∧ (one x).pickUnit 0 .stope = some 0 ∧ (one x).unitFree 0 .stope 0 = true)
    -- all four arrays stream: one takes the next tile behind its own (R558)
    ∧ (let s : State := { one { tile 0x30 0 with phase := .queued } with
         flights := { tile 0x30 0 with id := 9, phase := .queued } :: (List.range 4).map (fun k => { tile 0x30 0 with id := k, phase := .running k }) }
       s.pickUnit 0 .stope = some 0 ∧ s.unitFree 0 .stope 0 = false ∧ s.unitNext 0 .stope 0 = true)
    ∧ base.flights.find? (fun y => y.cls == .row && y.phase == .queued && sharesEngine .row 0 y.face) = none := by
  decide +kernel

theorem wit_commandRetire :
    (let x := fl [0x20, 0x06, 7, 0] .data .done
     (one x).flights.find? (fun x => x.id = 1 ∧ x.q = 0) = some x ∧ (one x).mayRetire x = true ∧ (one x).endFault x = none
       ∧ fSig x.cmd = true)
    ∧ (let x := fl [0x20] .data .done; (one x).mayRetire x = true ∧ (one x).endFault x = none ∧ fSig x.cmd = false)
    ∧ (let x := fl [0x20] .data (.running 0); (one x).mayRetire x = false)
    ∧ (let x := { fl [0x20] .data .done with fault := some (0x0612, 0) }
       (one x).mayRetire x = true ∧ (one x).endFault x = some (0x0612, 0) ∧ isColl x.cmd = false)
    -- one record with room for one, and with none
    ∧ (let x := fl [0x20, 0x04] .data .done
       let s : Nat → State := fun n => { one x with ctxs := [(0, { ctxA with produced := n })] }
       fRec x.cmd = true ∧ x.halves = [] ∧ ((s 63).mayRetire x = true ∧ (s 63).endFault x = none ∧ ((s 63).ctx 0).tallyFree = 1)
         ∧ ((s 64).mayRetire x = true ∧ ((s 64).ctx 0).tallyFree = 0)) := by decide +kernel

/-- A command with a deadline at tick 100. -/
def bounded (ph : Phase) (abort : Bool) (stamp : Option Nat) : Flight :=
  { fl [0x20] .data ph with comp := true, deadline := some 100, abort := abort, stamp := stamp }

theorem wit_deadlineTest :
    (let x := bounded .done false none
     let s := at_ (one x) 100
     s.flights.find? (fun x => x.id = 1 ∧ x.q = 0) = some x ∧ x.comp = true ∧ s.bell.st.counts = true
       ∧ s.clk.bell ≤ x.deadline.getD 0)
    ∧ (let x := bounded .done false (some 100)
       let s := at_ (one x) 101
       x.deadline.getD 0 < s.clk.bell ∧ x.stamp = some 100 ∧ 100 ≤ x.deadline.getD 0)
    ∧ (let x := bounded .done false (some 101)
       let s := at_ (one x) 101
       x.deadline.getD 0 < s.clk.bell ∧ x.stamp = some 101 ∧ x.deadline.getD 0 < 101 ∧ x.abort = false)
    ∧ (let x := bounded .queued true none
       let s := at_ (one x) 101
       x.deadline.getD 0 < s.clk.bell ∧ x.stamp = none ∧ x.abort = true ∧ x.phase = .queued ∧ isColl x.cmd = false) := by
  decide +kernel

theorem wit_tallyRing :
    (let r : Rec := ⟨5, 0, 0x20, 3, 0, 0, 0x0102, 0, 0⟩
     let s : State := { base with ctxs := [(0, { ctxA with owed := [r] })] }
     (s.ctx 0).owed = r :: [] ∧ s.reserved 0 < (s.ctx 0).tallyFree ∧ (s.ctx 0).wb = 0
       ∧ s.hbmShut (s.ctx 0).tallyBase = false
       ∧ ({ s with ms := { s.ms with repairEn := true } } : State).hbmShut (s.ctx 0).tallyBase = true)
    ∧ (let r : Rec := ⟨5, 0, 0x20, 3, 0, 0, 0x0102, 0, 0⟩
       let s : State := { base with ctxs := [(0, { ctxA with owed := [r], produced := 64 })] }
       (s.ctx 0).owed = r :: [] ∧ (s.ctx 0).tallyFree ≤ s.reserved 0)
    ∧ (let s : State := { base with ctxs := [(0, ctxA)] }
       (s.ctx 0).st ≠ .idle ∧ unwrap32 (s.ctx 0).tail 64 < (s.ctx 0).tail + 2 ^ 31
         ∧ unwrap32 (s.ctx 0).tail 64 - (s.ctx 0).head ≤ 2 ^ (s.ctx 0).ringLog2)
    ∧ (let s : State := { base with ctxs := [(0, ctxA)] }
       unwrap32 (s.ctx 0).tail 65 < (s.ctx 0).tail + 2 ^ 31
         ∧ 2 ^ (s.ctx 0).ringLog2 < unwrap32 (s.ctx 0).tail 65 - (s.ctx 0).head)
    ∧ (base.ctx 0).st = .idle
    ∧ (let s : State := { base with ctxs := [(0, { ctxA with produced := 3 })] }
       unwrap32 (s.ctx 0).consumed 3 ≤ (s.ctx 0).produced ∧ (s.ctx 0).produced < unwrap32 (s.ctx 0).consumed 4) := by
  decide +kernel

/-- A context table at 0x1000 whose first entry is good: rings of 64 and 16 entries on face 191. -/
def entry : List Nat := leBytes 8 0x2000 ++ [6, 191, 3, 0] ++ leBytes 4 9 ++ leBytes 8 0x4000 ++ [4]
def tabled (l : List Nat) : State := { base with
  parts := [(0, { st := .running, qctxTable := 0x1000 })]
  mem := (l.zipIdx.filter (fun e => decide (e.1 ≠ 0))).map (fun e => (0x1000 + e.2, BitVec.ofNat 8 e.1)) }

theorem wit_contextStates :
    State.reset.struct.plan.partOfCtx 0 = none
    ∧ (let s : State := { base with ctxs := [(0, ctxA)] }; s.struct.plan.partOfCtx 0 = some 0 ∧ (s.ctx 0).st ≠ .idle)
    ∧ (let s := tabled [0x01]; s.struct.plan.partOfCtx 0 = some 0 ∧ (s.ctx 0).st = .idle ∧ entryOk (s.begin_.ctxEntry 0 0) = false
         ∧ s.hbmShut ((s.part 0).qctxTable + 64 * (0 - s.struct.plan.ctxBase 0)) = false
         ∧ s.eccAt ((s.part 0).qctxTable + 64 * (0 - s.struct.plan.ctxBase 0)) 64 = none)
    ∧ (let s : State := { tabled entry with ms := { (tabled entry).ms with repairEn := true } }
       s.hbmShut ((s.part 0).qctxTable + 64 * (0 - s.struct.plan.ctxBase 0)) = true)
    ∧ (let s : State := { tabled entry with ms := { (tabled entry).ms with badSectors := [0x1000 / 32] } }
       ∃ e ∈ s.eccAt ((s.part 0).qctxTable + 64 * (0 - s.struct.plan.ctxBase 0)) 64, e.2 ≠ 0)
    ∧ (let s := tabled entry
       let l := s.begin_.ctxEntry 0 0
       s.struct.plan.partOfCtx 0 = some 0 ∧ (s.ctx 0).st = .idle
         ∧ s.eccAt ((s.part 0).qctxTable + 64 * (0 - s.struct.plan.ctxBase 0)) 64 = none ∧ entryOk l = true ∧ leAt l 9 1 < Config.nFaces
         ∧ s.struct.plan.partOfFace (leAt l 9 1) = some 0 ∧ s.entryPlaced 0 l = true)
    ∧ (∀ face ∈ [192, 255],
       let s := tabled (leBytes 8 0x2000 ++ [6, face, 3, 0] ++ leBytes 4 9 ++ leBytes 8 0x4000 ++ [4])
       let l := s.begin_.ctxEntry 0 0
       s.struct.plan.partOfCtx 0 = some 0 ∧ (s.ctx 0).st = .idle ∧ entryOk l = true ∧ ¬ leAt l 9 1 < Config.nFaces
         ∧ s.hbmShut ((s.part 0).qctxTable + 64 * (0 - s.struct.plan.ctxBase 0)) = false
         ∧ s.eccAt ((s.part 0).qctxTable + 64 * (0 - s.struct.plan.ctxBase 0)) 64 = none)
    ∧ (let s : State := { tabled entry with struct := { plan := { romPlan with parts := [⟨0, 0, 1, 0⟩] } } }
       let l := s.begin_.ctxEntry 0 0
       s.struct.plan.partOfCtx 0 = some 0 ∧ entryOk l = true ∧ leAt l 9 1 = 191 ∧ s.struct.plan.partOfFace (leAt l 9 1) ≠ some 0)
    ∧ (let s := tabled (leBytes 8 0xFFFFFFFFFF00 ++ [6, 191, 3, 0] ++ leBytes 4 9 ++ leBytes 8 0x4000 ++ [4])
       let l := s.begin_.ctxEntry 0 0
       s.struct.plan.partOfCtx 0 = some 0 ∧ (s.ctx 0).st = .idle ∧ entryOk l = true ∧ leAt l 9 1 < Config.nFaces
         ∧ s.struct.plan.partOfFace (leAt l 9 1) = some 0 ∧ s.entryPlaced 0 l = false
         ∧ s.eccAt ((s.part 0).qctxTable + 64 * (0 - s.struct.plan.ctxBase 0)) 64 = none)
    ∧ (let s : State := { base with ctxs := [(0, { ctxA with st := .stopping })] }
       (s.ctx 0).st = .stopping ∧ s.flightsOf 0 = [])
    ∧ (let s : State := { base with ctxs := [(0, { ctxA with st := .faulted, faultSeq := some 4, head := 5, tail := 5 })] }
       (s.ctx 0).halted = true ∧ (s.ctx 0).faultSeq = some 4)
    ∧ (let s : State := { base with ctxs := [(0, { ctxA with st := .stopped })] }
       (s.ctx 0).halted = true ∧ (s.ctx 0).faultSeq = none)
    ∧ (let s : State := { base with ctxs := [(0, ctxA)] }; (s.ctx 0).halted = false) := by decide +kernel

/-! ## Statements of resets, marks, plans and registers -/

theorem wit_unitResets :
    (∀ e ∈ base.ports, e.2.held = [] ∧ e.2.transit = [])
    ∧ (∀ q, WritebackInHbm base q)
    ∧ (let s : State := { base with ctxs := [(0, { ctxA with wb := 0x8000 })] }
       Idles s 0 0 ∧ (s.ctx 0).wb ≠ 0 ∧ (s.ctx 0).wb + 16 ≤ Config.hbmEnd ∧ s.ms.repairEn = false)
    ∧ base.dev.reset = none ∧ base.struct.plan.defines 0 = true ∧ base.struct.plan.defines 15 = false
    ∧ (base.part 0).grantArea.enable = false ∧ base.struct.plan.partOfGal 15 = some 0 ∧ base.struct.plan.partOfFace 191 = some 0
    ∧ (let s : State := { base with dev := { reset := some ⟨1, 191⟩ } }; s.dev.reset ≠ none ∧ s.dev.reset = some ⟨1, 191⟩)
    ∧ (let s : State := { base with dev := { reset := some ⟨2, 15⟩ } }; s.dev.reset = some ⟨2, 15⟩)
    ∧ (let s : State := { base with dev := { reset := some ⟨3, 0⟩ } }; s.dev.reset = some ⟨3, 0⟩) := by
  refine ⟨by decide +kernel, fun q => .inl rfl, ?_⟩
  unfold Idles
  decide +kernel

theorem wit_deviceReset :
    (base.dev.reset = none ∧ base.boot.st.serves = true ∧ base.boot.flashJob = none ∧ base.ms.saving = none)
    ∧ (let s : State := { base with boot := { st := .ready, flashJob := some ⟨6, 0, []⟩ } }
       s.boot.st.serves = true ∧ s.boot.flashJob = some ⟨6, 0, []⟩)
    ∧ (let s : State := { base with ms := { base.ms with saving := some 3 } }
       s.boot.st.serves = true ∧ s.ms.saving = some 3) := by
  decide +kernel

theorem wit_shiftMarkAndAudit :
    (let s := at_ marked 2100
     s.bell.st.counts = true ∧ s.lastShiftPast 0 0 0 = some 2 ∧ s.isMark 0 2 = true ∧ (s.part 0).marked = false
       ∧ alone s (fun e => e.kind == 1 && e.part == 0) = true)
    ∧ (let s := at_ marked 2101; s.lastShiftPast 0 0 0 = some 2 ∧ s.isMark 0 2 = false)
    ∧ (let s : State := { at_ marked 2100 with parts := [(0, { marked := true, markShift := 2 })] }
       s.lastShiftPast 0 0 0 = some 2 ∧ (s.part 0).marked = true ∧ (s.part 0).markShift = 2
         ∧ alone s (fun e => e.kind == 1 && e.part == 0) = true)
    ∧ (let s : State := { marked with parts := [(0, { audit := ⟨true, true, 2, 0⟩ })] }
       s.pending = [] ∧ s.loses = false ∧ s.pwr.tripped = 0 ∧ (s.part 0).audit.taking = true
         ∧ ∀ e ∈ s.parts, e.2.canary.eval = none ∧ e.1 = 0)
    ∧ (marked.part 0).audit.pending = false
    ∧ (let s : State := { marked with parts := [(0, { audit := ⟨true, false, 2, 0⟩ })] }
       (s.part 0).audit.pending = true ∧ (s.part 0).audit.code = 0)
    ∧ (let s : State := { marked with parts := [(0, { audit := ⟨true, false, 2, 0x0260⟩ })] }
       (s.part 0).audit.pending = true ∧ (s.part 0).audit.code ≠ 0 ∧ s.dev.auditFailed = 0)
    ∧ (let s : State := { marked with parts := [(0, { audit := ⟨true, false, 2, 0x0260⟩ })], dev := { auditFailed := 2 } }
       (s.part 0).audit.pending = true ∧ (s.part 0).audit.code ≠ 0 ∧ s.dev.auditFailed ≠ 0) := by decide +kernel

/-- A plan whose shift mark, reconfiguration boundary and heartbeat fall on one tick. -/
def crowded : State := at_ { base with struct := { plan := { romPlan with
  bell := [⟨76, 7, 0xFF, 0, 0⟩, ⟨0, 5, 0, 0, 0⟩, ⟨100, 1, 0, 0, 1000⟩] } } } 1100

theorem wit_templateOrder :
    crowded.eventsLeft.map (·.1.kind) = [1, 5, 7]
    ∧ (∀ y ∈ crowded.eventsLeft, y.1.kind ≠ 7 → y.1.part < Config.nParts)
    ∧ (let s : State := { crowded with dev := { firedAt := 1100, fired := [2] } }
       s.eventsLeft.map (·.1.kind) = [5, 7] ∧ (∃ x ∈ s.eventsNow, x.1.kind = 1 ∧ x.1.part = 0)
         ∧ ∀ x ∈ s.eventsLeft, ¬ (x.1.kind = 1 ∧ x.1.part = 0)) := by decide +kernel

/-- Partition 0 in a state. -/
def inState (st : PState) : State := { base with parts := [(0, { st := st })] }

theorem wit_quiesce :
    (base.ms.repairEn = false ∧ base.boot.st ≠ .limited ∧ bit 0 0 = false)
    ∧ (((inState .running).part 0).st = .running ∧ bit 1 0 = true ∧ bit (inState .running).dev.quiesce 0 = false)
    ∧ (let s : State := { inState .quiesced with dev := { quiesce := 1 } }
       (s.part 0).st = .quiesced ∧ bit 0 0 = false ∧ bit s.dev.quiesce 0 = true)
    ∧ (let s : State := { inState .quiescing with dev := { quiesce := 1 } }
       (s.part 0).st = .quiescing ∧ bit 0 0 = false ∧ bit s.dev.quiesce 0 = true ∧ s.ms.repairEn = false ∧ s.boot.st ≠ .limited
         ∧ ({ s with boot := { st := .limited } } : State).boot.st = .limited)
    ∧ (base.part 0).st = .undefined
    ∧ (let s : State := { inState .quiescing with txns := [{ id := 5, kind := .read, dst := 1, owner := 1, addr := F, len := 16 }] }
       s.outbound 0 = true)
    ∧ (((inState .quiescing).part 0).st = .quiescing ∧ (∀ y ∈ (inState .quiescing).flights, y.part ≠ 0)
      ∧ (inState .quiescing).outbound 0 = false)
    ∧ (∃ y ∈ (one (mover 0x20)).flights, y.part = 0) := by decide +kernel

/-- The smallest image: one partition of every gallery, the device section (R34 to R46), its check word. -/
def smallBody (mode : Nat) : List Nat :=
  [0x5A, 0x48, 0x4F, 0x4D, 1, 0, 64, 0] ++ leBytes 4 128 ++ [2, 0, 0, 0] ++ leBytes 8 7 ++ [0x40, 0x5C, 0xA0, 0xA0] ++ List.replicate 36 0
    ++ ([1, 0, 1, 0] ++ leBytes 4 96 ++ leBytes 8 8) ++ ([4, 0, 1, 0] ++ leBytes 4 104 ++ leBytes 8 16)
    ++ [0, 0, 0xFF, 0xFF, 0, 0, 0, 0] ++ [mode, 0, 0, 1, 1, 0, 0xFF] ++ List.replicate 9 0 ++ [0, 0, 0, 0]
def smallImage (mode : Nat) : List Nat := smallBody mode ++ leBytes 4 (crc32c (smallBody mode))
def staged (mode st : Nat) : State := { base with struct := { plan := romPlan, staging := smallImage mode, loadState := st } }

theorem wit_plans :
    ((staged 3 1).boot.st ≠ .limited ∧ 64 ≤ (staged 3 1).struct.staging.length
      ∧ (staged 3 1).struct.staging.length = imgTotal (staged 3 1).struct.staging ∧ (staged 3 1).struct.loadState < 2)
    ∧ base.struct.staging.length < 64
    ∧ (staged 3 2).struct.loadState = 2 ∧ base.struct.loadState ≠ 2
    ∧ ({ base with boot := { st := .limited } } : State).boot.st = .limited
    ∧ (∃ f, vCheckWord (smallBody 3 ++ [0, 0, 0, 0]) = some f)
    ∧ vCheckWord (staged 4 2).struct.staging = none
    ∧ (∃ f, vRest (staged 4 2).struct.staging (staged 4 2).usable (staged 4 2).pwr.feed = some f)
    ∧ vCheckWord (staged 3 2).struct.staging = none
    ∧ vRest (staged 3 2).struct.staging (staged 3 2).usable (staged 3 2).pwr.feed = none ∧ (staged 3 2).ms.repairEn = false
    ∧ (∀ i < Config.nParts, affects romPlan (readPlan (smallImage 3)) (staged 3 2).usable i = true →
        romPlan.defines i = true → ((staged 3 2).part i).st = .quiesced)
    ∧ (let s : State := { base with struct := { loadState := 3, next := some romPlan } }
       s.struct.loadState = 3 ∧ s.struct.next = some romPlan)
    ∧ (let s : State := { staged 2 2 with parts := [(0, { st := .quiesced })] }
       (s.part 0).st = .quiesced ∧ affects romPlan (readPlan (smallImage 2)) s.usable 0 = true)
    ∧ (vCheckWord (smallImage 2) = none ∧ vRest (smallImage 2) (staged 2 2).usable (staged 2 2).pwr.feed = none
      ∧ affects romPlan (readPlan (smallImage 2)) (staged 2 2).usable 0 = true ∧ romPlan.defines 0 = true
      ∧ ((staged 2 2).part 0).st ≠ .quiesced) := by
  refine ⟨by decide +kernel, by decide +kernel, by decide +kernel, by decide +kernel, by decide +kernel,
    ⟨⟨0x0801, 0xFF, 124⟩, by decide +kernel⟩, by decide +kernel, ⟨⟨0x0809, 1, 104⟩, by decide +kernel⟩, by decide +kernel, by decide +kernel, by decide +kernel, by decide +kernel, by decide +kernel,
    by decide +kernel, by decide +kernel⟩

theorem wit_areaRegisters :
    ((inState .running).part 0).st ≠ .quiesced ∧ ((inState .quiesced).part 0).st = .quiesced := by decide +kernel

theorem wit_registerWrites :
    regOk 4 = false
    ∧ (let s : State := { base with bell := { epochLock := true } }; s.bell.epochLock = true)
    ∧ base.bell.epochLock = false := by decide +kernel

/-! ## Statements of the fabric and the bell -/

/-- A part on which port 3 is as given, at a lease tick; its template has a shift mark of partition 0 (phase 100, period 4096), and
5 ticks after it the points of port 3 move to pair 1 and the boundary falls. -/
def ported (p : Port) (t : Nat) : State := { base with
  struct := { plan := { romPlan with bell := [⟨100, 1, 0, 0, 4096⟩, ⟨5, 3, 0, 3, 1⟩, ⟨5, 5, 0, 0, 0⟩], ports := some [⟨3, 2, 7, 4, 0, 3⟩] } }
  ports := [(3, p)], clk := { lease := t, span := t } }
/-- A data port that is UP to position 7. -/
def upPort : Port := { role := 2, st := .up, peerValid := true, peerPos := 7, peerPort := 4, avail := [64, 1024, 1024, 512] }
/-- The link fields of the flit that is due, and of one that is not. -/
def due : LinkIn := { seq := 0 }
def late : LinkIn := { seq := 1 }
/-- The training record of the far end. -/
def farEnd : TrainRec := ⟨0xA05C40, 0x10, 0x10, 0x10, 2, 7, 4, 0, 0, 0, 0⟩

theorem wit_linkTraining :
    ((ported { st := .seek, role := 2 } 0).port 3).st = .seek
    ∧ ((ported { st := .train, role := 2 } 250000).port 3).leftSeek + 250000 ≤ (ported { st := .train } 250000).clk.span
    ∧ (ported { st := .train } 249999).clk.span < ((ported { st := .train } 249999).port 3).leftSeek + 250000
    ∧ (let s := ported { st := .negotiate, role := 2 } 0
       (s.port 3).st = .negotiate ∧ s.trainCode 3 farEnd = 0 ∧ (s.port 3).held = [] ∧ (s.port 3).transit = [] ∧ s.rings = [])
    ∧ (ported { st := .negotiate, role := 2 } 0).trainCode 3 { farEnd with protoMin := 0x11 } = 0x0601
    ∧ (ported { st := .negotiate, role := 2 } 0).trainCode 3 { farEnd with role := 1 } = 0x0603
    ∧ (ported { st := .negotiate, role := 2 } 0).trainCode 3 { farEnd with position := 8 } = 0x0602
    ∧ (let s := ported { st := .faulted, since := 1 } 2500001
       (s.port 3).st = .faulted ∧ (s.port 3).since + 2500000 ≤ s.clk.span ∧ bit 1 0 = true)
    ∧ (let s := ported { st := .faulted, since := 1 } 2500000; s.clk.span < (s.port 3).since + 2500000) := by decide +kernel

theorem wit_portLoss :
    (let s := ported upPort 4100
     (s.port 3).st = .up ∧ s.moving 3 = false ∧ (s.port 3).hbAt + 4100 ≤ s.clk.span ∧ (s.port 3).peerValid = true)
    ∧ (let s := ported upPort 4099; s.clk.span < (s.port 3).hbAt + 4100)
    ∧ (∀ k < 36, k ≠ 3 → ((ported upPort 0).port k).st ≠ .up)
    ∧ (at_ (ported upPort 0) 4201).moving 3 = true
    ∧ (let s : State := { ported upPort 0 with txns := [{ id := 9, ports := 8 }], dev := { nextTxn := 10 } }
       (s.txns.map (·.id)).Nodup ∧ (∀ y ∈ s.txns, y.id < s.dev.nextTxn)
         ∧ (∃ y ∈ s.txns, y.st = .opened ∧ bit y.ports 3 = true)) := by decide +kernel

theorem wit_lostPositions :
    (let s := ported upPort 0; (s.port 3).st = .up ∧ (s.port 3).inOrder due.seq = true ∧ (s.port 3).inOrder late.seq = false
       ∧ ((s.port 3).role = 1 ∨ (s.port 3).role = 2) ∧ s.isLost 255 = false)
    ∧ (let s := ported { upPort with role := 3 } 0; (s.port 3).st = .up ∧ (s.port 3).inOrder due.seq = true ∧ (s.port 3).role = 3)
    ∧ (let s : State := { ported upPort 0 with dev := { w1cAt := 0, w1c := [(Config.fabBase + 0xC00, 1)] } }
       s.w1cClears (Config.fabBase + 0xC00) 3 = 2)
    ∧ ((ported {} 0).port 3).st ≠ .up ∧ bit 0x8000000000000000 63 = true ∧ bit 1 63 = false := by decide +kernel

theorem wit_pointsMove :
    (let s := at_ (ported upPort 0) (105 + 4096 - 256)
     (s.port 3).st = .up ∧ (∃ e ∈ s.moves 0 3, s.aroundEvent 0 e.off 256 0 = true ∧ s.firesNow 0 e.off = false))
    ∧ (let s := at_ (ported upPort 0) (105 + 4096)
       let mine := fun (e : BellRec) => e.kind == 3 && e.part == 0 && e.arg0 == 3
       alone s mine = true ∧ ((s.eventsLeft.find? (fun x => mine x.1)).map (·.1.arg1)) = some 1 ∧ (1 : Nat) ≠ (s.port 3).pair)
    -- transactions with a flit in the queue and in the replay buffer
    ∧ (let f : Flit := { type := 1, vc := 2, dst := 7, part := 0, txn := 1, addr := 0, data := [], own := some 9 }
       let s : State := { at_ (ported { upPort with held := [f], replay := [⟨8, some { f with own := some 8 }, none, []⟩] } 0) (105 + 4096) with
         txns := [{ id := 9, ports := 8 }, { id := 8, ports := 8 }], dev := { nextTxn := 10 } }
       (s.txns.map (·.id)).Nodup ∧ (∀ y ∈ s.txns, y.id < s.dev.nextTxn ∧ y.st = .opened)
         ∧ f ∈ (s.port 3).held ∧ f.own = some 9 ∧ (∃ r ∈ (s.port 3).replay, r.flit = some { f with own := some 8 }))
    ∧ (let s := at_ (ported { upPort with pair := 1 } 0) (105 + 4096)
       let mine := fun (e : BellRec) => e.kind == 3 && e.part == 0 && e.arg0 == 3
       alone s mine = true ∧ ((s.eventsLeft.find? (fun x => mine x.1)).map (·.1.arg1)) = some (s.port 3).pair)
    ∧ (let s := at_ (ported upPort 0) (106 + 4096)
       ∀ x ∈ s.eventsNow, (x.1.kind == 3 && x.1.part == 0 && x.1.arg0 == 3) = false)
    ∧ (let s := ported { st := .train, moveAt := some 10 } 2058
       (s.port 3).moveAt = some 10 ∧ (s.port 3).st ≠ .up ∧ 10 + 2048 ≤ s.clk.span)
    ∧ ((ported upPort 0).port 3).moveAt = none := by decide +kernel

/-- Position 7, port 3's primary peer, has been lost since tick 10. -/
def peerLost (t : Nat) : State := { at_ (ported upPort 0) t with fab := { lost := 2 ^ 7, tLoss := [(7, 10)] } }

theorem wit_reconfigBoundary :
    (let s := peerLost (105 + 2 * 4096)
     let t : State := { s with struct := { s.struct with plan := { s.struct.plan with bell := [⟨100, 1, 0, 0, 4096⟩, ⟨5, 5, 0, 0, 0⟩] } } }
     alone t (fun e => e.kind == 5 && e.part == 0) = true ∧ (∃ x ∈ t.eventsLeft, (x.1.kind == 5 && x.1.part == 0) = true)
       ∧ s.isLost 7 = true
       ∧ bit s.fab.bounded 7 = false ∧ Tab.get 0 s.fab.tLoss 7 + 8192 ≤ s.clk.bell ∧ (s.port 3).st ≠ .dark ∧ (s.port 3).pair = 0
       ∧ (s.port 3).role ≠ 3 ∧ bit (s.struct.plan.portRec 3).flags 0 = true ∧ s.primaryPeer 3 = some 7)
    ∧ (let s := peerLost (106 + 2 * 4096)
       ∀ e ∈ s.struct.plan.bell, e.kind = 5 → e.part = 0 → s.firesNow 0 e.off = false) := by decide +kernel

/-- Port 3 leads to position 7. -/
def routedTo (p : Port) : State := { ported p 0 with fab := { routes := [(7, ⟨true, 0x3F, 3⟩)] } }
/-- A write of three bytes into face 0's store. -/
def wtxn (row : Option (Nat × Nat)) : WriteTxn := ⟨7, 0, 5, 2, F + 64, [1, 2, 3], row⟩
/-- The port that an inter-shaft far end lies by. -/
def farPort : Port := { upPort with role := 3 }

theorem wit_writeTransaction :
    (let s := routedTo upPort
     (s.port 3).st = .up ∧ (s.port 3).inOrder due.seq = true ∧ (s.port 3).inOrder late.seq = false
       ∧ roleTakes (s.port 3).role 2 1 = true ∧ s.acceptable 0 (F + 64) 3 = true
       ∧ s.acceptable 1 (F + 64) 3 = false)
    ∧ roleTakes farPort.role 2 1 = false ∧ farPort.inOrder due.seq = true
    ∧ (wtxn none).row = none ∧ (wtxn (some (4, 9))).row = some (4, 9) := by decide +kernel

theorem wit_readRequestAndTagSignal :
    (let s := routedTo upPort
     let u := arrived s 3 (2 % 4) 1 1 due
     (s.port 3).st = .up ∧ roleTakes (s.port 3).role 2 2 = true ∧ s.acceptable 0 F 224 = true ∧ s.eccAt F 224 = none
       ∧ (s.port 3).inOrder due.seq = true ∧ (s.port 3).inOrder late.seq = false ∧ s.ms.softSectors = []
       ∧ s.egress 7 = some 3 ∧ (u.port 3).maySend (2 % 4) = true ∧ (u.port 3).held = [] ∧ (u.port 3).transit = []
       ∧ roleTakes (s.port 3).role 0 6 = true ∧ s.tagAcceptable 0 32767 = true ∧ s.tagAcceptable 0 32768 = false)
    ∧ (let s := routedTo farPort
       let u := arrived s 3 1 1 1 due
       roleTakes (s.port 3).role 1 2 = true ∧ (u.port 3).maySend 1 = true ∧ roleTakes (s.port 3).role 2 2 = false
         ∧ roleTakes (s.port 3).role 0 6 = false)
    := by decide +kernel

/-- An open transaction to position 7. -/
def txnTo (k : TxnKind) : Txn := { id := 5, kind := k, dst := 7, len := 4 }
def owing (k : TxnKind) (t : Nat) : State := { ported upPort t with txns := [txnTo k] }

theorem wit_answers :
    (let s := owing .write 1048576
     ((s.port 3).role = 1 ∨ (s.port 3).role = 2) ∧ (s.port 3).inOrder due.seq = true ∧ (s.port 3).inOrder late.seq = false
       ∧ (txnTo .write).orphan = false ∧ farPort.role = 3 ∧ s.txn? 5 = some (txnTo .write) ∧ (txnTo .write).st = .opened ∧ s.answered 7 5 = some (txnTo .write)
       ∧ s.nakked 7 5 = some (txnTo .write) ∧ (txnTo .write).sentAt + 1048576 ≤ s.clk.span
       ∧ (∀ e ∈ s.ports, ∀ f ∈ e.2.held, f.own ≠ some 5))
    ∧ (let s := owing .read 0; s.answered 7 5 = some (txnTo .read) ∧ [1, 2, 3, 4].length = (txnTo .read).len)
    ∧ (owing .write 1048575).clk.span < (txnTo .write).sentAt + 1048576 := by decide +kernel

def passing_ (dst ttl : Nat) : TransitFlit := ⟨1, dst, 2, 0, ttl, 5, 1⟩

theorem wit_forwarding :
    (let s := routedTo upPort
     let u := arrived s 3 2 1 0 due
     (s.port 3).st = .up ∧ (s.port 3).inOrder due.seq = true ∧ (s.port 3).role ≠ 3 ∧ roleTakes (s.port 3).role 2 1 = true ∧ (passing_ 7 1).dst ≠ s.ownPos
       ∧ s.egress 7 = some 3 ∧ 0 < (passing_ 7 1).ttl ∧ (u.port 3).maySend 2 = true ∧ (u.port 3).held = []
       ∧ (u.port 3).transit = [] ∧ s.egress 8 = none ∧ (passing_ 7 0).ttl = 0)
    ∧ (let s := ported { upPort with transit := [⟨passing_ 7 1, 10, 4, 0⟩, ⟨passing_ 7 1, 11, 4, 1⟩] } 65546
       (∀ f ∈ (s.port 3).transit, s.egress f.fl.src = none)
         ∧ ((s.port 3).transit.filter (fun f => decide (f.since + 65536 ≤ s.clk.span))).map (·.since) = [10]) := by decide +kernel

theorem wit_badAndIdleFlits :
    (let x : Flit := { type := 1, vc := 2, dst := 7, part := 0, txn := 1, addr := 0, data := [] }
     let s := ported { upPort with infl := [3, 0, 0, 0], replay := [⟨8, some x, none, []⟩, ⟨9, some x, none, []⟩] } 0
     (s.port 3).st = .up ∧ (s.port 3).held = [] ∧ (s.port 3).transit = [] ∧ (confirm 8 (s.port 3).replay).map (·.seq) = [9]
       ∧ (s.port 3).idleOnly = false
       ∧ ∀ y ∈ confirm 8 (s.port 3).replay, (y.flit.isSome || y.transit.isSome) = true)
    ∧ ((ported { upPort with idleOnly := true } 0).port 3).idleOnly = true
    ∧ ((ported {} 0).port 3).st ≠ .up
    ∧ upPort.avail.length = 4 ∧ upPort.infl.length = 4 ∧ 0 < nth upPort.avail 3 := by decide +kernel

/-- A heartbeat of position 7, the best candidate. -/
def beat (counts : Bool) : Heartbeat := ⟨7, 9, some (2, 9, 7, 0), 1000, 0, 0, 0, 0, counts⟩
def belled (st : BellState) (epoch : Nat) : State := { ported { upPort with peerEpoch := epoch } 0 with bell := { st := st } }

theorem wit_heartbeats :
    alone (at_ (ported upPort 0) 256) (fun e => e.kind == 7) = true
    ∧ (at_ (ported upPort 0) 256).bell.st.counts = true ∧ (0 : Nat) < 256
    ∧ (ported upPort 255).bell.st.counts = false ∧ ({ lease := 255 } : Clock).lease % 256 ≠ 0
    ∧ ((ported upPort 0).port 3).inOrder due.seq = true ∧ ((ported upPort 0).port 3).inOrder late.seq = false
    ∧ ((at_ (ported upPort 0) 256).port 3).maySend 0 = true ∧ (upPort.held = [] ∧ upPort.transit = [])
    ∧ (∀ x ∈ (at_ base 255).eventsNow, (x.1.kind == 7) = false)
    ∧ (at_ base 256).bell.st.counts = true ∧ (at_ base 256).clk.bell % 256 = (at_ base 256).struct.plan.heartbeat
    ∧ (at_ base 255).clk.bell % 256 ≠ (at_ base 255).struct.plan.heartbeat
    ∧ ((ported {} 0).port 3).st ≠ .up ∧ ((ported { upPort with role := 3 } 0).port 3).role = 3
    ∧ (let s := belled .unsync 0
       (s.port 3).role ≠ 3 ∧ (nextOf s (execHeartbeatReceive 3 due (beat true) s)).bell.upstream = 3)
    ∧ (let s := belled .acquiring 0
       (s.port 3).peerEpoch = s.bell.epoch.toNat % 2 ^ 32 ∧ (beat true).counts = true
         ∧ (nextOf s (execHeartbeatReceive 3 due (beat true) s)).bell.upstream = 3)
    ∧ (let s := belled .locked 0
       (nextOf s (execHeartbeatReceive 3 due (beat true) s)).bell.upstream = 3)
    ∧ (let s := belled .freerun 0
       (beat true).counts = true ∧ (nextOf s (execHeartbeatReceive 3 due (beat true) s)).bell.upstream = 3)
    ∧ (let s := belled .acquiring 1; (s.port 3).peerEpoch ≠ s.bell.epoch.toNat % 2 ^ 32) := by decide +kernel

theorem wit_bellStates :
    (base.boot.st.lit = true ∧ base.bell.st = .unsync ∧ base.electMaster = some base.ownPos
      ∧ base.bell.hearsPtp 0 base.bell.ptpDomain base.bell.ptpIpv6 = true ∧ base.bell.epoch.toNat ≤ 0)
    ∧ base.bell.hearsPtp 0 (base.bell.ptpDomain + 1) false = false
    ∧ (let s : State := { base with bell := { st := .freerun } }
       s.electMaster = some s.ownPos ∧ s.bell.hearsPtp 0 s.bell.ptpDomain s.bell.ptpIpv6 = true)
    ∧ (let s := ported {} 2500000
       s.bell.st = .unsync ∧ s.electMaster = some s.ownPos ∧ s.bell.ptpLocked = false ∧ s.bell.since + 2500000 ≤ s.clk.span)
    ∧ (let s : State := { ported upPort 1034 with
         bell := { st := .locked, upLost := some 10, master := 7, masterValid := true, cands := [(64 * 7 + 5, ⟨2, 9, 0, 1000⟩)] } }
       s.begin_.elect.bell.upLost = some 10 ∧ s.bell.st = .locked ∧ 10 + 1024 ≤ s.clk.span)
    ∧ (let s : State := { ported {} 65536 with bell := { st := .holdover } }
       s.bell.st = .holdover ∧ s.bell.since + 65536 ≤ s.clk.span) := by decide +kernel

theorem wit_masterRank : Rank.above (2, 0, 9) (1, 255, 0) = true ∧ Rank.above (1, 5, 9) (1, 4, 0) = true
    ∧ Rank.above (1, 5, 0) (1, 5, 1) = true ∧ bestRank [(1, 5, 1), (1, 5, 0)] = some (1, 5, 0) := by decide +kernel

/-! ## Statements of power, memory and the host -/

/-- Array 3 of face 191 in a power state. -/
def arrayed (y : Arr) (keep t : Nat) : State := { base with
  faces := [(191, { arrs := [{}, {}, {}, y], keepWarm := keep })], clk := { cyc10 := t } }

theorem wit_stopePower :
    (let s := arrayed ⟨.ramping, 6, 0, []⟩ 0 0; let y := (s.face 191).arrs.getD 3 {}; y.pw = .ramping ∧ y.groups + 1 < 8)
    ∧ (let s := arrayed ⟨.ramping, 7, 0, []⟩ 0 0; let y := (s.face 191).arrs.getD 3 {}; y.pw = .ramping ∧ 8 ≤ y.groups + 1)
    ∧ (let s := arrayed ⟨.on, 8, 5, []⟩ 7 645
       let y := (s.face 191).arrs.getD 3 {}
       y.pw = .on ∧ s.runningOn 191 3 0x30 = none ∧ bit (s.face 191).keepWarm 3 = false ∧ y.idleAt + 640 ≤ s.clk.cyc10)
    ∧ bit ((arrayed ⟨.on, 8, 5, []⟩ 8 645).face 191).keepWarm 3 = true ∧ bit 0 3 = false
    ∧ 3 < ((arrayed ⟨.on, 8, 5, []⟩ 8 645).face 191).arrs.length
    ∧ (arrayed ⟨.on, 8, 5, []⟩ 0 644).clk.cyc10 < 5 + 640
    ∧ (let s := arrayed ⟨.winding, 2, 0, []⟩ 0 0; let y := (s.face 191).arrs.getD 3 {}; y.pw = .winding ∧ 1 < y.groups)
    ∧ (let s := arrayed ⟨.winding, 1, 0, []⟩ 0 0; let y := (s.face 191).arrs.getD 3 {}; y.pw = .winding ∧ y.groups ≤ 1)
    ∧ (let s := arrayed ⟨.off, 0, 0, []⟩ 0 0
       bit 8 3 = true ∧ 3 < (s.face 191).arrs.length ∧ ((s.face 191).arrs.getD 3 {}).pw = .off)
    ∧ (let s := arrayed ⟨.winding, 8, 0, []⟩ 0 0
       bit 8 3 = true ∧ ((s.face 191).arrs.getD 3 {}).pw = .winding ∧ 8 ≤ ((s.face 191).arrs.getD 3 {}).groups) := by decide +kernel

theorem wit_memoryHousekeeping :
    (base.ms.refillAt ≠ some base.clk.span ∧ (base.memRecs.map (·.idx)).Nodup)
    ∧ (let s : State := { base with ms := { refillAt := some 0 } }; s.ms.refillAt = some s.clk.span)
    ∧ (base.ms.period ≠ 0 ∧ base.ms.repairEn = false ∧ bit base.ms.mapped 383 = false ∧ base.boot.st = .ready
      ∧ hbmAddr base.ms.mapped 383 (32 * (Tab.get {} base.ms.pcs 383).scrubAt) / 32 ∉ base.ms.badSectors
      ∧ hbmAddr base.ms.mapped 383 (32 * (Tab.get {} base.ms.pcs 383).scrubAt) / 32 ∉ base.ms.softSectors)
    ∧ (let s : State := { base with ms := { period := 0 } }; s.ms.period = 0)
    ∧ ({ base with boot := { st := .limited } } : State).boot.st ≠ .ready
    ∧ (let s : State := { base with ms := { mapped := 0xFF } }
       s.ms.saving = none ∧ ((List.range Config.nPcs).filter (fun i => bit s.ms.mapped i || bit s.ms.next i)).length ≤ 8)
    ∧ (let s : State := { base with ms := { mapped := 0xFF, next := 2 ^ 383 } }
       8 < ((List.range Config.nPcs).filter (fun i => bit s.ms.mapped i || bit s.ms.next i)).length)
    ∧ (let s : State := { base with ms := { saving := some 1 } }; s.ms.saving = some 1)
    ∧ (bit 1 0 = true ∧ (inState .quiesced).allQuiesced = true ∧ (inState .running).allQuiesced = false
      ∧ (inState .running).ms.repairEn = false)
    ∧ (let s : State := { base with ms := { repairEn := true } }; s.ms.repairEn = true ∧ s.ms.scrambled ≠ some s.clk.free) := by
  decide +kernel

theorem wit_bucketAhead :
    let s : State := { base with ms := { buckets := [(0, { ahead := 1 })] } }
    s.ms.refillAt ≠ some s.clk.span ∧ 0 < (Tab.get ({} : Bucket) s.ms.buckets 0).ahead := by decide +kernel

/-- A part with one session, number 1, that expects request 7. -/
def sess (mode : Nat) : Session := { id := 1, mode := mode, addr := 0xFE80 * 2 ^ 112, expiry := 2 ^ 24, nextSeq := 7 }
def hosted (x : Session) (o : Owner) : State := { base with host := { owner := o, sessions := [x], lastId := 1 } }
/-- The header of its next request, and of one outside a session. -/
def turn : Hdr := { session := 1, seq := 7 }
def outsideHdr : Hdr := { seq := 7 }
/-- The premises of a request in its turn, as values. -/
def wholeReq (s : State) (h : Hdr) : Bool :=
  s.boot.st == .ready && h.version == 1 && h.flags == 0 && h.rsv == 0 && h.status == 0 && s.spdmOk h
    && (s.hostPort h.port).canReach h.src
def inTurn (s : State) (h : Hdr) (x : Session) : Bool :=
  wholeReq s h && h.session != 0 && decide (s.session? h.session = some x) && h.spdm == x.spdm && h.seq == x.nextSeq
    && decide (h.seq < 2 ^ 32) && x.ahead.isEmpty && decide (x.held = [])
theorem wholeReq_spec (s : State) (h : Hdr) (e : wholeReq s h = true) : WholeRequest s h := by
  simp only [wholeReq, Bool.and_eq_true, beq_iff_eq] at e
  obtain ⟨⟨⟨⟨⟨⟨a, b⟩, c⟩, d⟩, f⟩, g⟩, i⟩ := e
  exact ⟨a, b, c, d, f, g, i⟩
theorem inTurn_spec (s : State) (h : Hdr) (x : Session) (e : inTurn s h x = true) : InTurn s h x := by
  simp only [inTurn, Bool.and_eq_true, beq_iff_eq, decide_eq_true_eq, bne_iff_ne, List.isEmpty_iff] at e
  obtain ⟨⟨⟨⟨⟨⟨⟨w, i⟩, j⟩, k⟩, l⟩, m⟩, n⟩, o⟩ := e
  exact ⟨wholeReq_spec s h w, i, j, k, l, m, n, o⟩

theorem wit_inTurn : InTurn (hosted (sess 1) .owned) turn (sess 1) := inTurn_spec _ _ _ (by decide +kernel)
theorem wit_wholeRequest : WholeRequest (hosted (sess 1) .owned) outsideHdr := wholeReq_spec _ _ (by decide +kernel)
theorem wit_oneDatagram : OneDatagram turn (.memWrite 0 [1, 2]) := ⟨by decide, fun _ => by decide⟩

theorem wit_aditSessions :
    inTurn (hosted (sess 0) .orphaned) turn (sess 0) = true
    ∧ inTurn { hosted (sess 1) .owned with parts := [(0, { st := .quiesced })] } turn (sess 1) = true
    ∧ ({ hosted (sess 1) .owned with parts := [(0, { st := .quiesced })] } : State).allQuiesced = true
    ∧ (∀ e ∈ (hosted (sess 1) .owned).host.ports, e.2.roceq = [])
    ∧ (let s : State := { hosted (sess 1) .owned with
         host := { owner := .owned, sessions := [sess 1], ports := [(0, { roceq := [⟨63, 1, 0, [1]⟩] })] } }
       inTurn s turn (sess 1) = true ∧ ∃ e ∈ s.host.ports, e.2.roceq ≠ [])
    ∧ (hosted (sess 1) .owned).allQuiesced = false
    ∧ (let x := { sess 0 with spdm := some 3 }
       let s : State := { hosted x .orphaned with host := { owner := .orphaned, sessions := [x], spdm := [⟨3, true, 5, 0, 0⟩] } }
       inTurn s { turn with spdm := some 3 } x = true ∧ s.host.owner = .orphaned ∧ x.spdm ≠ none)
    ∧ (hosted (sess 0) .owned).host.owner ≠ .orphaned
    ∧ (base.openCode outsideHdr 0 24 = 0 ∧ base.openCode outsideHdr 0 32 = 0 ∧ base.openCode outsideHdr 0 33 ≠ 0
      ∧ base.openCode outsideHdr 1 24 = 0x0B07 ∧ (List.replicate 16 0).length = 16)
    ∧ (let s : State := { base with host := { spdm := [⟨3, true, 5, 0, 0⟩] } }
       s.openCode { outsideHdr with spdm := some 3 } 1 24 = 0 ∧ s.spdmOk { outsideHdr with spdm := some 3 } = true)
    ∧ (let s : State := { hosted (sess 1) .owned with clk := { lease := 2 ^ 24 } }
       s.session? 1 = some (sess 1) ∧ (sess 1).expiry ≤ s.clk.lease)
    ∧ (let s : State := { hosted (sess 1) .owned with clk := { lease := 2 ^ 24 - 1 } }; s.clk.lease < (sess 1).expiry)
    ∧ (let s : State := { base with host := { reservedUntil := some 9 }, clk := { lease := 9 } }
       s.host.reservedUntil = some 9 ∧ 9 ≤ s.clk.lease)
    ∧ (let s : State := { base with host := { reservedUntil := some 9 }, clk := { lease := 8 } }; s.clk.lease < 9)
    ∧ (let x := { sess 1 with frags := [⟨8, 5, 2, [0]⟩] }
       let s : State := { hosted x .owned with clk := { lease := 2 ^ 20 + 5 } }
       ∃ f ∈ x.frags, x.id ≠ 0 ∧ s.session? x.id = some x ∧ f.first + 2 ^ 20 ≤ s.clk.lease)
    ∧ (let s : State := { base with host := { spdm := [⟨3, true, 5, 1, 0⟩] }, clk := { lease := 250000000 } }
       s.spdm? 3 = some ⟨3, true, 5, 1, 0⟩ ∧ 0 + 1 * 250000000 ≤ s.clk.lease)
    ∧ (let s : State := { base with host := { spdm := [⟨3, true, 5, 1, 0⟩] }, clk := { lease := 249999999 } }
       s.clk.lease < 0 + 1 * 250000000) := by decide +kernel

theorem wit_aditAccess :
    (let s := hosted (sess 1) .owned
     inTurn s turn (sess 1) = true ∧ (sess 1).mode = 1
       ∧ (∀ a ∈ [Config.devBase, Config.bellBase], regOk a = true ∧ a < Config.hfcBase ∧ a ≠ Config.memBase + 0x0210)
       ∧ regOk 4 = false ∧ s.hfcCode F 65536 = 0 ∧ s.eccAt F 65536 = none ∧ s.hfcCode Config.devBase 1 ≠ 0
       ∧ s.hfcCode F 3 = 0 ∧ s.partEcc F 3 = 0 ∧ s.dev.reset = none ∧ s.ms.softSectors = [])
    ∧ (let s : State := { hosted (sess 1) .owned with ms := { badSectors := [0x1000 / 32] } }
       inTurn s turn (sess 1) = true ∧ s.hfcCode 0x1000 4 = 0 ∧ (s.eccAt 0x1000 4).isSome = true)
    ∧ (let s : State := { hosted (sess 1) .owned with ctxs := [(0, ctxA)] }
       (s.ctx 0).st ≠ .idle ∧ unwrap32 (s.ctx 0).tail (64 % 2 ^ 32) < (s.ctx 0).tail + 2 ^ 31
         ∧ unwrap32 (s.ctx 0).tail (64 % 2 ^ 32) - (s.ctx 0).head ≤ 2 ^ (s.ctx 0).ringLog2)
    ∧ (let s : State := { hosted (sess 1) .owned with dev := { reset := some ⟨1, 0⟩ } }; s.dev.reset ≠ none) := by decide +kernel

/-- A grant of one expert of layer 0 of partition 0 for shift 0 (R299). -/
def grantFor : List Nat := [0, 0, 1, 0] ++ List.replicate 28 0 ++ [0, 0, 0, 0, 4, 0, 0, 0]
/-- A window of one page over HBM (R503). -/
def winReq : WindowReq := ⟨63, 0, 3, 0, 9, 0x1000, 0x1000, 0, 5⟩
/-- The body of ADDR_SET that takes every address from port 1 and saves that (R490). -/
def noAddr : List Nat := [1, 1, 0, 0, 0xFF, 0, 0, 0] ++ List.replicate 72 0

theorem wit_aditSettings :
    (let s := hosted (sess 1) .owned
     s.struct.staging.length = 0 ∧ s.struct.loadState < 2 ∧ 8 ≠ s.struct.staging.length ∧ s.grantCode 0 0 grantFor = 0x0514
       ∧ (sess 1).overflow = 0 ∧ reqBodyOk (.windowOpen winReq) = true ∧ s.windowCode winReq = 0
       ∧ s.windowCode { winReq with length := 1 } = 0x0B0F ∧ (s.window 63).isOpen = false
       ∧ addrOk (noAddr.map (· % 256)) = true ∧ addrOk [] = false)
    ∧ (let s : State := { hosted (sess 1) .owned with parts := [(0, { grantArea := ⟨true, 0x100000, 0⟩ })] }
       s.grantCode 0 0 grantFor = 0)
    ∧ (let s : State := { hosted (sess 1) .owned with host := { owner := .owned, sessions := [sess 1], windows := [(63, { isOpen := true })] } }
       inTurn s turn (sess 1) = true ∧ (s.window 63).isOpen = true ∧ (∀ e ∈ s.host.closing, e.1 ≠ 63) ∧ s.answering 63 = false)
    ∧ (let s : State := { hosted (sess 1) .owned with host := { owner := .owned, sessions := [sess 1], windows := [(63, { isOpen := true })]
                                                                ports := [(0, { roceq := [⟨63, 1, 0, [1]⟩] })] } }
       inTurn s turn (sess 1) = true ∧ s.answering 63 = true)
    ∧ (let x := { sess 1 with telePeriod := 14, teleAddrs := [Config.bellBase] }
       let s : State := { hosted x .owned with clk := { lease := 16384 } }
       s.session? x.id = some x ∧ s.boot.st = .ready ∧ (s.hostPort x.port).canReach x.addr = true ∧ x.telePeriod ≠ 0 ∧ s.clk.lease % 2 ^ x.telePeriod = 0
         ∧ x.teleAt ≠ s.clk.lease ∧ (∀ a ∈ x.teleAddrs, regOk a = true ∧ a ≠ Config.memBase + 0x0210))
    -- two messages that are not acknowledged, the first since 2^18 ticks
    ∧ (let u : Nat → Nat → Unacked := fun n t => ⟨n, t, .event ⟨0x01, 0, 0, 0, 0, []⟩⟩
       let x := { sess 1 with unacked := [u 3 0, u 4 1] }
       let s : State := { hosted x .owned with clk := { lease := 2 ^ 18 } }
       s.session? x.id = some x ∧ (s.hostPort x.port).canReach x.addr = true
         ∧ (x.unacked.filter (fun u => decide (u.sentAt + 2 ^ 18 ≤ s.clk.lease))).map (·.seq) = [3])
    ∧ (let x := { sess 1 with telePeriod := 14 }
       let s : State := { hosted x .owned with clk := { lease := 16385 } }
       s.session? x.id = some x ∧ s.clk.lease % 2 ^ x.telePeriod ≠ 0) := by decide +kernel

theorem wit_spdmAndSecured :
    let s : State := { base with host := { spdm := [⟨3, true, 5, 0, 0⟩, ⟨4, false, 0, 0, 0⟩], lastSpdm := 4 } }
    wholeReq s outsideHdr = true ∧ outsideHdr.session = 0 ∧ outsideHdr.spdm = none
      ∧ turn.fragCount = 1 ∧ 46 + turn.bodyLen ≤ 8192 ∧ (s.spdm? 3).isSome = true
      ∧ s.host.spdm.find? (fun z => z.id == 4 && !z.established) = some ⟨4, false, 0, 0, 0⟩ ∧ s.trusts [] true = true
      ∧ (s.host.spdm.filter (·.established)).length < 16 ∧ s.trusts [] false = false
      ∧ wholeReq s { outsideHdr with spdm := some 3 } = true ∧ (128 : Nat) ≤ 8192 := by decide +kernel

/-- Window 63 over HBM from 0x1000, which expects packet 5. -/
def win : Window := { isOpen := true, access := 3, base := 0x1000, length := 0x1000, psn := 5, rkey := 9, gid := 0xFE80 * 2 ^ 112 }
def rdmaTo (x : Window) : State := { base with host := { windows := [(63, x)] } }

theorem wit_hostPortsAndWindows :
    (let s := rdmaTo win
     let x := s.window 63
     s.boot.st = .ready ∧ s.ms.repairEn = false ∧ (s.hostPort 1).paused = false ∧ x.isOpen = true ∧ x.error = false
       ∧ 5 < 2 ^ 24 ∧ x.psn = 5 ∧ bit x.access 0 = true ∧ bit x.access 1 = true ∧ 0xFFD + 3 ≤ x.length ∧ x.length < 0xFFE + 3
       ∧ s.eccAt (x.base + 0xFFD) 3 = none ∧ (s.hostPort 1).v4 = 0 ∧ (s.hostPort 1).canReach x.gid = true ∧ x.rkey = 9
       ∧ s.readsOut 63 < 16)
    ∧ (let s : State := { rdmaTo win with host := { (rdmaTo win).host with ports := [(1, { paused := true, pfcPriority := 3 })] } }
       (s.hostPort 1).paused = true ∧ (s.hostPort 1).pfcPriority < 8
         ∧ (∀ k ∈ (s.hostPort 1).roceq, (s.hostPort 1).canReach (s.window k.window).gid = true) ∧ s.host.closing = [])
    -- packets of two partitions: the heavier one's first, then by what each has had
    ∧ (let k : Nat → Nat → RocePkt := fun i n => ⟨i, 0, n, []⟩
       let s : State := { rdmaTo win with
         struct := { plan := { romPlan with shares := [⟨1, 0, 1⟩, ⟨1, 1, 3⟩] } }
         host := { windows := [(63, win), (62, { win with part := 1 })], ports := [(1, { roceq := [k 63 1, k 63 2, k 62 3, k 62 4] })] } }
       (s.hostPort 1).roceq.map s.rocePart = [0, 0, 1, 1]
         ∧ s.roceNext 1 [] (s.hostPort 1).roceq = some (k 62 3)
         ∧ (∀ j ∈ (s.hostPort 1).roceq, (s.hostPort 1).canReach (s.window j.window).gid = true))
    ∧ (base.hostPort 1).discards ⟨64, none, 0, some 9, false⟩ = true
    ∧ bit ((rdmaTo { win with access := 2 }).window 63).access 0 = false
    ∧ (let s := at_ (rdmaTo { win with rate := 15, rateLog := 4 }) 16384
       let x := s.window 63
       s.bell.st.counts = true ∧ s.clk.bell % 16384 = 0 ∧ s.host.restoredAt ≠ some s.clk.bell ∧ x.isOpen = true
         ∧ 16 * 2 ^ x.rateLog ≤ 16 * x.rate + 2 ^ x.rateLog)
    ∧ (let x := (rdmaTo { win with rateLog := 1 }).window 63; 16 * x.rate + 2 ^ x.rateLog < 16 * 2 ^ x.rateLog)
    ∧ (at_ base 16383).clk.bell % 16384 ≠ 0
    ∧ (let s : State := { base with host := { ports := [(1, { settings := List.replicate 8 0 ++ [10, 0, 0, 1], pfcPriority := 3 })] } }
       (s.hostPort 1).v4 ≠ 0 ∧ (s.hostPort 1).pfcPriority < 8) := by decide +kernel

theorem wit_flashOperations :
    base.boot.st.serves = true ∧ base.boot.flashJob = none
    ∧ (let s : State := { base with boot := { st := .ready, flashJob := some ⟨4, 0, []⟩ } }
       s.boot.st.serves = true ∧ s.boot.flashJob = some ⟨4, 0, []⟩)
    ∧ (let s : State := { base with boot := { st := .ready, flashAddr := BitVec.ofNat 64 Config.devBase } }
       s.begin_.flashSource s.boot.flashAddr.toNat 48 = false)
    ∧ (base.begin_.flashSource base.boot.flashAddr.toNat 48 = true ∧ base.flash.anchors.length < 8)
    ∧ (let s : State := { base with flash := { trusted := .of (List.range 8) } }
       s.begin_.flashSource s.boot.flashAddr.toNat 48 = true ∧ 8 ≤ s.flash.anchors.length)
    ∧ (let s : State := { base with struct := { plan := romPlan, source := 2 } }; s.struct.source = 2)
    ∧ base.struct.source ≠ 2
    ∧ (∀ j ∈ [(⟨2, 0, []⟩ : FlashJob), ⟨3, 0, []⟩, ⟨4, 0, []⟩, ⟨5, 0, []⟩, ⟨6, 0, []⟩, ⟨1, 0x0935, []⟩],
        ({ base with boot := { st := .ready, flashJob := some j } } : State).boot.flashJob = some j) := by decide +kernel

/-- A part in a boot state, with one image in a slot. -/
def booting (st : BootState) (i : Nat) (img : List Nat) : State := { State.reset with
  boot := { st := st, cold := false, hfImage := List.replicate 128 0 }, flash := { fw := [(i, ⟨.of .active, img⟩)] } }

/-- Whatever headframe image passes the checks (its signatures are the spec's own, log entry 6), it is the one that is tried. -/
theorem wit_bootHeadframe (b : Nat) (img : List Nat) (h : (booting .hfVerify 0 img).slotCode b 1 0 = 0) :
    (booting .hfVerify 0 img).boot.st = .hfVerify ∧ (booting .hfVerify 0 img).fwOrder 1 = 0 :: [1]
      ∧ (booting .hfVerify 0 img).slotCode b 1 0 = 0 := ⟨rfl, by simp [Blk.fwOrder, fwSlots, booting, Blk.fw, Tab.get, FwSlot.st, Twin.read, Twin.useB, Twin.of], h⟩

/-- The same of a fabric image that pairs with the one that runs. -/
theorem wit_bootFabric (b : Nat) (img : List Nat) (h : (booting .hfStart 2 img).slotCode b 2 2 = 0)
    (p : fwPairs (List.replicate 128 0) img = true) :
    (booting .hfStart 2 img).boot.st = .hfStart ∧ (booting .hfStart 2 img).boot.cold = false
      ∧ (booting .hfStart 2 img).fwOrder 2 = 2 :: [3] ∧ (booting .hfStart 2 img).slotCode b 2 2 = 0
      ∧ fwPairs (booting .hfStart 2 img).boot.hfImage ((booting .hfStart 2 img).fw 2).image = true := ⟨rfl, rfl, by simp [Blk.fwOrder, fwSlots, booting, Blk.fw, Tab.get, FwSlot.st, Twin.read, Twin.useB, Twin.of], h, p⟩

theorem wit_bootStages :
    (booting .rom 0 []).boot.st = .rom ∧ (booting .identity 0 []).boot.st = .identity
    ∧ (let s := booting .hfVerify 0 []; s.boot.st = .hfVerify ∧ (∀ i ∈ s.fwOrder 1, s.slotCode 0 1 i ≠ 0))
    ∧ (let s := booting .hfStart 2 []; s.boot.cold = false ∧ (∀ i ∈ s.fwOrder 2, s.slotCode 0 2 i ≠ 0))
    ∧ (let s := booting .plan 0 []; s.boot.st = .plan ∧ s.flash.planSel = none)
    ∧ (let s : State := { booting .plan 0 [] with flash := { selected := .of (some 1), planB := smallImage 3 } }
       s.flash.planSel = some 1 ∧ vCheckWord (smallImage 3) = none ∧ vRest (smallImage 3) s.usable s.pwr.feed = none)
    ∧ (let s : State := { booting .plan 0 [] with flash := { selected := .of (some 0), planA := smallImage 4 } }
       s.flash.planSel = some 0 ∧ vCheckWord (smallImage 4) = none
         ∧ vRest (smallImage 4) s.usable s.pwr.feed = some ⟨0x0809, 1, 104⟩)
    ∧ (let s : State := { booting .plan 0 [] with flash := { selected := .of (some 0) } }
       s.boot.st = .plan ∧ s.flash.planSel = some 0 ∧ (vCheckWord s.flash.planA).isSome = true)
    ∧ base.boot.st ≠ .rom := by decide +kernel

/-- A flash that binds no die fits every die; one that binds another key fits none. -/
theorem wit_identityFits (die : Nat) (i : Identity) :
    (booting .identity 0 []).flash.fits die i = true ∧ ({ rpKey := some (0 :: i.flash) } : Flash).fits die i = false := by
  constructor
  · match die with
    | 0 => rfl
    | 1 => rfl
    | _ + 2 => rfl
  · simp [Flash.fits]

/-- A part that has been tripped, with the ticks that VIN has been away and RESET_N low. -/
def trippedOff (vin : Bool) (away low : Nat) : State := { State.reset with
  pwr := { pwrGood := false, vin := vin, tripped := 0x0A20, away := away, low := low }, flash := { tripCode := 0x0A20 } }

/-- What `TripEnds` says, as a value. -/
def ends (s : State) : Bool :=
  s.pwr.tripped != 0 && (decide (250000000 ≤ s.pwr.away + b2n (!s.pwr.vin)) || decide (250000 ≤ s.pwr.low + b2n (!s.pwr.resetN)))
theorem tripEnds_iff_ends (s : State) : TripEnds s ↔ ends s = true := by
  simp [TripEnds, ends]

theorem wit_supplyAndTrips :
    base.pwr.pwrGood = true ∧ base.pwr.vin = true ∧ base.pwr.released = false ∧ base.pwr.brakeN = true
    ∧ (let s : State := { State.reset with pwr := { pwrGood := false, vin := false, latched := false } }
       s.pwr.pwrGood = false ∧ s.pwr.tripped = 0 ∧ s.pwr.latched = false)
    ∧ (State.reset.boot.st = .off ∧ State.reset.pwr.vin = true ∧ State.reset.pwr.pwrGood = true ∧ State.reset.pwr.refclk = true
      ∧ State.reset.pwr.tripped = 0)
    ∧ (let s : State := { State.reset with pwr := { resetN := true, refclk := false } }
       s.boot.st = .off ∧ s.pwr.vin = true ∧ s.pwr.pwrGood = true ∧ s.pwr.resetN = true ∧ s.pwr.tripped = 0)
    ∧ (∀ e ∈ [(true, 0, 249998), (false, 249999998, 0)],
        let s := trippedOff e.1 e.2.1 e.2.2
        s.pending = [] ∧ s.pwr.tripped ≠ 0 ∧ ends s = false ∧ s.pwr.pwrGood = false)
    ∧ (∀ e ∈ [(true, 0, 249999), (false, 249999999, 0)],
        let s := trippedOff e.1 e.2.1 e.2.2
        s.pending = [] ∧ ends s = true ∧ s.pwr.pwrGood = false ∧ s.pwr.undervolt = false) := by decide +kernel

theorem wit_governorAndHeat :
    ({ base.pwr with resetN := true } : Pwr).released = true ∧ base.pwr.released = false ∧ ({ base.pwr with brakeN := false } : Pwr).brakeN = false
    ∧ base.pwr.brakeN = true ∧ base.clk.lease % 2500 = 0 ∧ base.pwr.sampledAt ≠ some base.clk.lease ∧ base.pwr.cap = 1000 ∧ base.pwr.cap < 1001
    ∧ 969 * 100 < base.pwr.cap * 97 ∧ base.pwr.cap * 97 ≤ 970 * 100
    ∧ tempReaches ⟨0, 0, 0, 115, 0, 0, 0, 0⟩ 115 105 = true ∧ tempReaches ⟨0, 0, 104, 114, 0, 0, 0, 114⟩ 115 105 = false
    ∧ base.pwr.therm.code < (tempLevel ⟨0, 0, 0, 95, 0, 0, 0, 0⟩).code ∧ base.pwr.pwrGood = true
    ∧ (let s : State := { base with pwr := { therm := .critical } }
       (tempCooled ⟨0, 0, 0, 100, 0, 0, 0, 0⟩).code < s.pwr.therm.code) := by decide +kernel

/-! ## What WellFormed refuses: an ill-formed term for each of its checks -/

theorem test_illFormedUnits :
    (Instr.nop 65536).wf = false ∧ (Instr.commandFetch 192).wf = false ∧ (Instr.route 16).wf = false
    ∧ (Instr.shiftMark 16).wf = false ∧ (Instr.lossOfLight 36).wf = false ∧ (Instr.hostPacketDiscard 2 ⟨64, none, 0, none, true⟩).wf = false
    ∧ (Instr.devTagSignal 32768 1).wf = false ∧ (Instr.stopeRampStep 0 4).wf = false ∧ (Instr.scrubRead 384 .ok false).wf = false
    ∧ (Instr.collectivePhase 0 8 0).wf = false ∧ (Instr.ackReceive 0 {} 256 0).wf = false ∧ (Instr.cnpReceive 0 64).wf = false
    ∧ (Instr.hostDeadline 0 256).wf = false ∧ (Instr.tileMm 0 4 none).wf = false ∧ (Instr.tileMv 0 1 none).wf = false
    ∧ (Instr.fabLostClear 4 0).wf = false ∧ (Instr.commandIssue 191 false).wf = true := by decide

theorem test_illFormedValues :
    (Instr.devDoorbell 0 (2 ^ 32)).wf = false ∧ (Instr.registerWrite (2 ^ 48) 0).wf = false
    ∧ (Instr.leaseRenew { port := 2 }).wf = false ∧ (Instr.leaseRenew { version := 256 }).wf = false
    ∧ (Instr.addrSet {} [256]).wf = false ∧ (Instr.regRead {} [2 ^ 64]).wf = false ∧ (Instr.doorbell {} [(0, 65536, 0)]).wf = false
    ∧ (Instr.secured {} 1 true {} (.windowClose 256 0)).wf = false ∧ (Instr.reservedMessageType {} 0x20).wf = false
    ∧ (Instr.reservedMessageType {} 0x7F).wf = true ∧ (Instr.thermalLevelRise ⟨0, 0, 0, 256, 0, 0, 0, 0⟩).wf = false
    ∧ (Instr.hfStartComplete 0 [⟨384, none⟩]).wf = false ∧ (Instr.pfcFrameReceive 0 8 true).wf = false
    ∧ (Instr.rdmaRead 0 0 (2 ^ 32) 0 0 1 0).wf = false ∧ (Instr.rdmaRead 0 0 0 (2 ^ 24) 0 1 0).wf = false
    ∧ (Instr.idleFlitReceive 0 { ack := 2 ^ 16 } false 0).wf = false := by decide

theorem test_noWordSpellsACommand : decodeTableWord 128 0x11 = none ∧ base.withFetchWord 128 0x11 = base := by decide +kernel

/-! ## The spec's worked examples -/

/-- "Naming a face": face 37 and its gallery (R30). -/
theorem test_faceAddresses :
    Config.faceBase + 37 * Config.faceSize = 0x0110_0940_0000 ∧ Config.faceRegBase + 37 * 0x10000 = 0x0200_2025_0000
    ∧ Config.galBase + 3 * Config.galSize = 0x0100_0600_0000 ∧ Config.galRegBase + 3 * 0x100000 = 0x0200_1030_0000
    ∧ place (2 ^ 39) 0x0110_0940_0000 = .face 37 ∧ place (2 ^ 39) 0x0100_0600_0000 = .gal 3 := by decide +kernel

/-- "A packed weight": the image of its descriptor, where element (1000, 5) lies, and the view that is refused (R138, R139). -/
def weight (slabs : Nat) (use : Nat) : List Nat :=
  [0x01, use * 16 + 3, 2, 2, 0xFF, 0, 0, 0] ++ leBytes 6 0x0030_0000_0000 ++ [0, 0] ++ leBytes 6 0x0030_0000_0000 ++ [0, 0]
    ++ leBytes 4 0x42000 ++ [0, 0, 0, 0] ++ leBytes 4 8192 ++ leBytes 4 8192 ++ List.replicate 8 0
    ++ leBytes 4 1 ++ leBytes 4 slabs ++ List.replicate 8 0
theorem test_packedWeight :
    (let d := readImg (weight 32 1)
     d.mx = true ∧ elementAddress d d.base [1000, 5] = (((8 * (d.base + 43272) : Nat) : Int), some ((d.base + 43039 : Nat) : Int))
       ∧ reachOf d = ((d.base : Int), (d.base : Int) + 69206015) ∧ writeStrides d = 0)
    ∧ writeStrides (readImg (weight 31 2)) = 0x010C ∧ writeStrides (readImg (weight 0 2)) = 0x010B := by decide +kernel

/-- "A BF16 chunk": the small product is lost beside the large ones, and kept in a chunk of its own (R214). -/
def pairsBf (k1 : Nat) : List (Machine.Num × Machine.Num) :=
  (List.range 64).map (fun i =>
    let a := if i = 0 then 0x4480 else if i = k1 then 0x35C0 else if i = 2 then 0xC480 else 0
    let b := if i = 0 then 0x4480 else if i = k1 then 0x3580 else if i = 2 then 0x4480 else 0
    (decode a 1, decode b 1))
theorem test_bf16Chunk : refDot (pairsBf 1) true = 0 ∧ refDot (pairsBf 32) true = 0x2BC00000 := by decide +kernel

/-- "A stochastic draw" (R220, R222). -/
theorem test_stochasticDraw :
    draw 0 0 0 0 0 = 0x6627E8D5 ∧ narrow 0x3F80C000 1 (some 0x6627E8D5) = (0x3F81, 0)
    ∧ narrow 0x3F80C000 1 (some 0x3FFFFFFF) = (0x3F80, 0) ∧ narrow 0x3F80C000 1 none = (0x3F81, 0) := by decide +kernel

/-- "One pruned layer": group codes, positions and column codes (R230, R233), and the code that is refused. -/
theorem test_pruneCodes :
    ([(0, 1), (1, 3), (2, 3), (0, 3), (1, 2), (0, 2)].map (fun p => runCode p.1 p.2)) = [0x20, 0x05, 0x02, 0x08, 0x11, 0x14]
    ∧ groupPos 0x05 = (1, 3) ∧ groupCode 0x05 0 = 0 ∧ groupCode 0x06 0 = 0x0302
    ∧ ([0x20, 0x05, 0x02, 0x08, 0x11, 0x14, 0x20, 0x02].zipIdx.map (fun e => e.1 * 2 ^ (6 * e.2))).sum = 0x0A0511202160 := by
  decide +kernel

/-- "One bucket on four devices": the hops of element 4,000,000 on the scale 2^-4, and the means (R404). -/
theorem test_bucketHops :
    roundToCode 3 0x3E99999A (-4) = 0x4A ∧ roundToCode 3 (fpAdd 0x3EA00000 0x3F800000) (-4) = 0x5A
    ∧ roundToCode 3 (fpAdd 0x3FA00000 0x40400000) (-4) = 0x68 ∧ roundToCode 3 (fpAdd 0x40800000 0xBF4CCCCD) (-4) = 0x65
    ∧ fpDiv 0x40500000 0x40800000 = 0x3F500000 ∧ fpDiv 0x40800000 0x40400000 = 0x3FAAAAAB
    ∧ (List.range 5).map (chunkLo 256 7168000 4) = [0, 1792000, 3584000, 5376000, 7168000] := by decide +kernel

/-- "One mapped-out pseudo-channel": where the subroutine's line lies (R427), and the regulator's gain (R434). -/
theorem test_mappedOut :
    hbmLocate (2 ^ 77) 0x0030_0000_2000 = (260, 0x20156300) ∧ (hbmLocate 0 0x0030_0000_2000).1 = 32
    ∧ refill ⟨1, 192, 574, 704, 896, 256⟩ ⟨0, 0, 0⟩ = ⟨405504, 516096, 0⟩ := by decide +kernel

/-- "A bounded tile": the wait's comparison at the mark and at the sixth signal (R105, R113). -/
theorem test_boundedTile :
    waitMet 0xFFFFFFFE 4 = false ∧ waitMet 4 4 = true
    ∧ (let s : State := { marked with struct := { plan := { romPlan with bell := [⟨0, 1, 0, 0, 25000000⟩] } } }
       (at_ s 1024990000).curShift 0 = 40 ∧ (at_ s 1025000000).curShift 0 = 41) := by decide +kernel

/-- "A feed under strain": BRAKE_N takes the duty from 16 to 4 and posts 0x0A03 and 0x0A02 (R543); at 1,746 W it stays. -/
theorem test_brake :
    (let s : State := { base with pwr := { mode := 0, resetN := true }, host := { sessions := [sess 1] } }
     let t := nextOf s (exec .brakeNAssert s)
     t.pwr.duty = 4 ∧ t.pwr.cap = 1800
       ∧ t.out.map (fun o => match o with | .message _ _ _ _ _ (.event e) => e.code | _ => 0) = [0x0A03, 0x0A02])
    ∧ (let p : Pwr := { mode := 0, brakeN := false, duty := 4, pinW := 1746 }; p.nextDuty = 4 ∧ { p with pinW := 1745 }.nextDuty = 5
      ∧ { p with pinW := 1801 }.nextDuty = 3) := by decide +kernel

/-- "A grant on the deadline": a grant outside the session's SPDM session draws 0x0B07. -/
theorem test_unsecuredGrant :
    (let x := { sess 1 with spdm := some 3 }
     let s := hosted x .owned
     (nextOf s (exec (asks turn (.grant 0 7 0 grantFor)) s)).out = [.reply (hdrBack turn) none 0x30 1 7 0x0B07 (0, 1) []]) := by decide +kernel

/-- "A neighbour goes dark": the loss is declared by the port that sees it, and counted (R374, R376). -/
theorem test_neighbourDark :
    (let s := at_ { base with ports := [(3, upPort)] } 2000000150
     let t := nextOf s (exec (.lossOfLight 3) s)
     (t.port 3).st = .seek ∧ t.isLost 7 = true ∧ Tab.get 0 t.fab.tLoss 7 = 2000000150 ∧ t.fab.lossLastPos = 7)
    ∧ (2000000150 + 8192 : Nat) = 2000008342 := by decide +kernel

/-! ## One step of commands of each family -/

/-- R85: a doorbell's low 32 bits name a tail in [tail, tail + 2^31). -/
theorem test_tailWraps : unwrap32 (2 ^ 32 - 1) 2 = 2 ^ 32 + 2 ∧ unwrap32 5 5 = 5 ∧ unwrap32 5 4 = 2 ^ 32 + 4 := by decide +kernel

/-- R112: a TAG_SIGNAL adds and wraps. -/
theorem test_tagSignal :
    (let x := fl [0x10, 0, 7, 0, 3] .tag .wait
     let s : State := { one x with tags := [(7, 0xFFFFFFFE)] }
     (nextOf s (exec (.tagSignal 0) s)).tag 7 = 1) := by decide +kernel

/-- R155: COPY moves the elements of one descriptor to another, here four INT8 elements written with stride 2. -/
theorem test_copy :
    (let x := mover 0x23
     let s : State := { desk [plain 8 F [4] [1], plain 8 (F + 0x4000) [4] [2]] x with mem := [(F, 1), (F + 1, 2), (F + 2, 3), (F + 3, 4)] }
     let t := nextOf s (exec (.copy 0) s)
     (List.range 8).map (fun i => t.byte (F + 0x4000 + i)) = [1, 0, 2, 0, 3, 0, 4, 0] ∧ t.byte F = 1 ∧ (t.flight? 1).map (·.phase) = some .done)
    := by decide +kernel

/-- R196: GELU and the other activations are built on exp2_approx: 1/(1 + 2^0) and ReLU of both signs. -/
theorem test_activations :
    sigmoidApprox 0 = 0x3F000000 ∧ exp2Approx 0 = ONE32 ∧ actForward 1 0xBF800000 % 2 ^ 31 = 0 ∧ actForward 1 0x3F800000 = 0x3F800000 := by
  decide +kernel

/-- R198: a block of 32 whose greatest magnitude rounds above the largest finite value takes the next scale. -/
theorem test_mxBlock :
    (mxBlock (0x43F80000 :: List.replicate 31 0) 3).1 = 0x80
    ∧ (mxBlock (0x3F800000 :: List.replicate 31 0) 3).1 = 119 ∧ (mxBlock (List.replicate 32 0) 3).1 = 0x7F := by decide +kernel

/-- FP32 arithmetic (R211): sums cancel to +0, infinities of opposite sign give a NaN, overflow an infinity, ties go to even. -/
theorem test_fp32 :
    fpAdd 0x3F800000 0xBF800000 = 0 ∧ fpAdd 0x7F800000 0xFF800000 = NAN32 ∧ fpMul 0x7F000000 0x40800000 = 0x7F800000
    ∧ fpAdd 0x4B800000 0x3F800000 = 0x4B800000 ∧ fpAdd 0x4B800001 0x3F800000 = 0x4B800002 ∧ fpDiv 0x3F800000 0 = 0x7F800000
    ∧ fpDiv 0 0 = NAN32 := by decide +kernel

/-- R38: the check word is CRC-32C; the value of its usual check string. -/
theorem test_crc32c : crc32c [0x31, 0x32, 0x33, 0x34, 0x35, 0x36, 0x37, 0x38, 0x39] = 0xE3069283 := by decide +kernel

/-- SHA-384 of "abc" (R509 names the standard; the value is the standard's own example). -/
theorem test_sha384 : (sha384 [0x61, 0x62, 0x63]).take 8 = [0xCB, 0x00, 0x75, 0x3F, 0x45, 0xA3, 0x5E, 0x8B] := by decide +kernel

/-- R7: a bit that the device sets in a tick is set after a write of that tick that clears it. -/
theorem test_setAndClearedInOneTick :
    (let s : State := { base with ports := [(3, upPort)] }
     let t := nextOf s (exec (.lossOfLight 3) s)
     let u := nextOf t (exec (.fabLostClear 0 0xFF) t)
     let v := nextOf u (step u)
     t.isLost 7 = true ∧ u.isLost 7 = true ∧ (nextOf v (exec (.fabLostClear 0 0xFF) v)).isLost 7 = false) := by decide +kernel

/-- R53: the mark of a tick acts before its boundary, whichever row comes first. -/
theorem test_eventsInOrder :
    (let t := nextOf crowded (exec (.reconfigBoundary 0) crowded)
     t.dev.fired = [2, 1] ∧ (t.part 0).marked = true) := by decide +kernel

/-- R129, R130: a warm reset keeps memory and starts from mask ROM, with no session. -/
theorem test_warmReset :
    (let s : State := { hosted (sess 1) .owned with mem := [(0x1000, 7)] }
     let t := nextOf s (exec .warmReset s)
     t.boot.st = .rom ∧ t.host.sessions = [] ∧ t.byte 0x1000 = 7 ∧ t.host.owner = .unowned ∧ t.struct.plan.parts = []) := by
  decide +kernel

/-- R5: a register write outside every block changes nothing; DEV_PART_QUIESCE's bit is read back (R69). -/
theorem test_registers :
    (let s := inState .running
     (nextOf s (exec (.registerWrite 4 1) s)) = s ∧ (nextOf s (exec (.devPartQuiesce 1) s)).dev.quiesce = 1
       ∧ ((nextOf s (exec (.devPartQuiesce 1) s)).part 0).st = .quiescing) := by decide +kernel

/-- R28: the identity registers. -/
theorem test_identity : State.reset.readReg Config.devBase = 0x4A7C5C40A000 ∧ State.reset.boot.st = .off
    ∧ State.reset.pending = [] ∧ State.reset.mem = [] := by decide +kernel

/-- Log entry 8: on an empty queue the clocks go on by one tick, and nothing else changes. -/
theorem test_idle : (nextOf base (step base)).clk.lease = 1 ∧ (nextOf base (step base)).clk.bell = 0
    ∧ (nextOf (at_ base 9) (step (at_ base 9))).clk.bell = 10 := by decide +kernel

end Sys2Proof.Tests
end

section
/-! Area registers and register writes (R6 to R9, R31, R320, R352, R423): which block a register access reaches, what an
area register takes, and what each written register reads back. -/

namespace Sys2Proof.Machine

/-! ## A command that changes one part of the state -/

theorem State.settle_modDev (s : State) (f : Dev → Dev) : s.settle (s.begin_.modDev f) = { s with dev := f s.dev } := by
  simp [State.settle, State.begin_, Work.modDev, Mem.act]
theorem State.settle_modPart (s : State) (p : Nat) (f : Part → Part) :
    s.settle (s.begin_.modPart p f) = { s with parts := s.parts.upd {} p f } := by
  simp [State.settle, State.begin_, Work.modPart, Mem.act]

/-! ## Area registers -/

/-- An area register of a partition that is not QUIESCED is not written. -/
theorem Work.areaWrite_ignored (w : Work) (p base layersM1 size value : Nat) (set : Part → Area → Part)
    (h : (w.part p).st ≠ .quiesced) : w.areaWrite p base layersM1 size value set = w := by
  rw [Work.areaWrite, if_pos h]
theorem Work.areaWrite_quiesced (w : Work) (p base layersM1 size value : Nat) (set : Part → Area → Part)
    (h : (w.part p).st = .quiesced) : w.areaWrite p base layersM1 size value set
      = w.modPart p fun y => set y ⟨bit value 0 && w.inHbmPart p base size, base, layersM1⟩ := by
  rw [Work.areaWrite, if_neg (by simp [h])]

/-- What restarting the books may change. -/
def bookBlank (w : Work) : Work := { memBlank w with grants := [], books := [] }

theorem Work.openBook_bookBlank (w : Work) (p layer shift : Nat) : bookBlank (w.openBook p layer shift) = bookBlank w :=
  congrArg (fun u : Work => { u with grants := [], books := [] }) (w.store_memFrame p _ _)
theorem Work.restartBooks_bookBlank (w : Work) (p : Nat) : bookBlank (w.restartBooks p) = bookBlank w :=
  Work.each_keeps bookBlank _ (fun w _ => Work.each_keeps bookBlank _ (fun w _ => w.openBook_bookBlank _ _ _) _ w) _ _
theorem Work.restartBooks_fields (w : Work) (p : Nat) : (w.restartBooks p).parts = w.parts ∧ (w.restartBooks p).tags = w.tags
    ∧ (w.restartBooks p).flights = w.flights := by
  have h := w.restartBooks_bookBlank p
  exact ⟨(congrArg (·.parts) h :), (congrArg (·.tags) h :), (congrArg (·.flights) h :)⟩

/-- The three area registers of a partition that is not QUIESCED are not written (R320, R352, R423). -/
theorem exec_area_ignored (p v : Nat) (s : State) (hp : p < Config.nParts) (h : (s.part p).st ≠ .quiesced) :
    exec (.devGrantArea p v) s = .next s ∧ exec (.devRatioArea p v) s = .next s ∧ exec (.devRosterArea p v) s = .next s := by
  have hb : (s.begin_.part p).st ≠ .quiesced := h
  refine ⟨?_, ?_, ?_⟩
  · refine (runIf_of _ _ s (by simpa using hp)).trans ?_
    rw [Work.grantArea, Work.areaWrite_ignored _ _ _ _ _ _ _ hb, if_neg hb, State.settle_begin]
  · refine (runIf_of _ _ s (by simpa using hp)).trans ?_
    rw [Work.ratioArea, Work.areaWrite_ignored _ _ _ _ _ _ _ hb, State.settle_begin]
  · refine (runIf_of _ _ s (by simpa using hp)).trans ?_
    rw [Work.rosterArea, Work.areaWrite_ignored _ _ _ _ _ _ _ hb, State.settle_begin]

/-- DEV_GRANT_AREA of a QUIESCED partition takes its value and leaves its other areas, the tags and the flights. -/
theorem exec_grantArea_quiesced (p v : Nat) (s : State) (hp : p < Config.nParts) (h : (s.part p).st = .quiesced) :
    ∃ t, exec (.devGrantArea p v) s = .next t
      ∧ (t.part p).grantArea = ⟨bit v 0 && s.inHbmPart p (bits v 47 12 * 4096) (81920 * (bits v 63 56 + 1)),
          bits v 47 12 * 4096, bits v 63 56⟩
      ∧ (t.part p).ratioArea = (s.part p).ratioArea ∧ (t.part p).rosterArea = (s.part p).rosterArea ∧ t.tags = s.tags
      ∧ t.flights = s.flights := by
  have hb : (s.begin_.part p).st = .quiesced := h
  refine ⟨_, runIf_of _ _ s (by simpa using hp), ?_⟩
  rw [Work.grantArea, Work.areaWrite_quiesced _ _ _ _ _ _ _ hb, if_pos hb]
  generalize hw : Work.modPart _ _ _ = w
  obtain ⟨hparts, htags, hflights⟩ := w.restartBooks_fields p
  have hpart : (s.settle (w.restartBooks p)).part p = w.part p := congrArg (fun l => Tab.get ({} : Part) l p) hparts
  rw [hpart, State.settle_tags, State.settle_flights, htags, hflights, ← hw, Work.part_modPart, if_pos rfl]
  exact ⟨rfl, rfl, rfl, rfl, rfl⟩

theorem exec_ratioArea_quiesced (p v : Nat) (s : State) (hp : p < Config.nParts) (h : (s.part p).st = .quiesced) :
    exec (.devRatioArea p v) s = .next { s with parts := s.parts.upd {} p (fun y => { y with ratioArea :=
      ⟨bit v 0 && s.inHbmPart p (bits v 47 10 * 1024) (1024 * (bits v 63 52 + 1)), bits v 47 10 * 1024, bits v 63 52⟩ }) } := by
  refine (runIf_of _ _ s (by simpa using hp)).trans ?_
  rw [Work.ratioArea, Work.areaWrite_quiesced _ _ _ _ _ _ _ h, State.settle_modPart]
  rfl

theorem exec_rosterArea_quiesced (p v : Nat) (s : State) (hp : p < Config.nParts) (h : (s.part p).st = .quiesced) :
    exec (.devRosterArea p v) s = .next { s with parts := s.parts.upd {} p (fun y => { y with rosterArea :=
      ⟨bit v 0 && s.inHbmPart p (bits v 47 12 * 4096) 4096, bits v 47 12 * 4096, 0⟩ }) } := by
  refine (runIf_of _ _ s (by simpa using hp)).trans ?_
  rw [Work.rosterArea, Work.areaWrite_quiesced _ _ _ _ _ _ _ h, State.settle_modPart]
  rfl

/-! ## Which block an address reaches (R29, R31) -/

/-- A field that lies in the low 64 bits is the same in the value cut to 64 bits. -/
theorem bits_u64 (v hi lo : Nat) (h : lo ≤ hi) (h' : hi < 64) : bits (u64 v) hi lo = bits v hi lo := by
  refine Nat.eq_of_testBit_eq fun i => ?_
  simp only [bits, u64, Nat.testBit_mod_two_pow, Nat.testBit_div_two_pow]
  by_cases hi' : i < hi - lo + 1
  · simp [hi', show i + lo < 64 by omega]
  · simp [hi']
theorem b2n_bit (v i : Nat) : b2n (bit v i) = v / 2 ^ i % 2 := by
  rcases Nat.mod_two_eq_zero_or_one (v / 2 ^ i) with h | h <;> simp [b2n, bit, h]
theorem regIdx_at (base n k : Nat) (h : k < n) : regIdx (base + 8 * k) base n = some k := by
  rw [regIdx, if_pos (by omega)]
  congr 1
  omega

/-- A register write at an address of a populated block. -/
theorem exec_registerWrite (a v : Nat) (s : State) (h : regOk a = true) :
    exec (.registerWrite a v) s = .next (s.settle (s.begin_.regWrite a v)) :=
  congrArg (fun w => Host.Outcome.next (s.settle w)) (if_pos h)
theorem exec_registerWrite_ignored (a v : Nat) (s : State) (h : regOk a = false) : exec (.registerWrite a v) s = .next s := by
  refine (congrArg (fun w => Host.Outcome.next (s.settle w)) (if_neg (by simp [h]))).trans ?_
  rw [State.settle_begin]

/-- Where the register blocks lie (R29). -/
theorem regBases : Config.devBase = 0x020000000000 ∧ Config.galRegBase = 0x020010000000 ∧ Config.faceRegBase = 0x020020000000
    ∧ Config.fabBase = 0x020040000000 ∧ Config.bellBase = 0x020041000000 := ⟨rfl, rfl, rfl, rfl, rfl⟩
theorem regOk_iff (a : Nat) : regOk a = true ↔ isRegs a = true ∧ a % 8 = 0 := by
  rw [regOk, Bool.and_eq_true, beq_iff_eq]

section
variable (w : Work) (b : Blk) (f off v : Nat)

theorem faceReg_index (ho : off < 0x10000) : (Config.faceRegBase + 0x10000 * f + off - Config.faceRegBase) / 0x10000 = f := by
  omega
theorem faceReg_offset (ho : off < 0x10000) : (Config.faceRegBase + 0x10000 * f + off - Config.faceRegBase) % 0x10000 = off := by
  omega
theorem regOk_face (hf : f < Config.nFaces) (ho : off < 0x10000) (ha : off % 8 = 0) :
    regOk (Config.faceRegBase + 0x10000 * f + off) = true := by
  obtain ⟨-, -, hface, -, -⟩ := regBases
  have hf : f < 192 := hf
  refine (regOk_iff _).2 ⟨?_, by omega⟩
  simp only [isRegs, Bool.or_eq_true, Bool.and_eq_true, decide_eq_true_eq]
  omega
theorem Work.regWrite_face (hf : f < Config.nFaces) (ho : off < 0x10000) :
    w.regWrite (Config.faceRegBase + 0x10000 * f + off) v = w.writeFace f off (u64 v) := by
  obtain ⟨-, hgal, hface, hfab, -⟩ := regBases
  have hf : f < 192 := hf
  rw [Work.regWrite, if_neg (by omega), if_neg (by omega), if_pos (by omega), faceReg_index f off ho, faceReg_offset f off ho]
theorem Blk.readReg_face (hf : f < Config.nFaces) (ho : off < 0x10000) :
    b.readReg (Config.faceRegBase + 0x10000 * f + off) = (b.face f).readReg off := by
  obtain ⟨-, hgal, hface, hfab, -⟩ := regBases
  have hf : f < 192 := hf
  rw [Blk.readReg, if_neg (by omega), if_neg (by omega), if_pos (by omega), faceReg_index f off ho, faceReg_offset f off ho]

theorem regOk_fab (ho : off < 0x1000000) (ha : off % 8 = 0) : regOk (Config.fabBase + off) = true := by
  obtain ⟨-, -, -, hfab, -⟩ := regBases
  refine (regOk_iff _).2 ⟨?_, by omega⟩
  simp only [isRegs, Bool.or_eq_true, Bool.and_eq_true, decide_eq_true_eq]
  omega
theorem Work.regWrite_fab (ho : off < 0x1000000) : w.regWrite (Config.fabBase + off) v = w.writeFab off (u64 v) := by
  obtain ⟨-, hgal, hface, hfab, hbell⟩ := regBases
  rw [Work.regWrite, if_neg (by omega), if_neg (by omega), if_neg (by omega), if_pos (by omega), Nat.add_sub_cancel_left]
theorem Blk.readReg_fab (ho : off < 0x1000000) : b.readReg (Config.fabBase + off) = readFab b off := by
  obtain ⟨-, hgal, hface, hfab, hbell⟩ := regBases
  rw [Blk.readReg, if_neg (by omega), if_neg (by omega), if_neg (by omega), if_pos (by omega), Nat.add_sub_cancel_left]

end

/-! ## The registers of a route (R369) -/

theorem Work.writeFab_route (w : Work) (k v : Nat) (hk : k < 256) : w.writeFab (0x0400 + 8 * k) v = w.modFab fun f => { f with
    routes := f.routes.set {} k { valid := bit v 63, alternate := bits v 13 8, primary := bits v 5 0 } } := by
  rw [Work.writeFab, if_neg (by omega), regIdx_at _ _ _ hk]
theorem readFab_route (b : Blk) (k : Nat) (hk : k < 256) :
    readFab b (0x0400 + 8 * k) = (Tab.get ({} : Route) b.fab.routes k).reg := by
  rw [readFab, if_neg (by omega)]
  simp only [regIdx_at 0x0400 256 k hk]
  all_goals omega

/-! ## What a written register reads back -/

theorem exec_write_qctxSelect (v : Nat) (s : State) :
    exec (.registerWrite (Config.devBase + 0x0310) v) s = .next { s with dev := { s.dev with qctxSel := v % 2 ^ 16 } } := by
  have hv : bits (u64 v) 15 0 = v % 2 ^ 16 := by rw [bits_u64 _ _ _ (by decide) (by decide)]; simp [bits]
  rw [exec_registerWrite _ _ _ (by decide), ← hv]
  exact congrArg Host.Outcome.next (s.settle_modDev _)
theorem exec_write_devId (v : Nat) (s : State) : exec (.registerWrite Config.devBase v) s = .next s := by
  have h : s.begin_.regWrite Config.devBase v = s.begin_ := rfl
  rw [exec_registerWrite _ _ _ (by decide), h, State.settle_begin]

theorem exec_write_sk20 (f v : Nat) (s : State) (hf : f < Config.nFaces) :
    ∃ t, exec (.registerWrite (Config.faceRegBase + 0x10000 * f + 0x0718) v) s = .next t
      ∧ t.readReg (Config.faceRegBase + 0x10000 * f + 0x0718) = v % 2 ^ 64 ∧ t.mem = s.mem := by
  refine ⟨_, exec_registerWrite _ _ _ (regOk_face _ _ hf (by decide) (by decide)), ?_, ?_⟩
  · rw [Work.regWrite_face _ _ _ _ hf (by decide), State.settle_toBlk, Blk.readReg_face _ _ _ hf (by decide)]
    show ((Work.modFace _ _ _).face f).sk20.toNat = _
    rw [Work.face_modFace, if_pos rfl]
    simp [u64]
  · rw [Work.regWrite_face _ _ _ _ hf (by decide)]
    exact State.settle_mem_same _ _ rfl rfl

theorem exec_write_route (k v : Nat) (s : State) (hk : k < 256) :
    ∃ t, exec (.registerWrite (Config.fabBase + 0x0400 + 8 * k) v) s = .next t
      ∧ t.readReg (Config.fabBase + 0x0400 + 8 * k) = 2 ^ 63 * (v / 2 ^ 63 % 2) + 2 ^ 8 * bits v 13 8 + bits v 5 0
      ∧ t.mem = s.mem := by
  have ho : 0x0400 + 8 * k < 0x1000000 := by omega
  have hbit : u64 v / 2 ^ 63 % 2 = v / 2 ^ 63 % 2 := bits_u64 v 63 63 (by decide) (by decide)
  rw [Nat.add_assoc]
  refine ⟨_, exec_registerWrite _ _ _ (regOk_fab _ ho (by omega)), ?_, ?_⟩
  · rw [Work.regWrite_fab _ _ _ ho, State.settle_toBlk, Blk.readReg_fab _ _ ho, Work.writeFab_route _ _ _ hk, readFab_route _ _ hk]
    simp only [Work.modFab, Tab.get_set_same, Route.reg, fld, b2n_bit, hbit, bits_u64 v 13 8 (by decide) (by decide),
      bits_u64 v 5 0 (by decide) (by decide), Nat.mul_comm]
  · rw [Work.regWrite_fab _ _ _ ho, Work.writeFab_route _ _ _ hk]
    exact State.settle_mem_same _ _ rfl rfl

theorem exec_write_scrubCtrl (v : Nat) (s : State) :
    ∃ t, exec (.registerWrite (Config.memBase + 0x00A0) v) s = .next t
      ∧ t.readReg (Config.memBase + 0x00A0) = 2 ^ 32 * bits v 63 32 + bits v 7 0 ∧ t.mem = s.mem := by
  refine ⟨_, exec_registerWrite _ _ _ (by decide), ?_, State.settle_mem_same _ _ rfl rfl⟩
  show fld (bits (u64 v) 63 32) 32 + bits (u64 v) 7 0 = _
  rw [bits_u64 _ _ _ (by decide) (by decide), bits_u64 _ _ _ (by decide) (by decide), fld, Nat.mul_comm]

/-! ## BELL_EPOCH and its lock (R9, R393) -/

theorem Work.regWrite_epoch (w : Work) (v : Nat) : w.regWrite (Config.bellBase + 0x0010) v
    = if w.bell.epochLock then w else w.modBell fun b => { b with epoch := BitVec.ofNat 64 (u64 v) } := rfl
theorem exec_write_epoch_locked (v : Nat) (s : State) (h : s.bell.epochLock = true) :
    exec (.registerWrite (Config.bellBase + 0x0010) v) s = .next s := by
  rw [exec_registerWrite _ _ _ (by decide), Work.regWrite_epoch, State.begin_bell, if_pos h, State.settle_begin]
theorem exec_write_epoch (v : Nat) (s : State) (h : s.bell.epochLock = false) :
    ∃ t, exec (.registerWrite (Config.bellBase + 0x0010) v) s = .next t
      ∧ t.readReg (Config.bellBase + 0x0010) = v % 2 ^ 64 := by
  refine ⟨_, exec_registerWrite _ _ _ (by decide), ?_⟩
  rw [Work.regWrite_epoch, State.begin_bell, if_neg (by simp [h]), State.settle_toBlk]
  show (BitVec.ofNat 64 (u64 v)).toNat = _
  simp [u64]

/-- Settles O41: an area register is written through `Work.areaWrite` alone, and each register write reaches the block that its
address lies in. -/
theorem areasAndRegisters : Obligations.AreasAndRegisters := by
  refine ⟨fun p v s hp => ⟨exec_area_ignored p v s hp, fun h => ?_⟩, fun v s => ?_⟩
  · exact ⟨exec_grantArea_quiesced p v s hp h, exec_ratioArea_quiesced p v s hp h, exec_rosterArea_quiesced p v s hp h⟩
  · exact ⟨fun a => exec_registerWrite_ignored a v s, exec_write_devId v s, exec_write_qctxSelect v s,
      fun f => exec_write_sk20 f v s, fun k => exec_write_route k v s, exec_write_scrubCtrl v s,
      exec_write_epoch_locked v s, exec_write_epoch v s⟩

end Sys2Proof.Machine
end

section
/-! Bits of a mask: what setting and clearing one leaves, and the bits that a write clears (R6, R7). -/

namespace Sys2Proof

theorem bit_eq_testBit (x i : Nat) : bit x i = x.testBit i := by
  rw [Nat.testBit_eq_decide_div_mod_eq]; rfl

theorem two_pow_add_succ (i d : Nat) : 2 ^ (i + d + 1) = 2 ^ i * (2 * 2 ^ d) := by
  rw [Nat.pow_succ, Nat.pow_add, Nat.mul_assoc, Nat.mul_comm (2 ^ d)]

/-- Adding the weight of a bit that is clear sets this bit alone. -/
theorem bit_add_two_pow (m i k : Nat) (h : bit m i = false) : bit (m + 2 ^ i) k = if k = i then true else bit m k := by
  have hm : m / 2 ^ i % 2 = 0 := by simpa [bit] using h
  rcases Nat.lt_trichotomy k i with hk | rfl | hk
  · obtain ⟨d, rfl⟩ := Nat.exists_eq_add_of_lt hk
    rw [if_neg (by omega), bit, bit, two_pow_add_succ, Nat.add_mul_div_left _ _ (Nat.two_pow_pos _), Nat.add_mul_mod_self_left]
  · rw [if_pos rfl, bit, Nat.add_div_right _ (Nat.two_pow_pos _), beq_iff_eq]
    omega
  · obtain ⟨d, rfl⟩ := Nat.exists_eq_add_of_lt hk
    have e : ∀ x, x / 2 ^ (i + d + 1) = x / 2 ^ i / 2 / 2 ^ d := fun x => by
      rw [Nat.div_div_eq_div_mul, Nat.div_div_eq_div_mul, two_pow_add_succ]
    rw [if_neg (by omega), bit, bit, e, e, Nat.add_div_right _ (Nat.two_pow_pos _), show (m / 2 ^ i + 1) / 2 = m / 2 ^ i / 2 by omega]

/-- Taking away the weight of a bit that is set clears this bit alone. -/
theorem bit_sub_two_pow (m i k : Nat) (h : bit m i = true) : bit (m - 2 ^ i) k = if k = i then false else bit m k := by
  have hm : m / 2 ^ i % 2 = 1 := by simpa [bit] using h
  have hle : 2 ^ i ≤ m := Nat.le_of_not_lt fun hlt => by
    rw [Nat.div_eq_of_lt hlt] at hm
    omega
  obtain ⟨r, rfl⟩ := Nat.exists_eq_add_of_le' hle
  rw [Nat.add_div_right _ (Nat.two_pow_pos _)] at hm
  have hr : bit r i = false := by
    rw [bit, beq_eq_false_iff_ne]
    omega
  rw [Nat.add_sub_cancel, bit_add_two_pow _ _ _ hr]
  split
  · next e => rw [e, hr]
  · rfl

/-- Setting or clearing a bit of a mask leaves the others. -/
theorem bit_setBit (m i k : Nat) (v : Bool) : bit (setBit m i v) k = if k = i then v else bit m k := by
  have same : ∀ b, bit m i = b → bit m k = if k = i then b else bit m k := by
    intro b hb
    split
    · next e => rw [e, hb]
    · rfl
  cases hb : bit m i <;> cases v <;> simp only [setBit, hb, if_true, if_false, Bool.false_eq_true]
  · exact same _ hb
  · exact bit_add_two_pow m i k hb
  · exact bit_sub_two_pow m i k hb
  · exact same _ hb

namespace Machine

/-- A write of `v` clears the bits that it names, but for those that the device has set in the same tick (R7). -/
theorem bit_w1cClears (b : Blk) (a v j : Nat) : bit (b.w1cClears a v) j
    = (bit v j && !(b.dev.w1cAt == b.clk.lease && bit (Tab.get 0 b.dev.w1c a) j)) := by
  simp only [bit_eq_testBit]
  unfold Blk.w1cClears
  split
  · next h =>
    show (v ^^^ (v &&& Tab.get 0 b.dev.w1c a)).testBit j = _
    rw [Nat.testBit_xor, Nat.testBit_and, beq_iff_eq.2 h, Bool.true_and]
    cases v.testBit j <;> simp
  · next h => rw [beq_false_of_ne h]; simp

end Machine
end Sys2Proof
end

section
/-! Errors met by reads (R441, R443, R450): what counting and reporting them may change, and that the uncorrectable ones stay
where they are. -/

namespace Sys2Proof.Machine

/-- What meeting errors may change: what a read may, and what telling the host may. -/
def metBlank (w : Work) : Work := tellBlank (readBlank w)
theorem metBlank_of_readBlank {v w : Work} (h : readBlank v = readBlank w) : metBlank v = metBlank w := congrArg tellBlank h
theorem metBlank_of_tellBlank {v w : Work} (h : tellBlank v = tellBlank w) : metBlank v = metBlank w := (congrArg readBlank h :)

theorem Work.memUe_metBlank (w : Work) (pc off source : Nat) : metBlank (w.memUe pc off source) = metBlank w := by
  have recorded : ∀ (f : MemSys → MemSys) (a m : Nat),
      (∀ x, (f x).scrambled = x.scrambled ∧ (f x).mapped = x.mapped ∧ (f x).repairEn = x.repairEn) →
      readBlank (((w.modMs f).w1cMark a m).canaryAll 4 1) = readBlank w := fun f a m h =>
    ((Work.canaryAll_readBlank _ _ _).trans (Work.w1cMark_readBlank _ _ _)).trans (w.modMs_readBlank f h)
  unfold Work.memUe
  dsimp only
  refine (metBlank_of_tellBlank (Work.raise_frame _ _ _ _ _ _)).trans (metBlank_of_readBlank ?_)
  split
  · exact (Work.canaryAll_readBlank _ _ _).trans (recorded _ _ _ fun _ => ⟨rfl, rfl, rfl⟩)
  · exact recorded _ _ _ fun _ => ⟨rfl, rfl, rfl⟩
theorem Work.eccMet_metBlank (w : Work) (a len source : Nat) : metBlank (w.eccMet a len source) = metBlank w := by
  unfold Work.eccMet
  split
  · exact Work.each_keeps metBlank _ (fun w _ => w.memUe_metBlank _ _ _) _ _
  · exact Work.each_keeps metBlank _ (fun w s => metBlank_of_readBlank (w.hardWord_readBlank s)) _ _
theorem Work.readingTo_metBlank (w : Work) (p : Nat) (l : List (Nat × Nat)) (bad : Option (Nat × Nat)) :
    metBlank (w.readingTo p l bad) = metBlank w := by
  unfold Work.readingTo
  split
  · exact metBlank_of_readBlank (w.reading_frame _ _)
  · exact (Work.eccMet_metBlank _ _ _ _).trans (metBlank_of_readBlank (w.reading_frame _ _))

/-- The sectors and words that hold uncorrectable errors. -/
def Work.hardErrors (w : Work) : List Nat × List Nat := (w.ms.badSectors, w.ms.badWords)

theorem hardErrors_of_ms {v w : Work} (h : v.ms = w.ms) : v.hardErrors = w.hardErrors := by rw [Work.hardErrors, h]; rfl
theorem Work.canaryAll_hardErrors (w : Work) (i n : Nat) : (w.canaryAll i n).hardErrors = w.hardErrors :=
  hardErrors_of_ms (w.canaryAll_fields i n).2.2.1
theorem Work.raise_hardErrors (w : Work) (kind part code shift : Nat) (l : List Nat) :
    (w.raise kind part code shift l).hardErrors = w.hardErrors :=
  hardErrors_of_ms (congrArg (fun u : Work => u.ms) (w.raise_frame kind part code shift l) :)
theorem Work.memCe_hardErrors (w : Work) (pc : Nat) : (w.memCe pc).hardErrors = w.hardErrors := by
  unfold Work.memCe
  dsimp only
  split
  · split
    · exact Work.canaryAll_hardErrors _ _ _
    · exact (Work.canaryAll_hardErrors _ _ _).trans (Work.canaryAll_hardErrors _ _ _)
  · exact Work.canaryAll_hardErrors _ _ _
theorem Work.softWord_ms (w : Work) (s : Nat) : (w.softWord s).ms = w.ms := by
  unfold Work.softWord; split <;> rfl
theorem Work.softMet_hardErrors (w : Work) (l : List (Nat × Nat)) : (w.softMet l).hardErrors = w.hardErrors :=
  (Work.each_keeps Work.hardErrors Work.softWord (fun w s => hardErrors_of_ms (w.softWord_ms s)) _ _).trans
    (Work.each_keeps Work.hardErrors _ (fun w _ => w.memCe_hardErrors _) _ _)
theorem Work.memUe_hardErrors (w : Work) (pc off source : Nat) : (w.memUe pc off source).hardErrors = w.hardErrors := by
  unfold Work.memUe
  dsimp only
  refine (Work.raise_hardErrors _ _ _ _ _ _).trans ?_
  split
  · exact (Work.canaryAll_hardErrors _ _ _).trans (Work.canaryAll_hardErrors _ _ _)
  · exact Work.canaryAll_hardErrors _ _ _
theorem Work.hardWord_ms (w : Work) (s : Nat) : (w.hardWord s).ms = w.ms := by
  unfold Work.hardWord; split <;> rfl
theorem Work.eccMet_hardErrors (w : Work) (a len source : Nat) : (w.eccMet a len source).hardErrors = w.hardErrors := by
  unfold Work.eccMet
  split
  · exact Work.each_keeps Work.hardErrors _ (fun w _ => w.memUe_hardErrors _ _ _) _ _
  · exact Work.each_keeps Work.hardErrors _ (fun w s => hardErrors_of_ms (w.hardWord_ms s)) _ _

end Sys2Proof.Machine
end

section
/-! What the link side of the fabric keeps (R364 to R378): the operations that touch no port and no transaction, and the step
that sending, settling and faulting make of ports and transactions. -/

namespace Sys2Proof.Machine

/-! ## Operations that leave ports, fabric and transactions -/

/-- Ports, the fabric's device-wide state and transactions. -/
def Work.links (w : Work) : Tab Port × Fab × List Txn := (w.ports, w.fab, w.txns)

theorem links_of_readBlank {v w : Work} (h : readBlank v = readBlank w) : v.links = w.links := (congrArg Work.links h :)
theorem links_of_tellBlank {v w : Work} (h : tellBlank v = tellBlank w) : v.links = w.links := (congrArg Work.links h :)
theorem links_of_metBlank {v w : Work} (h : metBlank v = metBlank w) : v.links = w.links := (congrArg Work.links h :)
theorem links_of_writeBlank {v w : Work} (h : writeBlank v = writeBlank w) : v.links = w.links := (congrArg Work.links h :)
theorem links_of_recBlank {v w : Work} (h : recBlank v = recBlank w) : v.links = w.links := (congrArg Work.links h :)

theorem Work.raise_links (w : Work) (kind part code shift : Nat) (l : List Nat) : (w.raise kind part code shift l).links = w.links :=
  links_of_tellBlank (w.raise_frame kind part code shift l)
theorem Work.eccMet_links (w : Work) (a len source : Nat) : (w.eccMet a len source).links = w.links :=
  links_of_metBlank (w.eccMet_metBlank a len source)
theorem Work.reading_links (w : Work) (p : Nat) (l : List (Nat × Nat)) : (w.reading p l).links = w.links :=
  links_of_readBlank (w.reading_frame p l)
theorem Work.readingTo_links (w : Work) (p : Nat) (l : List (Nat × Nat)) (bad : Option (Nat × Nat)) :
    (w.readingTo p l bad).links = w.links := links_of_metBlank (w.readingTo_metBlank p l bad)
theorem Work.bookSet_links (w : Work) (p layer shift off v : Nat) : (w.bookSet p layer shift off v).links = w.links := by
  unfold Work.bookSet
  split
  · exact links_of_writeBlank (w.store_frame _ _ _)
  · rfl
theorem Work.bookAdd_links (w : Work) (p layer shift off : Nat) (n : Int) : (w.bookAdd p layer shift off n).links = w.links := by
  unfold Work.bookAdd
  dsimp only
  split
  · split
    · exact w.readingTo_links _ _ _
    · rw [Work.bookSet_links, Work.reading_links]
  · rfl
theorem Work.rowSettled_links (w : Work) (p c : Nat) (row : Option (Nat × Nat)) : (w.rowSettled p c row).links = w.links := by
  unfold Work.rowSettled
  split
  · rfl
  · rw [Work.bookAdd_links, Work.bookAdd_links]
theorem Work.elect_links (w : Work) : w.elect.links = w.links := (congrArg Work.links w.elect_frame :)
theorem Work.rosterMet_links (w : Work) (part ring : Nat) : (w.rosterMet part ring).links = w.links := by
  unfold Work.rosterMet
  dsimp only
  split
  · rfl
  · exact w.eccMet_links _ _ _
theorem Work.faultCanary_links (w : Work) (p code : Nat) : (w.faultCanary p code).links = w.links := by
  unfold Work.faultCanary
  dsimp only
  split <;> split <;> rfl
theorem Work.dropMark_links (w : Work) (p op : Nat) (s : W32) : (w.dropMark p op s).links = w.links :=
  (congrArg Work.links (w.dropMark_partFrame p op s) :)
theorem Work.faultMarks_links (w : Work) (q p op : Nat) (codes : List Nat) (s : W32) :
    (w.faultMarks q p op codes s).links = w.links := by
  unfold Work.faultMarks
  dsimp only
  refine (Work.each_keeps Work.links _ (fun w c => w.faultCanary_links p c) _ _).trans ?_
  rw [Work.dropMark_links]
  split
  · exact links_of_recBlank (Work.ctxState_memFrame _ _ _)
  · rfl
theorem Work.faultFlight_links (w : Work) (x : Flight) (code wm : Nat) : (w.faultFlight x code wm).links = w.links := by
  have recs : ∀ (v : Work) (l : List Rec), (v.each l fun w r => w.writeRec x.q r).links = v.links := fun v l =>
    Work.each_keeps Work.links _ (fun w r => links_of_recBlank (w.writeRec_memFrame _ r)) _ _
  unfold Work.faultFlight
  dsimp only
  rw [Work.faultMarks_links]
  split
  · exact recs _ _
  · exact recs _ _
theorem Work.tornWops_links (k : Nat) (l : List Wop) (w : Work) : (w.tornWops k l).links = w.links :=
  (congrArg Work.links (Work.tornWops_frame k l w) :)

theorem Work.fresh_links (w : Work) : w.fresh.2.links = w.links := rfl

/-! ## The step of ports and transactions -/

/-- What sending, settling as lost and faulting make of ports and transactions: the fabric's device-wide state, the link states
and the counters of the ports stay, a port that is not UP spends no credit and keeps its replay buffer, no transaction is new,
and one changes its outcome only to lost. -/
structure LinkStep (w v : Work) : Prop where
  fab : v.fab = w.fab
  st : ∀ k, (v.port k).st = (w.port k).st
  ctr : ∀ k, (v.port k).ctr = (w.port k).ctr
  down : ∀ k, (w.port k).st ≠ .up → (v.port k).avail = (w.port k).avail ∧ (v.port k).replay = (w.port k).replay
  ids : (v.txns.map (·.id)).Sublist (w.txns.map (·.id))
  from_ : ∀ z ∈ v.txns, ∃ y ∈ w.txns, y.id = z.id ∧ (z.st = y.st ∨ z.st = .lost)

namespace LinkStep

theorem of_links {w v : Work} (h : v.links = w.links) : LinkStep w v := by
  obtain ⟨hp, hf, ht⟩ : v.ports = w.ports ∧ v.fab = w.fab ∧ v.txns = w.txns := by
    simpa only [Work.links, Prod.mk.injEq] using h
  have port : ∀ k, v.port k = w.port k := fun k => congrArg (fun l => Tab.get ({} : Port) l k) hp
  exact ⟨hf, fun k => by rw [port], fun k => by rw [port], fun k _ => by rw [port]; exact ⟨rfl, rfl⟩, ht ▸ .refl _,
    fun z hz => ⟨z, ht ▸ hz, rfl, .inl rfl⟩⟩

theorem refl (w : Work) : LinkStep w w := of_links rfl

theorem trans {w v u : Work} (a : LinkStep w v) (b : LinkStep v u) : LinkStep w u where
  fab := b.fab.trans a.fab
  st k := (b.st k).trans (a.st k)
  ctr k := (b.ctr k).trans (a.ctr k)
  down k h := by
    obtain ⟨hav, hre⟩ := a.down k h
    obtain ⟨hav', hre'⟩ := b.down k (by rwa [a.st])
    exact ⟨hav'.trans hav, hre'.trans hre⟩
  ids := b.ids.trans a.ids
  from_ z hz := by
    obtain ⟨y, hy, hid, hst⟩ := b.from_ z hz
    obtain ⟨x, hx, hid', hst'⟩ := a.from_ y hy
    refine ⟨x, hx, hid'.trans hid, ?_⟩
    rcases hst with h | h
    · exact hst'.imp h.trans h.trans
    · exact .inr h

theorem each {α : Type} {f : Work → α → Work} (h : ∀ w a, LinkStep w (f w a)) (l : List α) (w : Work) : LinkStep w (w.each l f) := by
  induction l generalizing w with
  | nil => exact refl w
  | cons a l ih => exact (h w a).trans (ih _)

/-- A change of a port that is a step of that port. -/
theorem modPort (w : Work) (n : Nat) (f : Port → Port) (hst : (f (w.port n)).st = (w.port n).st)
    (hctr : (f (w.port n)).ctr = (w.port n).ctr)
    (hdown : (w.port n).st ≠ .up → (f (w.port n)).avail = (w.port n).avail ∧ (f (w.port n)).replay = (w.port n).replay) :
    LinkStep w (w.modPort n f) where
  fab := rfl
  st k := by
    rw [Work.port_modPort]; split
    · next h => rw [h, hst]
    · rfl
  ctr k := by
    rw [Work.port_modPort]; split
    · next h => rw [h, hctr]
    · rfl
  down k hk := by
    rw [Work.port_modPort]; split
    · next h => subst h; exact hdown hk
    · exact ⟨rfl, rfl⟩
  ids := .refl _
  from_ z hz := ⟨z, hz, rfl, .inl rfl⟩

/-- A change of a port that leaves its link state, its credits, its replay buffer and its counters. -/
theorem modPort_same (w : Work) (n : Nat) (f : Port → Port)
    (h : ∀ p, (f p).st = p.st ∧ (f p).ctr = p.ctr ∧ (f p).avail = p.avail ∧ (f p).replay = p.replay) :
    LinkStep w (w.modPort n f) := by
  obtain ⟨hst, hctr, hav, hre⟩ := h (w.port n)
  exact modPort w n f hst hctr fun _ => ⟨hav, hre⟩

/-- A change of a transaction that keeps its number and changes its outcome at most to lost. -/
theorem modTxn (w : Work) (id : Nat) (f : Txn → Txn) (h : ∀ t, (f t).id = t.id ∧ ((f t).st = t.st ∨ (f t).st = .lost)) :
    LinkStep w (w.modTxn id f) where
  fab := rfl
  st _ := rfl
  ctr _ := rfl
  down _ _ := ⟨rfl, rfl⟩
  ids := by
    have e : ((·.id) ∘ fun x : Txn => if x.id = id then f x else x) = (·.id) := by
      funext x; simp only [Function.comp]; split
      · exact (h x).1
      · rfl
    have same : (w.modTxn id f).txns.map (·.id) = w.txns.map (·.id) := by rw [Work.modTxn_txns, List.map_map, e]
    exact same ▸ .refl _
  from_ z hz := by
    obtain ⟨y, hy, rfl⟩ := List.mem_map.1 hz
    refine ⟨y, hy, ?_⟩
    split
    · exact ⟨(h y).1.symm, (h y).2⟩
    · exact ⟨rfl, .inl rfl⟩

theorem filterTxns (w : Work) (c : Txn → Bool) : LinkStep w { w with txns := w.txns.filter c } where
  fab := rfl
  st _ := rfl
  ctr _ := rfl
  down _ _ := ⟨rfl, rfl⟩
  ids := List.filter_sublist.map _
  from_ z hz := ⟨z, (List.mem_filter.1 hz).1, rfl, .inl rfl⟩

/-- A transaction that is lost stays lost. -/
theorem keeps_lost {w v : Work} (h : LinkStep w v) (id : Nat) (hl : ∀ z ∈ w.txns, z.id = id → z.st = .lost) :
    ∀ z ∈ v.txns, z.id = id → z.st = .lost := by
  intro z hz hid
  obtain ⟨y, hy, hyid, hst⟩ := h.from_ z hz
  rcases hst with e | e
  · rw [e, hl y hy (hyid.trans hid)]
  · exact e

/-- One that is open is open or lost after. -/
theorem keeps_open_or_lost {w v : Work} (h : LinkStep w v) (id : Nat) (ho : ∀ z ∈ w.txns, z.id = id → z.st = .opened ∨ z.st = .lost) :
    ∀ z ∈ v.txns, z.id = id → z.st = .opened ∨ z.st = .lost := by
  intro z hz hid
  obtain ⟨y, hy, hyid, hst⟩ := h.from_ z hz
  rcases hst with e | e
  · rw [e]; exact ho y hy (hyid.trans hid)
  · exact .inr e

end LinkStep

/-! ## Sending (R364, R366, R368) -/

/-- Only a port that is UP has a flit to send. -/
theorem Blk.nextFlit_down (b : Blk) (n : Nat) (h : (b.port n).st ≠ .up) : b.nextFlit n = none := by
  have hm : ∀ vc, (b.port n).maySend vc = false := fun vc => by simp [Port.maySend, h]
  have hl : (b.queue (b.port n)).filter (fun x => (b.port n).maySend x.vc) = [] :=
    List.filter_eq_nil_iff.2 fun x _ => by rw [hm]; exact Bool.false_ne_true
  unfold Blk.nextFlit
  dsimp only
  rw [hl]
  rfl

theorem Work.owe_step (w : Work) (n vc k : Nat) : LinkStep w (w.owe n vc k) := by
  unfold Work.owe
  split
  · exact .modPort_same _ _ _ fun _ => ⟨rfl, rfl, rfl, rfl⟩
  · exact .refl w
theorem Work.collLeft_step (w : Work) (f : Flit) : LinkStep w (w.collLeft f) := by
  unfold Work.collLeft
  split
  · exact .of_links rfl
  · exact .refl w
theorem Work.stampFlit_step (w : Work) (n : Nat) (f : Flit) : LinkStep w (w.stampFlit n f).2 := by
  unfold Work.stampFlit
  split
  · exact .modPort_same _ _ _ fun _ => ⟨rfl, rfl, rfl, rfl⟩
  · exact .refl w
/-- A flit that an UP port sends spends that port's credits and enters its replay buffer. -/
theorem Work.portSent_step (w : Work) (n vc : Nat) (a : Option Flit) (b : Option TransitFlit) (o : Out) (h : (w.port n).st = .up) :
    LinkStep w ((w.modPort n fun p => p.sent vc a b).emit o) :=
  .trans (LinkStep.modPort w n (fun p => p.sent vc a b) rfl rfl fun hn => absurd h hn) (.of_links rfl)
theorem Work.putFlit_step (w : Work) (n : Nat) (f : Flit) (h : (w.port n).st = .up) : LinkStep w (w.putFlit n f) := by
  have s := w.stampFlit_step n f
  have hup : ((w.stampFlit n f).2.port n).st = .up := (s.st n).trans h
  have sent := fun o => (s.trans (Work.portSent_step _ n (w.stampFlit n f).1.vc (some (w.stampFlit n f).1) none o hup)).trans
    (Work.collLeft_step _ (w.stampFlit n f).1)
  unfold Work.putFlit
  dsimp only
  split
  · exact (sent _).trans (.modTxn _ _ _ fun _ => ⟨rfl, .inl rfl⟩)
  · exact sent _
theorem Work.putTransit_step (w : Work) (n : Nat) (t : Waiting) (h : (w.port n).st = .up) : LinkStep w (w.putTransit n t) :=
  (Work.portSent_step w n _ _ _ _ h).trans (Work.owe_step _ _ _ _)
theorem Work.flushGo_step (k : Nat) (w : Work) (n : Nat) : LinkStep w (w.flushGo n k) := by
  induction k generalizing w with
  | zero => exact .refl w
  | succ k ih =>
    unfold Work.flushGo
    split
    · exact .refl w
    · next x hx =>
      have hup : (w.port n).st = .up := Decidable.byContradiction fun hn => by
        rw [w.toBlk.nextFlit_down n hn] at hx
        cases hx
      have taken : ∀ alone, LinkStep w (w.modPort n fun p => { p.account x alone with
          held := p.held.filter (fun f => f.ord != x.ord), transit := p.transit.filter (fun t => t.ord != x.ord) }) :=
        fun alone => .modPort_same _ _ _ fun p => by
          unfold Port.account
          split <;> exact ⟨rfl, rfl, rfl, rfl⟩
      dsimp only
      refine LinkStep.trans ?_ (ih _)
      split
      · exact (taken _).trans (Work.putFlit_step _ _ _ (((taken _).st n).trans hup))
      · exact (taken _).trans (Work.putTransit_step _ _ _ (((taken _).st n).trans hup))
      · exact taken _
theorem Work.sendFlit_step (w : Work) (n : Nat) (f : Flit) : LinkStep w (w.sendFlit n f) :=
  (LinkStep.modPort_same w n (fun p => p.hold f) fun _ => ⟨rfl, rfl, rfl, rfl⟩).trans (Work.flushGo_step _ _ n)
theorem Work.nakTransit_step (w : Work) (f : TransitFlit) (why : NakReason) : LinkStep w (w.nakTransit f why) := by
  unfold Work.nakTransit Work.sendCtl
  split
  · exact w.sendFlit_step _ _
  · exact .refl w
theorem Work.dropTransit_step (w : Work) (sent : List TransitFlit) (waited : List Waiting) : LinkStep w (w.dropTransit sent waited) :=
  (LinkStep.each (fun w f => w.nakTransit_step f .pathLost) sent w).trans
    (LinkStep.each (fun w t => (w.owe_step _ _ _).trans (Work.nakTransit_step _ t.fl .pathLost)) waited _)
theorem Work.dropHeld_step (w : Work) (c : Flit → Bool) : LinkStep w (w.dropHeld c) :=
  .each (fun w n => .modPort_same w n (fun p => { p with held := p.held.filter fun f => !c f }) fun _ => ⟨rfl, rfl, rfl, rfl⟩) _ w
theorem Work.sendNotices_step (w : Work) (p tLoss declarer : Nat) : LinkStep w (w.sendNotices p tLoss declarer) :=
  .each (fun w n => w.sendFlit_step n _) _ w

/-! ## Settling as lost (R372, R373) -/

theorem Work.settleLost_step (w : Work) (id : Nat) : LinkStep w (w.settleTxn id .lost) :=
  .modTxn w id _ fun t => by split <;> simp
theorem Work.dropOrphans_step (w : Work) (owner : Nat) : LinkStep w (w.dropOrphans owner) := by
  unfold Work.dropOrphans
  split
  · exact .refl w
  · exact .filterTxns w _
/-- An answer settles its transaction, which is open, and then does only what a step may. -/
theorem Work.answerLost_of_open (w : Work) (id : Nat) (t : Txn) (ht : w.txn? id = some t) (ho : t.st = .opened) :
    LinkStep (w.settleTxn id .lost) (w.answer id .lost) := by
  have orphans : ∀ v u : Work, LinkStep v u → LinkStep v (if t.orphan then u.dropOrphans t.owner else u) := by
    intro v u h
    split
    · exact h.trans (u.dropOrphans_step _)
    · exact h
  unfold Work.answer
  simp only [ht, ho, ne_eq, not_true, if_false]
  refine orphans _ _ ?_
  split
  · split
    · exact .refl _
    · exact .of_links (Work.rowSettled_links _ _ _ _)
  · exact .of_links rfl
  · simp only [reduceCtorEq, if_false]
    exact .refl _
  · exact .refl _
theorem Work.answerLost_step (w : Work) (id : Nat) : LinkStep w (w.answer id .lost) := by
  cases ht : w.txn? id with
  | none => simp only [Work.answer, ht]; exact .refl w
  | some t =>
    by_cases ho : t.st = .opened
    · exact (w.settleLost_step id).trans (w.answerLost_of_open id t ht ho)
    · simp only [Work.answer, ht, ne_eq, ho, not_false_eq_true, if_true]
      exact .refl w

/-- Where no two transactions have one number, it tells them apart. -/
theorem eq_of_txn_id_eq {l : List Txn} (hn : (l.map (·.id)).Nodup) {y z : Txn} (hy : y ∈ l) (hz : z ∈ l) (h : y.id = z.id) :
    y = z := by
  induction l with
  | nil => cases hy
  | cons t l ih =>
    obtain ⟨ht, hl⟩ := List.nodup_cons.1 hn
    rcases List.mem_cons.1 hy with ey | hyl <;> rcases List.mem_cons.1 hz with ez | hzl
    · exact ey.trans ez.symm
    · exact (ht (List.mem_map.2 ⟨z, hzl, h.symm.trans (congrArg Txn.id ey)⟩)).elim
    · exact (ht (List.mem_map.2 ⟨y, hyl, h.trans (congrArg Txn.id ez)⟩)).elim
    · exact ih hl hyl hzl

/-- A transaction that is open, or lost already, is lost once it is answered so; transaction numbers tell transactions apart. -/
theorem Work.answerLost_lost (w : Work) (id : Nat) (hn : (w.txns.map (·.id)).Nodup)
    (ho : ∀ z ∈ w.txns, z.id = id → z.st = .opened ∨ z.st = .lost) :
    ∀ z ∈ (w.answer id .lost).txns, z.id = id → z.st = .lost := by
  cases ht : w.txn? id with
  | none =>
    have hnone : ∀ z ∈ w.txns, ¬z.id = id := fun z hz => by simpa using List.find?_eq_none.1 ht z hz
    exact (w.answerLost_step id).keeps_lost id fun z hz hid => absurd hid (hnone z hz)
  | some t =>
    have hmem : t ∈ w.txns := List.mem_of_find?_eq_some ht
    have htid : t.id = id := by simpa using List.find?_some ht
    by_cases hopen : t.st = .opened
    · refine (w.answerLost_of_open id t ht hopen).keeps_lost id ?_
      intro z hz hid
      obtain ⟨y, hy, rfl⟩ := List.mem_map.1 hz
      by_cases e : y.id = id
      · rcases ho y hy e with h | h <;> simp [e, h]
      · rw [if_neg e] at hid
        exact absurd hid e
    · refine (w.answerLost_step id).keeps_lost id fun z hz hid => ?_
      rw [eq_of_txn_id_eq hn hz hmem (hid.trans htid.symm)]
      exact (ho t hmem htid).resolve_left hopen

theorem Work.answerAllLost_step (w : Work) (c : Txn → Bool) : LinkStep w (w.answerAll c .lost) :=
  .each (fun w id => w.answerLost_step id) _ w
theorem Work.answersLost_lost (l : List Nat) (w : Work) (id : Nat) (hid : id ∈ l) (hn : (w.txns.map (·.id)).Nodup)
    (ho : ∀ z ∈ w.txns, z.id = id → z.st = .opened ∨ z.st = .lost) :
    ∀ z ∈ (w.each l fun w id => w.answer id .lost).txns, z.id = id → z.st = .lost := by
  induction l generalizing w with
  | nil => cases hid
  | cons a l ih =>
    rw [Work.each_cons]
    by_cases e : id = a
    · subst e
      exact (LinkStep.each (fun w id => w.answerLost_step id) l _).keeps_lost id (w.answerLost_lost id hn ho)
    · have s := w.answerLost_step a
      exact ih _ ((List.mem_cons.1 hid).resolve_left e) (hn.sublist s.ids) (s.keeps_open_or_lost id ho)
/-- Every open transaction that meets the condition is lost. -/
theorem Work.answerAllLost_lost (w : Work) (c : Txn → Bool) (hn : (w.txns.map (·.id)).Nodup) (y : Txn) (hy : y ∈ w.txns)
    (ho : y.st = .opened) (hc : c y = true) : ∀ z ∈ (w.answerAll c .lost).txns, z.id = y.id → z.st = .lost := by
  refine Work.answersLost_lost _ w y.id (List.mem_map.2 ⟨y, List.mem_filter.2 ⟨hy, by simp [ho, hc]⟩, rfl⟩) hn fun z hz hid => ?_
  rw [eq_of_txn_id_eq hn hz hy hid]
  exact .inl ho

/-! ## A position is declared lost (R376, R414) -/

theorem Work.modRing_step (w : Work) (p ring : Nat) (f : Ring → Ring) : LinkStep w (w.modRing p ring f) := .of_links rfl
theorem Work.quietHeld_step (w : Work) (p ring : Nat) : LinkStep w (w.quietHeld p ring) := w.dropHeld_step _
theorem Work.collFault_step (w : Work) (x : Flight) (code : Nat) : LinkStep w (w.collFault x code) := by
  unfold Work.collFault
  dsimp only
  refine LinkStep.trans ?_ (.filterTxns _ _)
  refine LinkStep.trans ?_ (.of_links (Work.faultFlight_links _ _ _ _))
  refine LinkStep.trans ?_ (.of_links (Work.tornWops_links _ _ _))
  refine LinkStep.trans ?_ (.of_links (Work.fresh_links _))
  exact .trans (w.modRing_step _ _ _) (Work.dropHeld_step _ _)
theorem Work.faultRing_step (w : Work) (p ring code : Nat) : LinkStep w (w.faultRing p ring code) :=
  ((w.modRing_step p ring fun r => { r with dead := code, txq := [] }).trans (Work.quietHeld_step _ p ring)).trans
    (.each (fun w x => w.collFault_step x code) _ _)
theorem Work.breakRing_step (w : Work) (p ring l : Nat) : LinkStep w (w.breakRing p ring l) := by
  have met : LinkStep w (w.rosterMet p ring) := .of_links (w.rosterMet_links p ring)
  unfold Work.breakRing
  split
  · exact .refl w
  · dsimp only
    split
    · exact met
    · split
      · split
        · exact met
        · exact met.trans (Work.faultRing_step _ _ _ _)
      · split
        · exact met.trans ((Work.modRing_step _ _ _ _).trans (Work.faultRing_step _ _ _ _))
        · exact met.trans ((Work.modRing_step _ _ _ _).trans (Work.quietHeld_step _ _ _))
theorem Work.breakRings_step (w : Work) (l : Nat) : LinkStep w (w.breakRings l) :=
  .each (fun w (r : RingRec) => w.breakRing_step r.part r.ring l) _ w

/-- Declaring a position lost marks it and no other, with the time of the loss where it was not lost before, and then does only
what a step may. -/
theorem Work.declareLost_step (w : Work) (p tLoss declarer : Nat) :
    ∃ f : Fab, LinkStep { w with fab := f } (w.declareLost p tLoss declarer)
      ∧ (∀ k, bit f.lost k = if k = p then true else w.isLost k) ∧ (w.isLost p = false → Tab.get 0 f.tLoss p = tLoss) := by
  unfold Work.declareLost
  dsimp only
  generalize hv : w.w1cMark _ _ = v
  have hfab : v.fab = w.fab := by rw [← hv]; rfl
  have hlinks : ∀ f, LinkStep { w with fab := f } { v with fab := f } := fun f => by rw [← hv]; exact .of_links rfl
  have hv : ∀ k, v.isLost k = w.isLost k := fun k => congrArg (fun f : Fab => bit f.lost k) hfab
  have heard : w.isLost p = true → ∀ k, bit v.fab.lost k = if k = p then true else w.isLost k := by
    intro h k
    split
    · next e => rw [e]; exact (hv p).trans h
    · exact hv k
  rw [hv]
  split
  · next h =>
    split
    · exact ⟨_, (hlinks _).trans (Work.sendNotices_step _ _ _ _), heard h, fun hn => absurd h (by simp [hn])⟩
    · exact ⟨_, hlinks v.fab, heard h, fun hn => absurd h (by simp [hn])⟩
  · refine ⟨{ v.fab with
        lost := setBit v.fab.lost p true, lossLastPos := p, lossLastAt := tLoss % 2 ^ 56, tLoss := v.fab.tLoss.set 0 p tLoss },
      (hlinks _).trans ?_, fun k => ?_, fun _ => Tab.get_set_same _ _ _ _⟩
    · refine LinkStep.trans ?_ (.of_links (Work.elect_links _))
      refine LinkStep.trans ?_ (Work.breakRings_step _ _)
      refine LinkStep.trans ?_ (Work.sendNotices_step _ _ _ _)
      refine LinkStep.trans ?_ (.of_links (Work.raise_links _ _ _ _ _ _))
      exact Work.answerAllLost_step _ _
    · rw [bit_setBit, ← hv k]
      rfl

end Sys2Proof.Machine
end

section
/-! An UP port that is lost, loss notices and FAB_LOST (R366, R373 to R378). -/

namespace Sys2Proof.Machine

/-! ## A port leaves UP -/

/-- A port back in SEEK with nothing of its last training: its credits and its replay buffer are gone (R358, R366). -/
def Port.Sought (p : Port) : Prop := p.st = .seek ∧ p.avail = [0, 0, 0, 0] ∧ p.replay = []

theorem LinkStep.keeps_sought {w v : Work} (h : LinkStep w v) (n : Nat) (hs : (w.port n).Sought) : (v.port n).Sought := by
  obtain ⟨hst, hav, hre⟩ := hs
  obtain ⟨hav', hre'⟩ := h.down n (by simp [hst])
  exact ⟨(h.st n).trans hst, hav'.trans hav, hre'.trans hre⟩

/-- The transit flits of a port that came in by port `n` hold no buffer of it any more. -/
def Port.unbound (n : Nat) (p : Port) : Port :=
  { p with transit := p.transit.map fun t => if t.from_ = n then { t with from_ := Config.nPorts } else t }

theorem Work.unbindPort_eq (w : Work) (n : Nat) : w.unbindPort n
    = ({ w with collIn := w.collIn.map (CollIn.unbind n) } : Work).each (w.ports.map (·.1)) fun w k => w.modPort k (Port.unbound n) :=
  rfl
theorem Work.unbindPort_step (w : Work) (n : Nat) : LinkStep w (w.unbindPort n) := by
  rw [Work.unbindPort_eq]
  refine LinkStep.trans ?_ (.each (fun w k => .modPort_same w k (Port.unbound n) fun _ => ⟨rfl, rfl, rfl, rfl⟩) _ _)
  exact .of_links rfl
theorem Work.unbindPort_txns (w : Work) (n : Nat) : (w.unbindPort n).txns = w.txns :=
  Work.each_keeps (fun w : Work => w.txns) (fun w k => w.modPort k (Port.unbound n)) (fun _ _ => rfl) _ _

/-- What is left of a port that has gone to SEEK, before its path is counted lost: nothing of its queue or credits. -/
def Work.portEmptied (w : Work) (n : Nat) : Work := (w.portTo n .seek).modPort n Port.emptied

theorem Work.port_portEmptied (w : Work) (n k : Nat) : (w.portEmptied n).port k
    = if k = n then ({ w.port n with st := .seek, since := w.clk.span } : Port).emptied else w.port k := by
  rw [Work.portEmptied, Work.port_modPort, Work.portTo, Work.port_modPort]
  split
  · next h => rw [h]
  · rfl

/-- After a port has gone to SEEK what went by it is lost: nothing else happens than a step may do, and every open transaction
by the port is lost. -/
theorem Work.pathLost_step (w : Work) (n : Nat) : LinkStep (w.portEmptied n) ((w.portTo n .seek).pathLost n) := by
  unfold Work.pathLost
  exact ((Work.unbindPort_step _ n).trans (Work.answerAllLost_step _ _)).trans (Work.dropTransit_step _ _ _)
theorem Work.pathLost_lost (w : Work) (n : Nat) (hn : (w.txns.map (·.id)).Nodup) (y : Txn) (hy : y ∈ w.txns) (ho : y.st = .opened)
    (hb : bit y.ports n = true) : ∀ z ∈ ((w.portTo n .seek).pathLost n).txns, z.id = y.id → z.st = .lost := by
  have ht : (((w.portTo n .seek).modPort n Port.emptied).unbindPort n).txns = w.txns := Work.unbindPort_txns _ n
  unfold Work.pathLost
  exact (Work.dropTransit_step _ _ _).keeps_lost y.id (Work.answerAllLost_lost _ _ (by rwa [ht]) y (by rwa [ht]) ho hb)

/-- Another UP port has a port's peer (R376). -/
def Blk.peerElsewhere (b : Blk) (n peer : Nat) : Bool := (List.range Config.nPorts).any (fun k => k != n && (b.port k).st == .up
  && (b.port k).peerValid && (b.port k).peerPos == peer)

theorem Blk.peerElsewhere_none (b : Blk) (n peer : Nat) (h : ∀ k < Config.nPorts, k ≠ n → (b.port k).st ≠ .up) :
    b.peerElsewhere n peer = false := by
  refine List.any_eq_false.2 fun k hk => ?_
  by_cases e : k = n
  · simp [e]
  · simp [h k (List.mem_range.1 hk) e]

/-- A port that goes down: after its path is lost, at most its peer is marked lost, and a step may follow. -/
theorem Work.portDown_step (w : Work) (n : Nat) : ∃ f : Fab, LinkStep { (w.portTo n .seek).pathLost n with fab := f } (w.portDown n)
    ∧ ((w.port n).peerValid = true → ((w.portTo n .seek).pathLost n).peerElsewhere n (w.port n).peerPos = false →
        bit f.lost (w.port n).peerPos = true) := by
  unfold Work.portDown
  dsimp only
  generalize (w.portTo n .seek).pathLost n = v
  split
  · obtain ⟨f, hstep, hbit, -⟩ := v.declareLost_step (w.port n).peerPos v.now v.ownPos
    exact ⟨f, hstep.trans (.of_links (Work.elect_links _)), fun _ _ => by rw [hbit, if_pos rfl]⟩
  · next h =>
    refine ⟨v.fab, .of_links (Work.elect_links _), fun hp ho => absurd ?_ h⟩
    rw [hp, Bool.true_and, Bool.not_eq_true']
    exact ho

/-- What the loss of a port does: the port seeks again with no credits and no replay buffer and keeps its counters, the open
transactions by it are lost, and so is its peer where no other port is UP. -/
theorem Work.portDown_lost (w : Work) (n : Nat) :
    ((w.portDown n).port n).Sought ∧ ((w.portDown n).port n).ctr = (w.port n).ctr
    ∧ ((w.txns.map (·.id)).Nodup → ∀ y ∈ w.txns, y.st = .opened → bit y.ports n = true →
        ∀ z ∈ (w.portDown n).txns, z.id = y.id → z.st = .lost)
    ∧ ((w.port n).peerValid = true → (∀ k < Config.nPorts, k ≠ n → (w.port k).st ≠ .up) →
        (w.portDown n).isLost (w.port n).peerPos = true) := by
  obtain ⟨f, hdown, hpeer⟩ := w.portDown_step n
  have hpath := w.pathLost_step n
  have hport : (w.portEmptied n).port n = ({ w.port n with st := .seek, since := w.clk.span } : Port).emptied := by
    rw [Work.port_portEmptied, if_pos rfl]
  refine ⟨?_, ?_, fun hn y hy ho hb => ?_, fun hv hothers => ?_⟩
  · exact hdown.keeps_sought n (hpath.keeps_sought n (by rw [hport]; exact ⟨rfl, rfl, rfl⟩))
  · exact ((hdown.ctr n).trans (hpath.ctr n)).trans (by rw [hport]; rfl)
  · exact hdown.keeps_lost y.id (w.pathLost_lost n hn y hy ho hb)
  · have helse := ((w.portTo n .seek).pathLost n).toBlk.peerElsewhere_none n (w.port n).peerPos fun k hk hkn => by
      rw [hpath.st k, Work.port_portEmptied, if_neg hkn]
      exact hothers k hk hkn
    rw [← hpeer hv helse, Blk.isLost, hdown.fab]

/-- What the statement of a lost port asks of the state after, from the state before. -/
def DownAfter (n : Nat) (s t : State) : Prop :=
  (t.port n).st = .seek ∧ (t.port n).avail = [0, 0, 0, 0] ∧ (t.port n).replay = []
  ∧ ((s.txns.map (·.id)).Nodup → (∀ y ∈ s.txns, y.id < s.dev.nextTxn) → ∀ y ∈ s.txns, y.st = .opened → bit y.ports n = true →
      ∀ z ∈ t.txns, z.id = y.id → z.st = .lost)
  ∧ ((s.port n).peerValid = true → (∀ k < Config.nPorts, k ≠ n → (s.port k).st ≠ .up) → t.isLost (s.port n).peerPos = true)

theorem Tab.ctr_bump_one (t : Tab Reg) (off : Nat) : (t.bump off 1).ctr off = t.ctr off + 1 := by
  rw [Tab.ctr, Tab.bump, Tab.get_upd_same]
  rfl

/-- A loss that is counted at `off` takes the port down. -/
theorem downAfter_portDown (n off : Nat) (s : State) :
    DownAfter n s (s.settle ((s.begin_.portCtr n off 1).portDown n))
    ∧ ((s.settle ((s.begin_.portCtr n off 1).portDown n)).port n).ctr.ctr off = (s.port n).ctr.ctr off + 1 := by
  have hport : ∀ k, (s.begin_.portCtr n off 1).port k
      = if k = n then { s.port n with ctr := (s.port n).ctr.bump off 1 } else s.port k := by
    intro k
    rw [Work.portCtr, Work.port_modPort]
    split
    · next h => rw [h]; rfl
    · rfl
  have hn := hport n
  rw [if_pos rfl] at hn
  obtain ⟨⟨hst, hav, hre⟩, hctr, htxns, hpeer⟩ := (s.begin_.portCtr n off 1).portDown_lost n
  rw [hn] at hctr hpeer
  refine ⟨⟨hst, hav, hre, fun hd _ => htxns hd, fun hv ho => hpeer hv fun k hk hkn => ?_⟩, ?_⟩
  · rw [hport, if_neg hkn]
    exact ho k hk hkn
  · exact (congrArg (fun c => Tab.ctr c off) hctr).trans (Tab.ctr_bump_one _ off)

/-! ## The rows of a lost port -/

section
variable (n : Nat) (s : State)

theorem exec_lossOfLight (hn : n < Config.nPorts) : exec (.lossOfLight n) s = .next (s.settle
    (if (s.port n).st = .up ∧ !s.moving n then (s.begin_.portCtr n 0x50 1).portDown n else s.begin_)) :=
  runIf_of _ _ s (by simpa using hn)
theorem exec_heartbeatLoss (hn : n < Config.nPorts) : exec (.heartbeatLoss n) s = .next (s.settle
    (if (s.port n).st = .up ∧ s.clk.span ≥ (s.port n).hbAt + 4100 ∧ !s.moving n then (s.begin_.portCtr n 0x58 1).portDown n
      else s.begin_)) :=
  runIf_of _ _ s (by simpa using hn)

theorem exec_lossOfLight_down (hn : n < Config.nPorts) (hup : (s.port n).st = .up) (hm : s.moving n = false) :
    ∃ t, exec (.lossOfLight n) s = .next t ∧ DownAfter n s t ∧ (t.port n).ctr.ctr 0x50 = (s.port n).ctr.ctr 0x50 + 1 := by
  rw [exec_lossOfLight n s hn, if_pos ⟨hup, by simp [hm]⟩]
  exact ⟨_, rfl, downAfter_portDown n 0x50 s⟩
theorem exec_heartbeatLoss_down (hn : n < Config.nPorts) (hup : (s.port n).st = .up) (hm : s.moving n = false)
    (hb : (s.port n).hbAt + 4100 ≤ s.clk.span) :
    ∃ t, exec (.heartbeatLoss n) s = .next t ∧ DownAfter n s t ∧ (t.port n).ctr.ctr 0x58 = (s.port n).ctr.ctr 0x58 + 1 := by
  rw [exec_heartbeatLoss n s hn, if_pos ⟨hup, hb, by simp [hm]⟩]
  exact ⟨_, rfl, downAfter_portDown n 0x58 s⟩
/-- A port that is being moved as planned is not lost (R377). -/
theorem exec_loss_moving (hn : n < Config.nPorts) (hm : s.moving n = true) :
    exec (.lossOfLight n) s = .next s ∧ exec (.heartbeatLoss n) s = .next s := by
  constructor
  · rw [exec_lossOfLight n s hn, if_neg (by simp [hm]), State.settle_begin]
  · rw [exec_heartbeatLoss n s hn, if_neg (by simp [hm]), State.settle_begin]
theorem exec_heartbeatLoss_early (hn : n < Config.nPorts) (hb : s.clk.span < (s.port n).hbAt + 4100) :
    exec (.heartbeatLoss n) s = .next s := by
  rw [exec_heartbeatLoss n s hn, if_neg (by omega), State.settle_begin]

end

/-! ## Loss notices (R362, R364, R376) -/

section
variable (n lost tl d : Nat) (l : LinkIn) (s : State)

/-- The time that a notice is taken at: the earlier of its time and now, where bell time counts (log entry 50). -/
def Blk.noticeTime (b : Blk) (tl : Nat) : Nat := if b.bell.st.counts then min b.clk.bell tl else tl

/-- A loss notice that comes in order to an UP port does what the port's role lets it. -/
theorem exec_lossNotice (hn : n < Config.nPorts) (hup : (s.port n).st = .up) (ho : (s.port n).inOrder l.seq = true) :
    exec (.lossNoticeReceive n l lost tl d) s = .next (s.settle (if roleTakes (s.port n).role 0 8 then
      (if lost < 256 then (s.begin_.linkIn n 0 1 1 l).declareLost lost ((s.begin_.linkIn n 0 1 1 l).noticeTime tl) d
        else s.begin_.linkIn n 0 1 1 l)
      else s.begin_.linkIn n 0 1 1 l)) := by
  refine (runIf_of _ _ s (by simpa using hn)).trans (congrArg (fun w => Host.Outcome.next (s.settle w)) ?_)
  exact if_pos ⟨hup, ho⟩
theorem exec_lossNotice_ignored (hn : n < Config.nPorts) (h : (s.port n).st ≠ .up ∨ (s.port n).inOrder l.seq = false) :
    exec (.lossNoticeReceive n l lost tl d) s = .next s := by
  have hneg : ¬((s.port n).st = .up ∧ (s.port n).inOrder l.seq = true) := by
    rintro ⟨hup, ho⟩
    rcases h with h | h
    · exact h hup
    · simp [h] at ho
  refine (runIf_of _ _ s (by simpa using hn)).trans (congrArg (fun w => Host.Outcome.next (s.settle w)) (if_neg hneg)) |>.trans ?_
  rw [State.settle_begin]
theorem exec_lossNotice_interShaft (hn : n < Config.nPorts) (hup : (s.port n).st = .up) (ho : (s.port n).inOrder l.seq = true)
    (hr : (s.port n).role = 3) : exec (.lossNoticeReceive n l lost tl d) s = .next (arrived s n 0 1 1 l) := by
  rw [exec_lossNotice n lost tl d l s hn hup ho, hr]
  rfl
theorem exec_lossNotice_marks (hn : n < Config.nPorts) (hup : (s.port n).st = .up) (ho : (s.port n).inOrder l.seq = true)
    (hr : (s.port n).role = 1 ∨ (s.port n).role = 2) (hl : lost < 256) :
    ∃ t, exec (.lossNoticeReceive n l lost tl d) s = .next t ∧ t.isLost lost = true
      ∧ (s.isLost lost = false → Tab.get 0 t.fab.tLoss lost = s.noticeTime tl) ∧ (∀ k, k ≠ lost → t.isLost k = s.isLost k) := by
  have htakes : roleTakes (s.port n).role 0 8 = true := by rcases hr with h | h <;> rw [h] <;> rfl
  rw [exec_lossNotice n lost tl d l s hn hup ho, htakes, if_pos rfl, if_pos hl]
  refine ⟨_, rfl, ?_⟩
  have hfab : (s.begin_.linkIn n 0 1 1 l).fab = s.fab := by simp
  have htime : (s.begin_.linkIn n 0 1 1 l).noticeTime tl = s.noticeTime tl := by simp [Blk.noticeTime]
  generalize s.begin_.linkIn n 0 1 1 l = v at hfab htime ⊢
  obtain ⟨f, hstep, hbit, hat⟩ := v.declareLost_step lost (v.noticeTime tl) d
  have hisLost : ∀ k, v.isLost k = s.isLost k := fun k => congrArg (fun f : Fab => bit f.lost k) hfab
  have hafter : ∀ k, (s.settle (v.declareLost lost (v.noticeTime tl) d)).isLost k = if k = lost then true else s.isLost k := by
    intro k
    rw [State.settle_toBlk, Blk.isLost, hstep.fab, ← hisLost]
    exact hbit k
  refine ⟨by rw [hafter, if_pos rfl], fun h => ?_, fun k hk => by rw [hafter, if_neg hk]⟩
  rw [State.settle_fab, hstep.fab, ← htime]
  exact hat (by rw [hisLost, h])

end

/-! ## FAB_LOST (R6, R7, R378) -/

/-- One bit of a word of FAB_LOST is cleared (R378). -/
def Work.clearLostBit (i : Nat) (w : Work) (j : Nat) : Work := w.modFab fun f => { f with
  lost := setBit f.lost (64 * i + j) false, bounded := setBit f.bounded (64 * i + j) false
  tLoss := f.tLoss.set 0 (64 * i + j) 0 }

theorem Work.clearLost_eq (w : Work) (i v : Nat) : w.clearLost i v
    = w.each ((List.range 64).filter (bit (w.w1cClears (Config.fabBase + 0xC00 + 8 * i) v))) (Work.clearLostBit i) := rfl
theorem Work.isLost_clearLostBit (w : Work) (i j k : Nat) :
    (Work.clearLostBit i w j).isLost k = if k = 64 * i + j then false else w.isLost k :=
  bit_setBit w.fab.lost (64 * i + j) k false
theorem Work.isLost_clearLostBits (l : List Nat) (w : Work) (i k : Nat) : (w.each l (Work.clearLostBit i)).isLost k
    = if ∃ j ∈ l, k = 64 * i + j then false else w.isLost k := by
  induction l generalizing w with
  | nil => simp
  | cons j l ih =>
    rw [Work.each_cons, ih, Work.isLost_clearLostBit]
    by_cases hl : ∃ m ∈ l, k = 64 * i + m
    · simp [hl]
    · by_cases hj : k = 64 * i + j <;> simp [hl, hj]
/-- The positions that a write of FAB_LOST_i clears: those of word `i` whose bit it clears. -/
theorem Work.isLost_clearLost (w : Work) (i v k : Nat) : (w.clearLost i v).isLost k
    = if k / 64 = i ∧ bit (w.w1cClears (Config.fabBase + 0xC00 + 8 * i) v) (k % 64) = true then false else w.isLost k := by
  rw [Work.clearLost_eq, Work.isLost_clearLostBits]
  refine ite_congr (propext ?_) (fun _ => rfl) (fun _ => rfl)
  constructor
  · rintro ⟨j, hj, rfl⟩
    obtain ⟨hj64, hbit⟩ := List.mem_filter.1 hj
    have hj64 := List.mem_range.1 hj64
    rw [show (64 * i + j) % 64 = j by omega]
    exact ⟨by omega, hbit⟩
  · rintro ⟨rfl, hbit⟩
    exact ⟨k % 64, List.mem_filter.2 ⟨List.mem_range.2 (by omega), hbit⟩, by omega⟩
theorem Work.clearLost_frame (w : Work) (i v : Nat) (f : Fab) : ({ w.clearLost i v with fab := f } : Work) = { w with fab := f } :=
  Work.each_keeps (fun w : Work => ({ w with fab := f } : Work)) (Work.clearLostBit i) (fun _ _ => rfl) _ w

theorem exec_fabLostClear (i v : Nat) (s : State) (hi : i < 4) :
    ∃ t, exec (.fabLostClear i v) s = .next t ∧ { t with fab := s.fab } = s
      ∧ (∀ j < 64, bit (s.w1cClears (Config.fabBase + 0xC00 + 8 * i) v) j = true → t.isLost (64 * i + j) = false)
      ∧ (∀ k, (k / 64 ≠ i ∨ bit (s.w1cClears (Config.fabBase + 0xC00 + 8 * i) v) (k % 64) = false) → t.isLost k = s.isLost k) := by
  refine ⟨_, runIf_of _ _ s (by simpa using hi), ?_, fun j hj hc => ?_, fun k hk => ?_⟩
  · exact (congrArg s.settle (s.begin_.clearLost_frame i v s.fab)).trans s.settle_begin
  · rw [State.settle_toBlk, Work.isLost_clearLost, State.begin_toBlk, show (64 * i + j) % 64 = j by omega]
    exact if_pos ⟨by omega, hc⟩
  · rw [State.settle_toBlk, Work.isLost_clearLost, State.begin_toBlk, if_neg]
    rintro ⟨hki, hbit⟩
    rcases hk with h | h
    · exact h hki
    · simp [h] at hbit

/-- Settles O43: a port that is lost goes down by `Work.portDown`, a notice marks its position by `Work.declareLost`, and
FAB_LOST clears bit by bit. -/
theorem portLossAndLostPositions : Obligations.PortLossAndLostPositions := by
  refine ⟨fun n s hn hup => ⟨?_, ?_, ?_, ?_⟩, fun n lost tl d i v l s hn hi => ⟨?_, ?_, ?_, ?_, ?_⟩⟩
  · exact exec_lossOfLight_down n s hn hup
  · exact exec_loss_moving n s hn
  · exact exec_heartbeatLoss_down n s hn hup
  · exact exec_heartbeatLoss_early n s hn
  · exact exec_lossNotice_marks n lost tl d l s hn
  · exact exec_lossNotice_interShaft n lost tl d l s hn
  · exact exec_lossNotice_ignored n lost tl d l s hn
  · exact bit_w1cClears s.toBlk _ v
  · exact exec_fabLostClear i v s hi

end Sys2Proof.Machine
end

section
/-! Flash operations (R519 to R523): what starting one does, what it will end with, and what each has done when it ends. -/

namespace Sys2Proof.Machine

/-! ## Reading the source of an operation (R441, R523) -/

/-- What reading the source of a flash operation may change. -/
def sourceBlank (w : Work) : Work := { metBlank w with clk := { w.clk with free := 0 } }
theorem sourceBlank_of_metBlank {v w : Work} (h : metBlank v = metBlank w) : sourceBlank v = sourceBlank w :=
  (congrArg (fun u : Work => { u with clk := { u.clk with free := 0 } }) h :)

theorem Work.softMet_sourceBlank (w : Work) (l : List (Nat × Nat)) : sourceBlank (w.softMet l) = sourceBlank w :=
  sourceBlank_of_metBlank (metBlank_of_readBlank (w.softMet_frame l))
theorem Work.hfcEcc_sourceBlank (w : Work) (a n : Nat) : sourceBlank (w.hfcEcc a n) = sourceBlank w :=
  (sourceBlank_of_metBlank (Work.eccMet_metBlank _ _ _ _)).trans rfl
theorem Work.flashReads_sourceBlank (w : Work) (a n : Nat) : sourceBlank (w.flashReads a n) = sourceBlank w := by
  unfold Work.flashReads
  split
  · rfl
  · split
    · exact w.softMet_sourceBlank _
    · exact (Work.hfcEcc_sourceBlank _ _ _).trans (w.softMet_sourceBlank _)
theorem Work.flashReads_hardErrors (w : Work) (a n : Nat) : (w.flashReads a n).hardErrors = w.hardErrors := by
  unfold Work.flashReads
  split
  · rfl
  · split
    · exact w.softMet_hardErrors _
    · exact (Work.eccMet_hardErrors _ _ _ _).trans (w.softMet_hardErrors _)

/-- Reading a source leaves boot, flash, plan and memory, and what decides whether it can be read. -/
theorem sourceBlank_fields {v w : Work} (h : sourceBlank v = sourceBlank w) : v.boot = w.boot ∧ v.flash = w.flash
    ∧ v.struct = w.struct ∧ v.mem = w.mem ∧ v.wr = w.wr ∧ v.ms.scrambled = w.ms.scrambled ∧ v.ms.mapped = w.ms.mapped
    ∧ v.ms.repairEn = w.ms.repairEn :=
  ⟨(congrArg (·.boot) h :), (congrArg (·.flash) h :), (congrArg (·.struct) h :), (congrArg (·.mem) h :), (congrArg (·.wr) h :),
    (congrArg (·.ms.scrambled) h :), (congrArg (·.ms.mapped) h :), (congrArg (·.ms.repairEn) h :)⟩

theorem eccAt_of_hardErrors {v w : Work} (h : v.hardErrors = w.hardErrors) (a n : Nat) : v.eccAt a n = w.eccAt a n := by
  obtain ⟨hsectors, hwords⟩ := Prod.mk.inj h
  rw [Blk.eccAt, hsectors, hwords, Blk.eccAt]
/-- A source that has been read can be read as before. -/
theorem Work.flashSource_flashReads (w : Work) (a n : Nat) : (w.flashReads a n).flashSource a n = w.flashSource a n := by
  obtain ⟨hboot, -, -, -, -, -, hmapped, hrepair⟩ := sourceBlank_fields (w.flashReads_sourceBlank a n)
  have hplace : (w.flashReads a n).flashPlace a n = w.flashPlace a n := by
    rw [Blk.flashPlace, Blk.usable, hboot, hmapped, hrepair, Blk.flashPlace, Blk.usable]
  rw [Work.flashSource, hplace, eccAt_of_hardErrors (w.flashReads_hardErrors a n), Work.flashSource]
theorem Work.bytes_flashReads (w : Work) (a n : Nat) : (w.flashReads a n).bytes a n = w.bytes a n := by
  obtain ⟨-, -, -, hmem, hwr, hscr, -, -⟩ := sourceBlank_fields (w.flashReads_sourceBlank a n)
  simp only [Work.bytes, Work.byte, Blk.dflt, hmem, hwr, hscr]

/-! ## What an operation will end with -/

/-- A code that an operation on firmware may end with: 0, or one of class 0x09 (R14). -/
def FwCode (c : Nat) : Prop := c = 0 ∨ (0x0901 ≤ c ∧ c < 0x0A00)

theorem FwCode.ite {p : Prop} [Decidable p] {a b : Nat} (ha : FwCode a) (hb : FwCode b) : FwCode (if p then a else b) := by
  split
  · exact ha
  · exact hb
theorem FwCode.of_class {c : Nat} (h : 0x0901 ≤ c ∧ c < 0x0A00) : FwCode c := .inr h

/-- The checks of an image end with 0 or a code of class 0x09 (R14, R516). -/
theorem fwCheck_code (img : List Nat) (kind rollback : Nat) : FwCode (fwCheck img kind rollback) := by
  unfold fwCheck
  exact .ite (.of_class (by decide)) <| .ite (.of_class (by decide)) <| .ite (.of_class (by decide)) <|
    .ite (.of_class (by decide)) <| .ite (.of_class (by decide)) <| .ite (.of_class (by decide)) (.inl rfl)

theorem Work.flashJob_stage (w : Work) : (w.flashJob 1).1.op = 1
    ∧ ((w.flashJob 1).1.code = 0 ∨ (0x0901 ≤ (w.flashJob 1).1.code ∧ (w.flashJob 1).1.code < 0x0A00))
    ∧ (w.flashSource w.boot.flashAddr.toNat w.boot.flashLen.toNat = false → (w.flashJob 1).1.code = 0x0935)
    ∧ sourceBlank (w.flashJob 1).2 = sourceBlank w := by
  have hsource := w.flashSource_flashReads w.boot.flashAddr.toNat w.boot.flashLen.toNat
  have hframe := w.flashReads_sourceBlank w.boot.flashAddr.toNat w.boot.flashLen.toNat
  rw [Work.flashJob]
  dsimp only
  rw [if_pos rfl, if_neg (show (1 : Nat) ≠ 5 by decide), hsource]
  generalize w.flashReads w.boot.flashAddr.toNat w.boot.flashLen.toNat = v at hframe ⊢
  by_cases hs : w.flashSource w.boot.flashAddr.toNat w.boot.flashLen.toNat = false
  · rw [if_pos (by simp [hs])]
    exact ⟨rfl, .inr (by simp), fun _ => rfl, hframe⟩
  rw [if_neg (by simpa using hs)]
  split
  · exact ⟨rfl, .inr (by simp), fun h => absurd h hs, hframe⟩
  · split
    · exact ⟨rfl, .inl rfl, fun h => absurd h hs, hframe⟩
    · refine ⟨rfl, .inr ⟨by simp, ?_⟩, fun h => absurd h hs, hframe⟩
      show 0x0901 + _ % 0xFF < 0x0A00
      omega
    · exact ⟨rfl, fwCheck_code _ _ _, fun h => absurd h hs, hframe⟩

theorem Work.flashJob_anchorAdd (w : Work) : (w.flashJob 5).1.op = 5
    ∧ (w.flashSource w.boot.flashAddr.toNat 48 = false → (w.flashJob 5).1.code = 0x0935)
    ∧ (w.flashSource w.boot.flashAddr.toNat 48 = true → 8 ≤ w.flash.anchors.length → (w.flashJob 5).1.code = 0x0934)
    ∧ (w.flashSource w.boot.flashAddr.toNat 48 = true → w.flash.anchors.length < 8 →
        (w.flashJob 5).1.code = 0 ∧ (w.flashJob 5).1.data = w.bytes w.boot.flashAddr.toNat 48)
    ∧ sourceBlank (w.flashJob 5).2 = sourceBlank w := by
  have hsource := w.flashSource_flashReads w.boot.flashAddr.toNat 48
  have hbytes := w.bytes_flashReads w.boot.flashAddr.toNat 48
  have hframe := w.flashReads_sourceBlank w.boot.flashAddr.toNat 48
  have hflash := (sourceBlank_fields hframe).2.1
  rw [Work.flashJob]
  dsimp only
  rw [if_neg (by decide), if_neg (by decide), if_neg (by decide), if_pos rfl, if_pos rfl, hsource, hflash, hbytes]
  generalize w.flashReads w.boot.flashAddr.toNat 48 = v at hframe ⊢
  by_cases hs : w.flashSource w.boot.flashAddr.toNat 48 = true
  · rw [if_neg (by simp [hs])]
    by_cases hfull : w.flash.anchors.length ≥ 8
    · rw [if_pos hfull]
      exact ⟨rfl, by simp [hs], fun _ _ => rfl, fun _ h => absurd h (by omega), hframe⟩
    · rw [if_neg hfull]
      exact ⟨rfl, by simp [hs], fun _ h => absurd h hfull, fun _ _ => ⟨rfl, rfl⟩, hframe⟩
  · rw [if_pos (by simpa using hs)]
    exact ⟨rfl, fun _ => rfl, fun h => absurd h hs, fun h => absurd h hs, hframe⟩

theorem Work.flashJob_commit (w : Work) : (w.flashJob 2).1.op = 2
    ∧ (w.flashJob 2).1.code = (if w.boot.st = .ready ∧ ∃ e ∈ w.flash.fw, e.2.st = .trialRunning then 0 else 0x0932)
    ∧ (w.flashJob 2).2 = w := by
  refine ⟨rfl, ?_, rfl⟩
  show (if _ then _ else _) = _
  refine ite_congr (propext ?_) (fun _ => rfl) (fun _ => rfl)
  simp only [Bool.and_eq_true, beq_iff_eq, List.any_eq_true]
theorem Work.flashJob_planSave (w : Work) : (w.flashJob 3).1.op = 3
    ∧ (w.struct.source = 2 → (w.flashJob 3).1.code = 0 ∧ (w.flashJob 3).1.data = w.struct.plan.image)
    ∧ (w.struct.source ≠ 2 → (w.flashJob 3).1.code = 0x0933) ∧ (w.flashJob 3).2 = w := by
  have e : w.flashJob 3 = if w.struct.source = 2 then (⟨3, 0, w.struct.plan.image⟩, w) else (⟨3, 0x0933, []⟩, w) := rfl
  rw [e]
  split
  · next h => exact ⟨rfl, fun _ => ⟨rfl, rfl⟩, fun hn => absurd h hn, rfl⟩
  · next h => exact ⟨rfl, fun hy => absurd hy h, fun _ => rfl, rfl⟩

/-! ## A command starts its operation, or records that one runs -/

/-- What a flash command does: while an operation runs it records 0x0931, and else it starts one of number `op` whose code and
data meet `ok`, with no flash and no memory changed. -/
def StartsFlash (s : State) (i : Instr) (op : Nat) (ok : FlashJob → Prop) : Prop :=
  (∀ j, s.boot.flashJob = some j → exec i s = .next { s with boot := { s.boot with flashCode := 0x0931 } })
  ∧ (s.boot.flashJob = none → ∃ t j, exec i s = .next t ∧ t.boot.flashJob = some j ∧ j.op = op ∧ ok j ∧ t.flash = s.flash
      ∧ t.mem = s.mem)

theorem startsFlash_of (s : State) (i : Instr) (op : Nat) (ok : FlashJob → Prop) (hs : s.boot.st.serves = true)
    (hi : exec i s = run (fun w => w.flashCmd op) s) (hop : 1 ≤ op ∧ op ≤ 6) (hjob : (s.begin_.flashJob op).1.op = op)
    (hok : ok (s.begin_.flashJob op).1) (hframe : sourceBlank (s.begin_.flashJob op).2 = sourceBlank s.begin_) :
    StartsFlash s i op ok := by
  have hgo : ¬((!s.begin_.boot.st.serves) = true ∨ op = 0 ∨ op > 6) := by
    rw [State.begin_boot, hs]
    simp only [Bool.not_true, Bool.false_eq_true, false_or]
    omega
  refine ⟨fun j hj => ?_, fun hnone => ?_⟩
  · rw [hi, run_eq, Work.flashCmd, if_neg hgo, State.begin_boot, hj, Option.isSome_some, if_pos rfl]
    simp [State.settle, State.begin_, Work.modBoot, Mem.act]
  · obtain ⟨-, hflash, -, -, hwr, hscr, -, -⟩ := sourceBlank_fields hframe
    have hcmd : s.begin_.flashCmd op
        = (s.begin_.flashJob op).2.modBoot fun b => { b with flashJob := some (s.begin_.flashJob op).1 } := by
      rw [Work.flashCmd, if_neg hgo, State.begin_boot, hnone, Option.isSome_none, if_neg (by decide)]
    rw [run_eq, hcmd] at hi
    exact ⟨_, (s.begin_.flashJob op).1, hi, rfl, hjob, hok, hflash, State.settle_mem_same _ _ hwr hscr⟩

/-! ## What an operation has done when it ends (R519, R521, R523) -/

section
variable (f : Flash) (j : FlashJob)

theorem Flash.doJob_fails (h : j.code ≠ 0) : f.doJob j = f := by
  rw [Flash.doJob, Flash.writes, if_pos h]

theorem Flash.doJob_stage (i : Nat) (hc : j.code = 0) (ho : j.op = 1) (hi : f.stageSlot (leAt j.data 5 1) = some i) :
    (Tab.get {} (f.doJob j).fw i : FwSlot).st = .trialPending ∧ (Tab.get {} (f.doJob j).fw i : FwSlot).image = j.data := by
  have e : f.doJob j = { f with fw := f.fw.upd {} i fun x => ⟨x.state.put true .trialPending, j.data⟩ } := by
    rw [Flash.doJob, Flash.writes, if_neg (by simp [hc]), if_pos ho, hi]
    rfl
  rw [e, Tab.get_upd_same]
  exact ⟨Twin.read_put _ _ _, rfl⟩

theorem Flash.doJob_planSave (hc : j.code = 0) (ho : j.op = 3) :
    ((f.doJob j).planSel = some 0 ∧ (f.doJob j).planA = j.data) ∨
      ((f.doJob j).planSel = some 1 ∧ (f.doJob j).planB = j.data ∧ (f.doJob j).planA = f.planA) := by
  have e : f.doJob j = if f.planSel = some 0 then { f with planB := j.data, selected := f.selected.put true (some 1) }
      else { f with planA := j.data, selected := f.selected.put true (some 0) } := by
    simp [Flash.doJob, Flash.writes, hc, ho]
  rw [e]
  split
  · exact .inr ⟨Twin.read_put _ _ _, rfl, rfl⟩
  · exact .inl ⟨Twin.read_put _ _ _, rfl⟩
theorem Flash.doJob_planClear (hc : j.code = 0) (ho : j.op = 4) : (f.doJob j).planSel = none := by
  have e : f.doJob j = { f with selected := f.selected.put true none } := by simp [Flash.doJob, Flash.writes, hc, ho]
  rw [e]
  exact Twin.read_put _ _ _
theorem Flash.doJob_anchorAdd (hc : j.code = 0) (ho : j.op = 5) : (f.doJob j).anchors = f.anchors ++ [leNat j.data] := by
  have e : f.doJob j = { f with trusted := f.trusted.put true (f.anchors ++ [leNat j.data]) } := by
    simp [Flash.doJob, Flash.writes, hc, ho]
  rw [e]
  exact Twin.read_put _ _ _
theorem Flash.doJob_anchorClear (hc : j.code = 0) (ho : j.op = 6) : (f.doJob j).anchors = [] := by
  have e : f.doJob j = { f with trusted := f.trusted.put true [] } := by simp [Flash.doJob, Flash.writes, hc, ho]
  rw [e]
  exact Twin.read_put _ _ _

end

/-! ## FW_COMMIT (R519) -/

/-- The slots of a kind whose trial runs, and the highest security version among them. -/
def Flash.running (f : Flash) (kind : Nat) : List Nat :=
  (fwSlots kind).filter (fun i => (Tab.get ({} : FwSlot) f.fw i).st == .trialRunning)
def Flash.runningSec (f : Flash) (kind : Nat) : Nat :=
  ((f.running kind).map (fun i => fwSec (Tab.get ({} : FwSlot) f.fw i).image)).foldl max 0
/-- What a commit makes of a slot. -/
def Flash.committed (f : Flash) (e : Nat × FwSlot) : Nat × FwSlot :=
  if e.2.st == .trialRunning then (e.1, e.2.goes .active)
  else if e.2.st == .active && !(f.running (if e.1 < 2 then 1 else 2)).isEmpty then (e.1, e.2.goes .inactive)
  else e

theorem Flash.doJob_commit (f : Flash) (j : FlashJob) (hc : j.code = 0) (ho : j.op = 2) : f.doJob j = { f with
    fw := f.fw.map f.committed
    hfCounter := if f.runningSec 1 > f.hfRollback then f.hfCounter.put true (f.runningSec 1) else f.hfCounter
    fabCounter := if f.runningSec 2 > f.fabRollback then f.fabCounter.put true (f.runningSec 2) else f.fabCounter } := by
  rw [Flash.doJob, Flash.writes, if_neg (by simp [hc]), if_neg (by simp [ho]), if_pos ho]
  rfl

theorem Flash.committed_st (f : Flash) (e : Nat × FwSlot) : (f.committed e).2.st ≠ .trialRunning := by
  have goes : ∀ (x : FwSlot) (st : FwSt), (x.goes st).st = st := fun x st => Twin.read_put x.state true st
  unfold Flash.committed
  generalize (f.running (if e.1 < 2 then 1 else 2)).isEmpty = b
  split
  · simp [goes]
  · next h =>
    split
    · simp [goes]
    · simpa using h
theorem Flash.committed_running (f : Flash) (e : Nat × FwSlot) (h : e.2.st = .trialRunning) :
    f.committed e = (e.1, e.2.goes .active) := by
  rw [Flash.committed, if_pos (by simp [h])]

/-- A counter that takes the higher of its value and another. -/
theorem read_raised (t : Twin Nat) (n : Nat) : (if n > t.read then t.put true n else t).read = max t.read n := by
  split
  · next h => rw [Twin.read_put, if_pos rfl]; omega
  · omega

theorem le_foldl_max (l : List Nat) (a n : Nat) (h : n ≤ a ∨ n ∈ l) : n ≤ l.foldl max a := by
  induction l generalizing a with
  | nil => simpa using h
  | cons b l ih =>
    refine ih _ ?_
    rcases h with h | h
    · exact .inl (Nat.le_trans h (Nat.le_max_left _ _))
    · rcases List.mem_cons.1 h with rfl | h
      · exact .inl (Nat.le_max_right _ _)
      · exact .inr h
theorem mem_fwSlots_headframe {i : Nat} (h : i < 2) : i ∈ fwSlots 1 := by
  rcases (by omega : i = 0 ∨ i = 1) with rfl | rfl <;> decide
theorem mem_fwSlots_fabric {i : Nat} (h : i = 2 ∨ i = 3) : i ∈ fwSlots 2 := by
  rcases h with rfl | rfl <;> decide
/-- The security version of a running trial is at most the highest of its kind. -/
theorem Flash.fwSec_le_runningSec (f : Flash) (kind i : Nat) (hi : i ∈ fwSlots kind)
    (h : (Tab.get ({} : FwSlot) f.fw i).st = .trialRunning) : fwSec (Tab.get ({} : FwSlot) f.fw i).image ≤ f.runningSec kind :=
  le_foldl_max _ 0 _ (.inr (List.mem_map.2 ⟨i, List.mem_filter.2 ⟨hi, by simp [h]⟩, rfl⟩))

/-- A commit makes the running trials active and counts no security version down. -/
theorem Flash.doJob_commit_done (f : Flash) (j : FlashJob) (hc : j.code = 0) (ho : j.op = 2) :
    (∀ e ∈ (f.doJob j).fw, e.2.st ≠ .trialRunning)
    ∧ (∀ e ∈ f.fw, e.2.st = .trialRunning → (e.1, e.2.goes .active) ∈ (f.doJob j).fw)
    ∧ (f.doJob j).hfRollback = max f.hfRollback (f.runningSec 1) ∧ (f.doJob j).fabRollback = max f.fabRollback (f.runningSec 2) := by
  rw [f.doJob_commit j hc ho]
  refine ⟨fun e he => ?_, fun e he hst => ?_, read_raised _ _, read_raised _ _⟩
  · obtain ⟨e', -, rfl⟩ := List.mem_map.1 he
    exact f.committed_st e'
  · exact List.mem_map.2 ⟨e, he, f.committed_running e hst⟩

/-! ## The end of an operation -/

theorem exec_flashOpComplete (s : State) (j : FlashJob) (h : s.boot.flashJob = some j) :
    exec .flashOpComplete s = .next (s.settle ((s.begin_.modFlash fun f => f.doJob j).modBoot fun b => { b with
      flashJob := none, flashCode := j.code })) := by
  show execFlashOpComplete s = _
  simp only [execFlashOpComplete, run_eq, State.begin_boot, h]
theorem exec_flashOpComplete_idle (s : State) (h : s.boot.flashJob = none) : exec .flashOpComplete s = .next s := by
  show execFlashOpComplete s = _
  simp only [execFlashOpComplete, run_eq, State.begin_boot, h, State.settle_begin]

/-- Settles O57: each command starts the operation that `Work.flashJob` gives, and one that completes has done what
`Flash.doJob` does. -/
theorem flashOperations : Obligations.FlashOperations := by
  intro s hs
  obtain ⟨hstage, hstageCode, hstageSource, hstageFrame⟩ := s.begin_.flashJob_stage
  obtain ⟨hcommit, hcommitCode, hcommitFrame⟩ := s.begin_.flashJob_commit
  obtain ⟨hsave, hsaveCode, hsaveNone, hsaveFrame⟩ := s.begin_.flashJob_planSave
  obtain ⟨hadd, haddSource, haddFull, haddCode, haddFrame⟩ := s.begin_.flashJob_anchorAdd
  refine ⟨?_, ?_, ?_, ?_, ?_, ?_, fun j hj => ?_, exec_flashOpComplete_idle s⟩
  · exact startsFlash_of s .fwStage 1 _ hs rfl (by decide) hstage ⟨hstageCode, hstageSource⟩ hstageFrame
  · exact startsFlash_of s .fwCommit 2 _ hs rfl (by decide) hcommit hcommitCode (congrArg sourceBlank hcommitFrame)
  · exact startsFlash_of s .planSave 3 _ hs rfl (by decide) hsave ⟨hsaveCode, hsaveNone⟩ (congrArg sourceBlank hsaveFrame)
  · exact startsFlash_of s .planClear 4 _ hs rfl (by decide) rfl rfl rfl
  · exact startsFlash_of s .anchorAdd 5 _ hs rfl (by decide) hadd ⟨haddSource, haddFull, haddCode⟩ haddFrame
  · exact startsFlash_of s .anchorClear 6 _ hs rfl (by decide) rfl rfl rfl
  · refine ⟨_, exec_flashOpComplete s j hj, rfl, rfl, State.settle_mem_same _ _ rfl rfl, s.flash.doJob_fails j,
      s.flash.doJob_stage j, fun hc ho => ?_, s.flash.doJob_planSave j, s.flash.doJob_planClear j, s.flash.doJob_anchorAdd j,
      s.flash.doJob_anchorClear j⟩
    obtain ⟨hnone, hactive, hhf, hfab⟩ := s.flash.doJob_commit_done j hc ho
    refine ⟨hnone, hactive, ?_, ?_, fun i hi hr => ?_, fun i hi hr => ?_⟩
    · exact hhf ▸ Nat.le_max_left _ _
    · exact hfab ▸ Nat.le_max_left _ _
    · exact hhf ▸ Nat.le_trans (s.flash.fwSec_le_runningSec 1 i (mem_fwSlots_headframe hi) hr) (Nat.le_max_right _ _)
    · exact hfab ▸ Nat.le_trans (s.flash.fwSec_le_runningSec 2 i (mem_fwSlots_fabric hi) hr) (Nat.le_max_right _ _)

end Sys2Proof.Machine
end

section
/-! What registers read after reset, and one tick of the clocks with no command waiting (R25, R28, R380, R383). -/

namespace Sys2Proof.Machine

/-- Settles O3: each value is what the reset state, which is closed, evaluates to. -/
theorem resetRegisters : Obligations.ResetRegisters :=
  ⟨rfl, rfl, rfl, rfl, rfl, rfl, rfl, rfl, rfl, rfl, rfl, rfl, rfl⟩

/-- A part whose bell time counts and loses a tick, and stands at 2^64, one past the last bell tick (R380). -/
def bellPastEnd : State :=
  { State.reset with clk := { bell := 2 ^ 64 }, bell := { st := .locked, frac := -1000000 } }

theorem bellPastEnd_loses : bellPastEnd.loses = true ∧ bellPastEnd.gains = false := by decide
/-- The tick that is taken out still cuts bell time to 64 bits. -/
theorem tick_bellPastEnd : (tick bellPastEnd).clk.bell = 0 := rfl

/-- Refutes O2: where the rate correction takes a tick out, bell time should stand as it is, but `Work.bellNext` cuts it to 64
bits all the same. In a state whose bell time is 2^64, one past the last that a device shows, a step leaves 0. -/
theorem not_idleStepTicks : ¬ Obligations.IdleStepTicks := by
  intro h
  obtain ⟨t, hstep, -, hbell, -⟩ := h bellPastEnd rfl
  obtain ⟨hloses, hgains⟩ := bellPastEnd_loses
  have ht : tick bellPastEnd = t := Host.Outcome.next.inj hstep
  have hstands : t.clk.bell = bellPastEnd.clk.bell := by simpa [hloses, hgains] using hbell
  rw [← ht, tick_bellPastEnd] at hstands
  exact absurd hstands (show 0 ≠ 2 ^ 64 by decide)

end Sys2Proof.Machine
end

section
/-! Which commands complete (R19, R22, R23): the units that a command names are all that its outcome rests on (log entry 11). -/

namespace Sys2Proof.Machine

/-- A command whose units exist completes, and one that names a missing unit faults: its meaning is a `run`, or a `runIf` that asks
for the units that `Instr.unitsExist` asks for. -/
theorem exec_eq (i : Instr) (s : State) : ∃ t, exec i s = if i.unitsExist then .next t else .fault .noSuchUnit := by
  cases i with
  | pointsSwitch p n =>
    have hunits : (Instr.pointsSwitch p n).unitsExist = (okPort n && okPart p) := Bool.and_comm _ _
    rw [hunits]
    exact ⟨_, rfl⟩
  | _ => exact ⟨_, rfl⟩

open Laws.UnitsExist in
/-- A well-formed command names units that exist. -/
theorem unitsExist_of_wf : ∀ i : Instr, Statement i
  | .nop _ => nop _ | .fence _ => fence _ | .branchIf _ => branchIf _ | .call _ => call _ | .ret _ => ret _
  | .waitBell _ => waitBell _ | .bounds _ => bounds _ | .shift _ => shift _ | .tagSignal _ => tagSignal _
  | .tagWait _ => tagWait _ | .tagSet _ => tagSet _ | .tagRemote _ => tagRemote _ | .load _ => load _ | .store _ => store _
  | .prefetch _ => prefetch _ | .copy _ => copy _ | .tileMm _ _ _ => tileMm _ _ _ | .tileMv _ _ _ => tileMv _ _ _
  | .tileSp _ _ _ => tileSp _ _ _ | .maskReg _ _ _ => maskReg _ _ _ | .gather _ _ _ => gather _ _ _
  | .merge _ _ _ => merge _ _ _ | .segsort _ _ _ => segsort _ _ _ | .vecOp _ _ _ => vecOp _ _ _
  | .rowNorm _ _ _ => rowNorm _ _ _ | .rowSoftmax _ _ _ => rowSoftmax _ _ _ | .rowLoss _ _ _ => rowLoss _ _ _
  | .optStep _ _ _ => optStep _ _ _ | .route _ => route _ | .census _ => census _ | .grantWait _ => grantWait _
  | .amaxRound _ _ => amaxRound _ _ | .collBucket _ _ => collBucket _ _ | .kvPass _ _ => kvPass _ _
  | .descCreate _ => descCreate _ | .descDrop _ => descDrop _ | .secure _ => secure _ | .digest _ => digest _
  | .commandFetch _ => commandFetch _ | .commandIssue _ _ => commandIssue _ _ | .engineDispatch _ _ => engineDispatch _ _
  | .commandRetire _ _ => commandRetire _ _ | .deadlineTest _ _ _ => deadlineTest _ _ _
  | .overrunTallyRecord _ => overrunTallyRecord _ | .devDoorbell _ _ => devDoorbell _ _
  | .devTallyAck _ _ => devTallyAck _ _ | .arm _ => arm _ | .stop _ => stop _ | .resumeRetry _ => resumeRetry _
  | .resumeSkip _ => resumeSkip _ | .disarm _ => disarm _ | .stoppingDrained _ => stoppingDrained _
  | .devTagSignal _ _ => devTagSignal _ _ | .faceReset _ => faceReset _ | .galleryReset _ => galleryReset _
  | .partitionReset _ => partitionReset _ | .warmReset => warmReset | .coldReset => coldReset
  | .resetComplete => resetComplete | .shiftMark _ => shiftMark _ | .auditComplete _ => auditComplete _
  | .collectivePhase _ _ _ => collectivePhase _ _ _ | .pointsPreIdle _ _ => pointsPreIdle _ _
  | .pointsSwitch _ _ => pointsSwitch _ _ | .hostDeadline _ _ => hostDeadline _ _
  | .grantDeadlineTest _ _ => grantDeadlineTest _ _ | .grantInstall _ _ _ => grantInstall _ _ _
  | .reconfigBoundary _ => reconfigBoundary _ | .secureWindowOpen _ => secureWindowOpen _
  | .secureWindowClose _ => secureWindowClose _ | .heartbeatSend => heartbeatSend | .heartbeatLoss _ => heartbeatLoss _
  | .lossOfLight _ => lossOfLight _ | .seekLightDetect _ => seekLightDetect _ | .trainComplete _ => trainComplete _
  | .trainingRecordReceive _ _ => trainingRecordReceive _ _ | .trainingTimeout _ => trainingTimeout _
  | .pointsRetrainTimeout _ => pointsRetrainTimeout _ | .faultedTimeout _ => faultedTimeout _ | .retrain _ _ => retrain _ _
  | .fabLostClear _ _ => fabLostClear _ _ | .writeTransactionReceive _ _ _ => writeTransactionReceive _ _ _
  | .readRequestReceive _ _ _ _ _ _ _ _ => readRequestReceive _ _ _ _ _ _ _ _
  | .readResponseReceive _ _ _ _ _ _ => readResponseReceive _ _ _ _ _ _ | .ackReceive _ _ _ _ => ackReceive _ _ _ _
  | .nakReceive _ _ _ _ _ => nakReceive _ _ _ _ _ | .tagSignalReceive _ _ _ _ _ _ _ => tagSignalReceive _ _ _ _ _ _ _
  | .heartbeatReceive _ _ _ => heartbeatReceive _ _ _ | .lossNoticeReceive _ _ _ _ _ => lossNoticeReceive _ _ _ _ _
  | .badFlitReceive _ _ => badFlitReceive _ _ | .flitForward _ _ _ => flitForward _ _ _
  | .transitCreditTimeout _ => transitCreditTimeout _ | .settlementTimeout _ => settlementTimeout _
  | .collectiveFlitReceive _ _ _ => collectiveFlitReceive _ _ _
  | .closeFlitReceive _ _ _ _ _ _ => closeFlitReceive _ _ _ _ _ _
  | .resolveFlitReceive _ _ _ _ _ _ => resolveFlitReceive _ _ _ _ _ _
  | .kvReadyReceive _ _ _ _ _ _ => kvReadyReceive _ _ _ _ _ _ | .collectiveIdleTimeout _ _ => collectiveIdleTimeout _ _
  | .ptpMessage _ _ _ _ _ _ => ptpMessage _ _ _ _ _ _ | .freerunTimeout => freerunTimeout | .masterTimeout => masterTimeout
  | .upstreamReselectTimeout => upstreamReselectTimeout | .holdoverTimeout => holdoverTimeout
  | .canaryEvaluation => canaryEvaluation | .stopeRampStep _ _ => stopeRampStep _ _
  | .stopeIdleTimeout _ _ => stopeIdleTimeout _ _ | .stopeWindStep _ _ => stopeWindStep _ _
  | .faceStopeCtrl _ _ => faceStopeCtrl _ _ | .regulatorRefill => regulatorRefill | .scrubRead _ _ _ => scrubRead _ _ _
  | .save => save | .healthSaveComplete => healthSaveComplete | .memRepairCtrl _ => memRepairCtrl _
  | .memRepairCmd _ => memRepairCmd _ | .devPartQuiesce _ => devPartQuiesce _ | .quiesceComplete _ => quiesceComplete _
  | .commit => commit | .discard => discard | .validationComplete => validationComplete | .applyComplete => applyComplete
  | .devGrantArea _ _ => devGrantArea _ _ | .devRatioArea _ _ => devRatioArea _ _ | .devRosterArea _ _ => devRosterArea _ _
  | .registerWrite _ _ => registerWrite _ _ | .spdm _ _ => spdm _ _ | .secured _ _ _ _ _ => secured _ _ _ _ _
  | .sessionOpen _ _ _ _ _ => sessionOpen _ _ _ _ _ | .leaseRenew _ => leaseRenew _ | .sessionClose _ => sessionClose _
  | .custodyClaim _ => custodyClaim _ | .regRead _ _ => regRead _ _ | .regWrite _ _ => regWrite _ _
  | .memRead _ _ _ _ => memRead _ _ _ _ | .memWrite _ _ _ => memWrite _ _ _ | .doorbell _ _ => doorbell _ _
  | .reset _ _ _ _ => reset _ _ _ _ | .imageWrite _ _ _ _ => imageWrite _ _ _ _ | .grant _ _ _ _ _ => grant _ _ _ _ _
  | .eventAck _ _ => eventAck _ _ | .telemetrySet _ _ _ _ => telemetrySet _ _ _ _ | .windowOpen _ _ => windowOpen _ _
  | .windowClose _ _ _ => windowClose _ _ _ | .addrSet _ _ => addrSet _ _ | .telemetry _ => telemetry _
  | .eventResend _ => eventResend _ | .leaseExpiry _ => leaseExpiry _ | .fragmentTimeout _ _ => fragmentTimeout _ _
  | .reservationExpiry => reservationExpiry | .neighborPacket _ _ => neighborPacket _ _
  | .rdmaWrite _ _ _ _ _ _ _ _ => rdmaWrite _ _ _ _ _ _ _ _ | .rdmaRead _ _ _ _ _ _ _ => rdmaRead _ _ _ _ _ _ _
  | .roceInvalidRequest _ _ _ _ => roceInvalidRequest _ _ _ _ | .cnpReceive _ _ => cnpReceive _ _
  | .roceRateRestore => roceRateRestore | .fwStage => fwStage | .fwCommit => fwCommit | .planSave => planSave
  | .planClear => planClear | .anchorAdd => anchorAdd | .anchorClear => anchorClear | .flashOpComplete => flashOpComplete
  | .romSelfTestComplete _ _ => romSelfTestComplete _ _ | .identityComplete _ => identityComplete _
  | .hfVerifyComplete _ => hfVerifyComplete _ | .hfStartComplete _ _ => hfStartComplete _ _
  | .planLoadComplete => planLoadComplete | .vinRise _ => vinRise _ | .vinLow => vinLow
  | .undervoltageTrip => undervoltageTrip | .overcurrentTrip => overcurrentTrip | .vinRemove => vinRemove
  | .resetNAssert => resetNAssert | .resetNRelease => resetNRelease | .refclkLoss => refclkLoss
  | .refclkRecover => refclkRecover | .brakeNAssert => brakeNAssert | .brakeNRelease => brakeNRelease
  | .governorSample _ _ _ => governorSample _ _ _ | .thermalLevelRise _ => thermalLevelRise _
  | .thermalLevelFall _ => thermalLevelFall _ | .inletHigh => inletHigh | .smbusReadStatus => smbusReadStatus
  | .smbusReadInput => smbusReadInput | .smbusReadTemp => smbusReadTemp | .smbusReadId => smbusReadId
  | .smbusWrite _ => smbusWrite _ | .idleFlitReceive _ _ _ _ => idleFlitReceive _ _ _ _ | .ptpLockLoss => ptpLockLoss
  | .spdmHeartbeatTimeout _ => spdmHeartbeatTimeout _ | .hostLinkChange _ _ _ _ => hostLinkChange _ _ _ _
  | .pfcFrameReceive _ _ _ => pfcFrameReceive _ _ _ | .reservedMessageType _ _ => reservedMessageType _ _
  | .hostPacketDiscard _ _ => hostPacketDiscard _ _ | .memRepairData _ _ => memRepairData _ _

/-- Settles O7: the outcome rests on the units that exist, and a well-formed command names none that does not. -/
theorem unitsDecide : Obligations.UnitsDecide := by
  refine ⟨fun c s hwf => ?_, fun c s hmissing => ?_⟩
  · obtain ⟨t, ht⟩ := exec_eq c s
    exact ⟨t, by rw [ht, if_pos (unitsExist_of_wf c hwf)]⟩
  · obtain ⟨t, ht⟩ := exec_eq c s
    rw [ht, if_neg (by simp [hmissing])]

end Sys2Proof.Machine
end

section
/-! What taking and sending flits keeps besides its frame (R362 to R368): the link state and role of every port and the counts of
received rows and of refusals; and what a port with an empty queue sends. -/

namespace Sys2Proof.Machine

/-! ## Link states, roles and counts -/

/-- What decides which flits a port takes, and whether it is an egress port. -/
def Blk.side (b : Blk) (n : Nat) : Link × Nat := ((b.port n).st, (b.port n).role)
/-- The sides of the ports, the rows received (R317) and the refusals for a unit under reset (R131). -/
def Work.tally (w : Work) : (Nat → Link × Nat) × Reg × Nat := (w.side, w.dev.ctr.ctr 0x0698, w.dev.resetNaks)

theorem tally_of_dev {v w : Work} (hports : v.ports = w.ports) (hdev : v.dev = w.dev) : v.tally = w.tally := by
  have hside : v.side = w.side := by funext k; rw [Blk.side, Blk.port, hports]; rfl
  rw [Work.tally, hside, hdev, Work.tally]

theorem Work.modPort_tally (w : Work) (n : Nat) (f : Port → Port) (h : ∀ p, (f p).st = p.st ∧ (f p).role = p.role) :
    (w.modPort n f).tally = w.tally := by
  refine Prod.ext (funext fun k => ?_) rfl
  obtain ⟨hst, hrole⟩ := h (w.port k)
  show ((w.modPort n f).port k |>.st, (w.modPort n f).port k |>.role) = _
  rw [Work.port_modPort]
  split
  · rw [hst, hrole]; rfl
  · rfl
theorem Tab.ctr_bump_other (t : Tab Reg) (off k n : Nat) (h : k ≠ off) : (t.bump off n).ctr k = t.ctr k :=
  Tab.get_upd_other 0 t off k _ h
theorem Work.devCtr_tally (w : Work) (off n : Nat) (h : off ≠ 0x0698) : (w.devCtr off n).tally = w.tally :=
  congrArg (fun r => (w.side, r, w.dev.resetNaks)) (w.dev.ctr.ctr_bump_other off 0x0698 n h.symm)

/-! ## Sending (R364, R366, R368) -/

theorem Work.owe_tally (w : Work) (n vc k : Nat) : (w.owe n vc k).tally = w.tally := by
  unfold Work.owe
  split
  · exact w.modPort_tally _ _ fun _ => ⟨rfl, rfl⟩
  · rfl
theorem Work.collLeft_tally (w : Work) (f : Flit) : (w.collLeft f).tally = w.tally := by
  unfold Work.collLeft
  split
  · exact w.devCtr_tally 0x0818 1 (by decide)
  · rfl
theorem Work.stampFlit_tally (w : Work) (n : Nat) (f : Flit) : (w.stampFlit n f).2.tally = w.tally := by
  unfold Work.stampFlit
  split
  · exact w.modPort_tally _ _ fun _ => ⟨rfl, rfl⟩
  · rfl
/-- A port numbers a flit and keeps it for replay. -/
theorem Work.portSent_tally (w : Work) (n vc : Nat) (a : Option Flit) (b : Option TransitFlit) (o : Out) :
    ((w.modPort n fun p => p.sent vc a b).emit o).tally = w.tally :=
  w.modPort_tally n (fun p => p.sent vc a b) fun _ => ⟨rfl, rfl⟩
theorem Work.putFlit_tally (w : Work) (n : Nat) (f : Flit) : (w.putFlit n f).tally = w.tally := by
  have sent := fun o => ((Work.collLeft_tally _ (w.stampFlit n f).1).trans
    (Work.portSent_tally _ n (w.stampFlit n f).1.vc (some (w.stampFlit n f).1) none o)).trans (w.stampFlit_tally n f)
  unfold Work.putFlit
  dsimp only
  split <;> exact sent _
theorem Work.putTransit_tally (w : Work) (n : Nat) (t : Waiting) : (w.putTransit n t).tally = w.tally :=
  (Work.owe_tally _ _ _ _).trans (w.portSent_tally n _ _ _ _)
theorem Port.account_side (p : Port) (x : Queued) (alone : Bool) : (p.account x alone).st = p.st ∧ (p.account x alone).role = p.role := by
  unfold Port.account
  split <;> exact ⟨rfl, rfl⟩
/-- A flit that is sent is taken out of its port's queue. -/
theorem Work.taken_tally (w : Work) (n : Nat) (x : Queued) (alone : Bool) (h : Port → List Flit) (t : Port → List Waiting) :
    (w.modPort n fun p => { p.account x alone with held := h p, transit := t p }).tally = w.tally :=
  w.modPort_tally n (fun p => { p.account x alone with held := h p, transit := t p }) fun p => p.account_side x alone
theorem Work.flushGo_tally (k : Nat) (w : Work) (n : Nat) : (w.flushGo n k).tally = w.tally := by
  induction k generalizing w with
  | zero => rfl
  | succ k ih =>
    unfold Work.flushGo
    split
    · rfl
    · dsimp only
      rw [ih]
      split
      · rw [Work.putFlit_tally, Work.taken_tally]
      · rw [Work.putTransit_tally, Work.taken_tally]
      · rw [Work.taken_tally]
theorem Work.flushPort_tally (w : Work) (n : Nat) : (w.flushPort n).tally = w.tally := Work.flushGo_tally _ w n
theorem Port.credit_side (p : Port) (vc n : Nat) : (p.credit vc n).st = p.st ∧ (p.credit vc n).role = p.role := ⟨rfl, rfl⟩
theorem Port.linkIn_side (p : Port) (vc k free : Nat) (l : LinkIn) :
    (p.linkIn vc k free l).st = p.st ∧ (p.linkIn vc k free l).role = p.role := by
  simp only [Port.linkIn, Port.credit_side, and_self]
theorem Work.linkIn_tally (w : Work) (n vc k free : Nat) (l : LinkIn) : (w.linkIn n vc k free l).tally = w.tally := by
  rw [Work.linkIn, Work.flushPort_tally, Work.modPort_tally _ _ _ fun p => p.linkIn_side vc k free l]
theorem Work.sendFlit_tally (w : Work) (n : Nat) (f : Flit) : (w.sendFlit n f).tally = w.tally := by
  rw [Work.sendFlit, Work.flushPort_tally]
  exact w.modPort_tally n (fun p => p.hold f) fun _ => ⟨rfl, rfl⟩
theorem Work.answerBy_tally (w : Work) (n : Nat) (f : Flit) : (w.answerBy n f).tally = w.tally := by
  unfold Work.answerBy
  split
  · exact w.sendFlit_tally _ _
  · split
    · exact w.sendFlit_tally _ _
    · rfl

/-! ## Reading and writing memory (R371, R433, R441) -/

theorem Work.w1cMark_tally (w : Work) (a m : Nat) : (w.w1cMark a m).tally = w.tally := rfl
theorem Work.canaryAll_tally (w : Work) (i n : Nat) : (w.canaryAll i n).tally = w.tally :=
  tally_of_dev (by simp) (by simp)
theorem Work.raise_tally (w : Work) (kind part code shift : Nat) (l : List Nat) : (w.raise kind part code shift l).tally = w.tally :=
  (congrArg Work.tally (w.raise_frame kind part code shift l) :)
theorem Work.modMs_tally (w : Work) (f : MemSys → MemSys) : (w.modMs f).tally = w.tally := rfl
theorem Work.memCe_tally (w : Work) (pc : Nat) : (w.memCe pc).tally = w.tally := by
  unfold Work.memCe
  dsimp only
  split
  · split
    · rw [Work.w1cMark_tally, Work.modMs_tally, Work.canaryAll_tally, Work.modMs_tally]
    · rw [Work.canaryAll_tally, Work.w1cMark_tally, Work.modMs_tally, Work.canaryAll_tally, Work.modMs_tally]
  · rw [Work.canaryAll_tally, Work.modMs_tally]
theorem Work.memUe_tally (w : Work) (pc off source : Nat) : (w.memUe pc off source).tally = w.tally := by
  unfold Work.memUe
  dsimp only
  rw [Work.raise_tally]
  split
  · rw [Work.canaryAll_tally, Work.canaryAll_tally, Work.w1cMark_tally, Work.modMs_tally]
  · rw [Work.canaryAll_tally, Work.w1cMark_tally, Work.modMs_tally]
theorem Work.softWord_tally (w : Work) (s : Nat) : (w.softWord s).tally = w.tally := by unfold Work.softWord; split <;> rfl
theorem Work.hardWord_tally (w : Work) (s : Nat) : (w.hardWord s).tally = w.tally := by unfold Work.hardWord; split <;> rfl
theorem Work.charge_tally (w : Work) (p : Nat) (l : List Nat) : (w.charge p l).tally = w.tally :=
  tally_of_dev (by simp) (by simp)
theorem Work.store_tally (w : Work) (p a : Nat) (l : List Nat) : (w.store p a l).tally = w.tally :=
  tally_of_dev (by simp) (by simp)
theorem Work.softMet_tally (w : Work) (l : List (Nat × Nat)) : (w.softMet l).tally = w.tally := by
  have hbm : (w.softHbm l).tally = w.tally := Work.each_keeps Work.tally _ (fun w _ => w.memCe_tally _) _ w
  rw [Work.softMet, Work.softStore, Work.modMs_tally, Work.each_keeps Work.tally Work.softWord fun w s => w.softWord_tally s, hbm]
theorem Work.reading_tally (w : Work) (p : Nat) (l : List (Nat × Nat)) : (w.reading p l).tally = w.tally :=
  (Work.charge_tally _ _ _).trans (w.softMet_tally l)
theorem Work.eccMet_tally (w : Work) (a len source : Nat) : (w.eccMet a len source).tally = w.tally := by
  unfold Work.eccMet
  split
  · exact Work.each_keeps Work.tally _ (fun w _ => w.memUe_tally _ _ _) _ _
  · exact Work.each_keeps Work.tally _ (fun w s => w.hardWord_tally s) _ _
theorem Work.readingTo_tally (w : Work) (p : Nat) (l : List (Nat × Nat)) (bad : Option (Nat × Nat)) :
    (w.readingTo p l bad).tally = w.tally := by
  unfold Work.readingTo
  split
  · exact w.reading_tally _ _
  · rw [Work.eccMet_tally, Work.reading_tally]

/-! ## A port whose queue is empty (R366, R368) -/

/-- A flit of this device that belongs to none of its transactions and collectives is held back by no window (R465). -/
theorem Blk.windowShut_foreign (b : Blk) (f : Flit) (h : f.own = none) : b.windowShut f = false := by
  rw [Blk.windowShut, h]
  rfl
/-- The queue of a port that holds one flit which belongs to no transaction of this device. -/
theorem Blk.queue_single (b : Blk) (p : Port) (f : Flit) (hheld : p.held = [f]) (htransit : p.transit = []) (hown : f.own = none)
    (htype : f.type ≠ 1) : b.queue p = [⟨f.ord, f.vc, b.flitPart f, false, 0⟩] := by
  simp [Blk.queue, hheld, htransit, b.windowShut_foreign f hown, htype]
theorem Blk.fairest_nil (b : Blk) (p : Port) : b.fairest p [] = none := rfl
theorem Blk.fairest_single (b : Blk) (p : Port) (x : Queued) : b.fairest p [x] = some x := by
  unfold Blk.fairest
  by_cases h : x.sec <;> simp [h, oldest]
/-- The only flit of a port's queue goes next, where its channel has a credit. -/
theorem Blk.nextFlit_single (b : Blk) (n : Nat) (x : Queued) (hqueue : b.queue (b.port n) = [x]) (hsec : x.sec = false)
    (hmay : (b.port n).maySend x.vc = true) (hvc : x.vc < 4) : b.nextFlit n = some x := by
  obtain ⟨ord, vc, part, sec, share⟩ := x
  subst hsec
  unfold Blk.nextFlit
  dsimp only at hmay hvc ⊢
  rw [hqueue]
  rcases (by omega : vc = 0 ∨ vc = 1 ∨ vc = 2 ∨ vc = 3) with rfl | rfl | rfl | rfl <;>
    simp [hmay, oldest, Blk.fairest_nil, Blk.fairest_single]

theorem Work.stampFlit_other (w : Work) (n : Nat) (f : Flit) (h : f.type ≠ 7) : w.stampFlit n f = (f, w) := by
  rw [Work.stampFlit, if_neg fun c => h c.1]
/-- A flit that is no heartbeat and belongs to no transaction and no collective of this device leaves as it is, and its port takes
note of it. -/
theorem Work.putFlit_foreign (w : Work) (n : Nat) (f : Flit) (hown : f.own = none) (hcoll : f.coll = none) (htype : f.type ≠ 7) :
    w.putFlit n f = (w.modPort n fun p => p.sent f.vc (some f) none).emit (.flit n (w.wire (w.port n) f (w.port n).txSeq)) := by
  rw [Work.putFlit, w.stampFlit_other n f htype]
  simp only [hown, Work.collLeft, hcoll]
/-- A flit with its place in a port's queue. -/
def Flit.queuedAs (f : Flit) (k : Nat) : Flit := { f with ord := k }
theorem Port.hold_held (p : Port) (f : Flit) : (p.hold f).held = p.held ++ [f.queuedAs p.queued] := rfl
/-- A flit that is queued at a port with an empty queue is alone there, and the port sends at most once. -/
theorem Work.sendFlit_emptyQueue (w : Work) (n : Nat) (f : Flit) (hheld : (w.port n).held = []) (htransit : (w.port n).transit = []) :
    ∃ v : Work, w.sendFlit n f = v.flushGo n 1 ∧ v.port n = (w.port n).hold f
      ∧ (v.port n).held = [f.queuedAs (w.port n).queued] ∧ (v.port n).transit = []
      ∧ v.struct = w.struct ∧ v.out = w.out ∧ v.flights = w.flights := by
  have hport : (w.modPort n fun p => p.hold f).port n = (w.port n).hold f := by rw [Work.port_modPort, if_pos rfl]
  have hone : ((w.modPort n fun p => p.hold f).port n).held = [f.queuedAs (w.port n).queued] := by
    rw [hport, Port.hold_held, hheld, List.nil_append]
  have hnone : ((w.modPort n fun p => p.hold f).port n).transit = [] := by rw [hport]; exact htransit
  refine ⟨_, ?_, hport, hone, hnone, rfl, rfl, rfl⟩
  rw [Work.sendFlit, Work.flushPort, hone, hnone]
  rfl
theorem Port.account_sent (p : Port) (x : Queued) (alone : Bool) : (p.account x alone).txSeq = p.txSeq
    ∧ (p.account x alone).rxSeq = p.rxSeq ∧ (p.account x alone).owed = p.owed := by
  unfold Port.account
  split <;> exact ⟨rfl, rfl, rfl⟩
/-- A flit of this device that goes next is taken out of its port's queue and sent. -/
theorem Work.flushGo_held (w : Work) (n : Nat) (x : Queued) (f : Flit) (hnext : w.nextFlit n = some x)
    (hfind : (w.port n).held.find? (fun f => f.ord == x.ord) = some f) :
    ∃ v : Work, w.flushGo n 1 = v.putFlit n f ∧ v.struct = w.struct ∧ v.out = w.out ∧ (v.port n).txSeq = (w.port n).txSeq
      ∧ (v.port n).rxSeq = (w.port n).rxSeq ∧ (v.port n).owed = (w.port n).owed := by
  have taken : ∀ alone, ∃ v : Work, (w.modPort n fun p => { p.account x alone with
        held := p.held.filter (fun f => f.ord != x.ord), transit := p.transit.filter (fun t => t.ord != x.ord) }) = v
      ∧ v.struct = w.struct ∧ v.out = w.out ∧ (v.port n).txSeq = (w.port n).txSeq
      ∧ (v.port n).rxSeq = (w.port n).rxSeq ∧ (v.port n).owed = (w.port n).owed := by
    intro alone
    refine ⟨_, rfl, rfl, rfl, ?_⟩
    rw [Work.port_modPort, if_pos rfl]
    exact (w.port n).account_sent x alone
  obtain ⟨v, hv, hfields⟩ := taken ((w.queue (w.port n)).all fun y => y.vc != x.vc || y.part == x.part)
  refine ⟨v, ?_, hfields⟩
  rw [Work.flushGo, hnext]
  dsimp only
  rw [hfind, hv]
  rfl
theorem Blk.wire_congr (b c : Blk) (p q : Port) (f : Flit) (seq : Nat) (hplan : b.struct = c.struct) (hack : p.rxSeq = q.rxSeq)
    (howed : p.owed = q.owed) : b.wire p f seq = c.wire q f seq := by
  rw [Blk.wire, Blk.ownPos, hplan, hack, howed]
  rfl
/-- A port with an empty queue sends a flit at once where the flit's channel has a credit. -/
theorem Work.sendFlit_out (w : Work) (n : Nat) (f : Flit) (hheld : (w.port n).held = []) (htransit : (w.port n).transit = [])
    (hmay : (w.port n).maySend f.vc = true) (hvc : f.vc < 4) (hown : f.own = none) (hcoll : f.coll = none) (hwrite : f.type ≠ 1)
    (hbeat : f.type ≠ 7) : (w.sendFlit n f).out = w.out ++ [Out.flit n (w.wire (w.port n) f (w.port n).txSeq)] := by
  obtain ⟨v, hsend, hport, hone, hnone, hstruct, hout, -⟩ := w.sendFlit_emptyQueue n f hheld htransit
  have hnext := v.nextFlit_single n _ (v.queue_single _ _ hone hnone hown hwrite) rfl (by rw [hport]; exact hmay) hvc
  obtain ⟨u, hgo, hustruct, huout, htx, hrx, howed⟩ := v.flushGo_held n _ (f.queuedAs (w.port n).queued) hnext
    (by rw [hone]; exact List.find?_cons_of_pos (beq_self_eq_true _))
  have hwire := u.wire_congr w.toBlk (u.port n) (w.port n) (f.queuedAs (w.port n).queued) (u.port n).txSeq
    (hustruct.trans hstruct) (by rw [hrx, hport]; rfl) (by rw [howed, hport]; rfl)
  have htx : (u.port n).txSeq = (w.port n).txSeq := by rw [htx, hport]; rfl
  rw [hsend, hgo, u.putFlit_foreign n (f.queuedAs (w.port n).queued) hown hcoll hbeat, hwire, htx, Work.emit_out, Work.modPort_out, huout, hout]
  rfl
theorem Work.putFlit_flights (w : Work) (n : Nat) (f : Flit) (h : f.coll = none) : (w.putFlit n f).flights = w.flights := by
  have hstamp : (w.stampFlit n f).1.coll = none ∧ (w.stampFlit n f).2.flights = w.flights := by
    unfold Work.stampFlit
    split <;> exact ⟨h, rfl⟩
  obtain ⟨hcoll, hflights⟩ := hstamp
  unfold Work.putFlit
  generalize w.stampFlit n f = st at hcoll hflights ⊢
  simp only [Work.collLeft, hcoll]
  split
  · rw [Work.modTxn_flights, Work.emit_flights, Work.modPort_flights, hflights]
  · rw [Work.emit_flights, Work.modPort_flights, hflights]
/-- A port with an empty queue that is given a flit of no collective leaves the flights as they are. -/
theorem Work.sendFlit_flights (w : Work) (n : Nat) (f : Flit) (hheld : (w.port n).held = []) (htransit : (w.port n).transit = [])
    (hcoll : f.coll = none) : (w.sendFlit n f).flights = w.flights := by
  obtain ⟨v, hsend, -, hone, hnone, -, -, hflights⟩ := w.sendFlit_emptyQueue n f hheld htransit
  rw [hsend, Work.flushGo]
  split
  · exact hflights
  · next x hx =>
    dsimp only
    rw [hnone]
    split
    · next g hg =>
      have hmem : g ∈ (v.port n).held := List.mem_of_find?_eq_some hg
      rw [hone, List.mem_singleton] at hmem
      exact (Work.putFlit_flights _ n g (hmem ▸ hcoll)).trans hflights
    · next ht => cases ht
    · exact hflights

end Sys2Proof.Machine
end

section
/-! Transactions of other devices (R116, R131, R311, R362 to R371): a flit that comes in order to an UP port, what each kind does
then, and how it is answered. -/

namespace Sys2Proof.Machine

/-! ## What arrives (R362, R364) -/

section
variable (n vc type k : Nat) (l : LinkIn) (f : Work → Work) (s : State) (hn : n < Config.nPorts) (hup : (s.port n).st = .up)
include hn

theorem onUp_outOfOrder (ho : (s.port n).inOrder l.seq = false) : onUp n vc type k l f s = .next s := by
  have hneg : ¬((s.port n).st = .up ∧ (s.port n).inOrder l.seq = true) := fun h => by simp [ho] at h
  rw [onUp, runIf_of _ _ s (by simpa using hn)]
  refine (congrArg (fun w => Host.Outcome.next (s.settle w)) (if_neg hneg)).trans ?_
  rw [State.settle_begin]
include hup
theorem onUp_inOrder (ho : (s.port n).inOrder l.seq = true) : onUp n vc type k l f s
    = .next (s.settle (if roleTakes (s.port n).role vc type then f (s.begin_.linkIn n vc k k l) else s.begin_.linkIn n vc k k l)) := by
  rw [onUp, runIf_of _ _ s (by simpa using hn)]
  exact congrArg (fun w => Host.Outcome.next (s.settle w)) (if_pos ⟨hup, ho⟩)
theorem onUp_taken (ho : (s.port n).inOrder l.seq = true) (hr : roleTakes (s.port n).role vc type = true) :
    onUp n vc type k l f s = .next (s.settle (f (s.begin_.linkIn n vc k k l))) := by
  rw [onUp_inOrder n vc type k l f s hn hup ho, if_pos hr]
theorem onUp_notTaken (ho : (s.port n).inOrder l.seq = true) (hr : roleTakes (s.port n).role vc type = false) :
    onUp n vc type k l f s = .next (arrived s n vc k k l) := by
  rw [onUp_inOrder n vc type k l f s hn hup ho, if_neg (by simp [hr])]
  rfl

end

/-- What sending changes plays no part in whether a transaction is acceptable. -/
theorem acceptable_of_sendBlank {v w : Work} (h : sendBlank v = sendBlank w) (p a len t : Nat) :
    v.acceptable p a len = w.acceptable p a len ∧ v.underReset p a len = w.underReset p a len
      ∧ v.tagAcceptable p t = w.tagAcceptable p t :=
  ⟨(congrArg (fun u : Work => u.acceptable p a len) h :), (congrArg (fun u : Work => u.underReset p a len) h :),
    (congrArg (fun u : Work => u.tagAcceptable p t) h :)⟩
theorem fields_of_sendBlank {v w : Work} (h : sendBlank v = sendBlank w) : v.tags = w.tags ∧ v.ctxs = w.ctxs ∧ v.bell = w.bell
    ∧ v.fab = w.fab ∧ v.mem = w.mem ∧ v.wr = w.wr ∧ v.ms.scrambled = w.ms.scrambled :=
  ⟨(congrArg (·.tags) h :), (congrArg (·.ctxs) h :), (congrArg (·.bell) h :), (congrArg (·.fab) h :), (congrArg (·.mem) h :),
    (congrArg (·.wr) h :), (congrArg (·.ms.scrambled) h :)⟩
theorem byte_of_sendBlank {v w : Work} (h : sendBlank v = sendBlank w) (a : Nat) : v.byte a = w.byte a :=
  (congrArg (fun u : Work => u.byte a) h :)
theorem Blk.hbmShut_of_acceptable (b : Blk) (p a len : Nat) (h : b.acceptable p a len = true) : b.hbmShut a = false := by
  simp only [Blk.acceptable, Bool.and_eq_true, Bool.not_eq_true'] at h
  exact h.2

/-- What a byte reads as at the end of a command is what the command saw. -/
theorem State.toNat_settle_byte (s : State) (w : Work) (hscr : w.ms.scrambled = s.ms.scrambled) (hmem : w.mem = s.mem) (a : Nat) :
    ((s.settle w).byte a).toNat = w.byte a := by
  rw [State.settle_byte s w hscr, Work.byte, hmem]

/-! ## Where no flit waits -/

theorem Tab.get_cases {α : Type} (d : α) (t : Tab α) (i : Nat) : Tab.get d t i = d ∨ ∃ e ∈ t, e.2 = Tab.get d t i := by
  induction t with
  | nil => exact .inl rfl
  | cons e t ih =>
    obtain ⟨k, v⟩ := e
    by_cases h : k = i
    · exact .inr ⟨(k, v), List.mem_cons_self, by simp [Tab.get, h]⟩
    · rw [Tab.get, if_neg h]
      exact ih.imp_right fun ⟨e, he, hv⟩ => ⟨e, List.mem_cons_of_mem _ he, hv⟩
/-- No flit waits in an egress queue. -/
def Blk.queuesEmpty (b : Blk) : Prop := ∀ n, (b.port n).held = [] ∧ (b.port n).transit = []
theorem queuesEmpty_of_noneHeld {s : State} (h : NoneHeld s) : s.queuesEmpty := by
  intro n
  rcases Tab.get_cases ({} : Port) s.ports n with hd | ⟨e, he, hv⟩
  · rw [Blk.port, hd]
    exact ⟨rfl, rfl⟩
  · rw [Blk.port, ← hv]
    exact h e he
theorem queuesEmpty_of_ports {v w : Work} (h : v.ports = w.ports) (hw : w.queuesEmpty) : v.queuesEmpty := by
  intro n
  rw [Blk.port, h]
  exact hw n
theorem Port.linkIn_queues (p : Port) (vc k free : Nat) (l : LinkIn) :
    (p.linkIn vc k free l).held = p.held ∧ (p.linkIn vc k free l).transit = p.transit := by
  have credit : ∀ (p : Port) (vc n : Nat), (p.credit vc n).held = p.held ∧ (p.credit vc n).transit = p.transit := fun _ _ _ => ⟨rfl, rfl⟩
  simp only [Port.linkIn, credit, and_self]
/-- Where no flit waits, the link fields of what arrives let none go. -/
theorem Work.linkIn_queuesEmpty (w : Work) (n vc k free : Nat) (l : LinkIn) (h : w.queuesEmpty) :
    (w.linkIn n vc k free l).queuesEmpty ∧ (w.linkIn n vc k free l).flights = w.flights := by
  have hempty : (w.modPort n fun p => p.linkIn vc k free l).queuesEmpty := by
    intro j
    obtain ⟨hheld, htransit⟩ := (w.port j).linkIn_queues vc k free l
    rw [Work.port_modPort]
    split
    · rw [hheld, htransit]
      exact h j
    · exact h j
  obtain ⟨hheld, htransit⟩ := hempty n
  have hstay : w.linkIn n vc k free l = w.modPort n fun p => p.linkIn vc k free l := by
    rw [Work.linkIn, Work.flushPort, hheld, htransit]
    rfl
  rw [hstay]
  exact ⟨hempty, rfl⟩
/-- What taking a flit leaves (R364, R366): everything but what sending may change, the sides of the ports and the counts, and,
where no flit waits, the flights. -/
structure Taken (s : State) (w : Work) : Prop where
  frame : sendBlank w = sendBlank s.begin_
  tally : w.tally = s.begin_.tally
  quiet : NoneHeld s → w.queuesEmpty ∧ w.flights = s.flights

theorem State.linkIn_taken (s : State) (n vc k free : Nat) (l : LinkIn) : Taken s (s.begin_.linkIn n vc k free l) where
  frame := s.begin_.linkIn_frame n vc k free l
  tally := s.begin_.linkIn_tally n vc k free l
  quiet h := s.begin_.linkIn_queuesEmpty n vc k free l (queuesEmpty_of_noneHeld h)
theorem onUp_takes (n vc type k : Nat) (l : LinkIn) (f : Work → Work) (s : State) (hn : n < Config.nPorts) (hup : (s.port n).st = .up)
    (ho : (s.port n).inOrder l.seq = true) (hr : roleTakes (s.port n).role vc type = true) :
    ∃ w, Taken s w ∧ onUp n vc type k l f s = .next (s.settle (f w)) :=
  ⟨_, s.linkIn_taken n vc k k l, onUp_taken n vc type k l f s hn hup ho hr⟩

/-- Where no flit waits, an answer, which belongs to no collective, leaves the flights as they are. -/
theorem Work.answerBy_flights (w : Work) (n : Nat) (f : Flit) (h : w.queuesEmpty) (hcoll : f.coll = none) :
    (w.answerBy n f).flights = w.flights := by
  have sent : ∀ (n : Nat) (f : Flit), f.coll = none → (w.sendFlit n f).flights = w.flights := fun n f hf =>
    w.sendFlit_flights n f (h n).1 (h n).2 hf
  unfold Work.answerBy
  split
  · exact sent _ _ hcoll
  · split
    · exact sent _ _ hcoll
    · rfl
theorem Work.ctlBy_flights (w : Work) (n type dst part txn : Nat) (data : List Nat) (h : w.queuesEmpty) :
    (w.ctlBy n type dst part txn data).flights = w.flights := w.answerBy_flights n _ h rfl
theorem Work.refuse_flights (w : Work) (n src part txn : Nat) (reset : Bool) (h : w.queuesEmpty) :
    (w.refuse n src part txn reset).flights = w.flights := by
  unfold Work.refuse
  split
  · exact Work.ctlBy_flights _ n 5 src part txn _ h
  · exact w.ctlBy_flights n 5 src part txn _ h
/-- A refusal is counted where it is for a unit under reset (R131). -/
theorem Work.refuse_resetNaks (w : Work) (n src part txn : Nat) (reset : Bool) :
    (w.refuse n src part txn reset).dev.resetNaks = w.dev.resetNaks + if reset then 1 else 0 := by
  have hnak : ∀ v : Work, (v.nak n src part txn .refused).dev.resetNaks = v.dev.resetNaks := fun v =>
    congrArg (fun t => t.2.2) (v.answerBy_tally n _)
  rw [Work.refuse, hnak]
  cases reset <;> rfl

/-! ## What a transaction does once its flits have been taken (R371, R116) -/

/-- What is done with a write transaction, a read request and a tag signal that have been taken. -/
def Work.takeWrite (w : Work) (n : Nat) (x : WriteTxn) : Work :=
  if w.acceptable x.part x.addr x.data.length then
    let w := w.store x.part x.addr x.data
    let w := match x.row with
      | some (layer, shift) => w.rowReceived x.part layer shift
      | none => w
    w.ctlBy n 4 x.src x.part x.txn []
  else w.refuse n x.src x.part x.txn (w.underReset x.part x.addr x.data.length)
def Work.takeRead (w : Work) (n src part txn vc addr len : Nat) : Work :=
  if !w.acceptable part addr len then w.refuse n src part txn (w.underReset part addr len)
  else match w.eccAt addr len with
    | some _ => ((w.reading part [(addr, len)]).eccMet addr len 1).nak n src part txn .uncorrectable
    | none =>
      (w.reading part [(addr, len)]).each (flitsOf (len / 224 + 1) 0 (w.bytes addr len)) fun w f => w.answerBy n
        { type := 3, vc := vc % 4, dst := src, part := part, txn := txn, addr := addr + f.1, data := f.2 }
def Work.takeTag (w : Work) (n src part txn tag value : Nat) : Work :=
  if w.tagAcceptable part tag then (w.tagAdd tag value).ctlBy n 4 src part txn []
  else w.refuse n src part txn (w.part part).resetting

theorem exec_writeTransactionReceive (n : Nat) (l : LinkIn) (x : WriteTxn) (s : State) : exec (.writeTransactionReceive n l x) s
    = onUp n (x.vc % 4) 1 (flitCount x.data.length) l (fun w => w.takeWrite n x) s := rfl
theorem exec_readRequestReceive (n : Nat) (l : LinkIn) (src part txn vc addr len : Nat) (s : State) :
    exec (.readRequestReceive n l src part txn vc addr len) s
      = onUp n (vc % 4) 2 1 l (fun w => w.takeRead n src part txn vc addr len) s := rfl
theorem exec_tagSignalReceive (n : Nat) (l : LinkIn) (src part txn tag value : Nat) (s : State) :
    exec (.tagSignalReceive n l src part txn tag value) s = onUp n 0 6 1 l (fun w => w.takeTag n src part txn tag value) s := rfl

section
variable (w : Work) (n : Nat) (x : WriteTxn)

theorem Work.takeWrite_plain (hacc : w.acceptable x.part x.addr x.data.length = true) (hrow : x.row = none) :
    w.takeWrite n x = (w.store x.part x.addr x.data).ctlBy n 4 x.src x.part x.txn [] := by
  rw [Work.takeWrite, if_pos hacc, hrow]
theorem Work.takeWrite_row (layer shift : Nat) (hacc : w.acceptable x.part x.addr x.data.length = true)
    (hrow : x.row = some (layer, shift)) : w.takeWrite n x
      = ((w.store x.part x.addr x.data).rowReceived x.part layer shift).ctlBy n 4 x.src x.part x.txn [] := by
  rw [Work.takeWrite, if_pos hacc, hrow]
theorem Work.takeWrite_refused (hacc : w.acceptable x.part x.addr x.data.length = false) :
    w.takeWrite n x = w.refuse n x.src x.part x.txn (w.underReset x.part x.addr x.data.length) := by
  rw [Work.takeWrite, if_neg (by simp [hacc])]

end

/-! ## Token rows (R311, R317) -/

/-- What a token row may change besides the row's bytes: those of its book, what reading them meets, and counts. -/
def rowBlank (w : Work) : Work := tellBlank (writeBlank w)
theorem rowBlank_of_writeBlank {v w : Work} (h : writeBlank v = writeBlank w) : rowBlank v = rowBlank w := congrArg tellBlank h
theorem rowBlank_of_readBlank {v w : Work} (h : readBlank v = readBlank w) : rowBlank v = rowBlank w :=
  rowBlank_of_writeBlank (writeBlank_of_readBlank h)
theorem rowBlank_of_metBlank {v w : Work} (h : metBlank v = metBlank w) : rowBlank v = rowBlank w :=
  (congrArg (fun u : Work => { u with wr := [] }) h :)
theorem Work.bookSet_rowBlank (w : Work) (p layer shift off v : Nat) : rowBlank (w.bookSet p layer shift off v) = rowBlank w := by
  unfold Work.bookSet
  split
  · exact rowBlank_of_writeBlank (w.store_frame _ _ _)
  · rfl
theorem Work.bookSet_tally (w : Work) (p layer shift off v : Nat) : (w.bookSet p layer shift off v).tally = w.tally := by
  unfold Work.bookSet
  split
  · exact w.store_tally _ _ _
  · rfl
theorem Work.bookAdd_rowBlank (w : Work) (p layer shift off : Nat) (n : Int) :
    rowBlank (w.bookAdd p layer shift off n) = rowBlank w := by
  unfold Work.bookAdd
  dsimp only
  split
  · split
    · exact rowBlank_of_metBlank (w.readingTo_metBlank _ _ _)
    · rw [Work.bookSet_rowBlank, rowBlank_of_readBlank (w.reading_frame _ _)]
  · rfl
theorem Work.bookAdd_tally (w : Work) (p layer shift off : Nat) (n : Int) : (w.bookAdd p layer shift off n).tally = w.tally := by
  unfold Work.bookAdd
  dsimp only
  split
  · split
    · exact w.readingTo_tally _ _ _
    · rw [Work.bookSet_tally, Work.reading_tally]
  · rfl
theorem Work.devCtr_rowBlank (w : Work) (off n : Nat) : rowBlank (w.devCtr off n) = rowBlank w :=
  rowBlank_of_readBlank (w.modDev_readBlank _)
theorem Work.rowReceived_frame (w : Work) (p layer shift : Nat) : rowBlank (w.rowReceived p layer shift) = rowBlank w := by
  unfold Work.rowReceived
  dsimp only
  split
  · exact (Work.bookAdd_rowBlank _ _ _ _ _ _).trans (w.devCtr_rowBlank _ _)
  · exact (Work.devCtr_rowBlank _ _ _).trans (w.devCtr_rowBlank _ _)
/-- A token row that is received is counted, and only once. -/
theorem Work.rowReceived_counted (w : Work) (p layer shift : Nat) :
    (w.rowReceived p layer shift).dev.ctr.ctr 0x0698 = w.dev.ctr.ctr 0x0698 + 1 := by
  have rows : ∀ {v u : Work}, v.tally = u.tally → v.dev.ctr.ctr 0x0698 = u.dev.ctr.ctr 0x0698 := fun h =>
    congrArg (fun t => t.2.1) h
  have hcount : (w.devCtr 0x0698 1).dev.ctr.ctr 0x0698 = w.dev.ctr.ctr 0x0698 + 1 := w.dev.ctr.ctr_bump_one 0x0698
  unfold Work.rowReceived
  dsimp only
  split
  · exact (rows (Work.bookAdd_tally _ _ _ _ _ _)).trans hcount
  · exact (rows (Work.devCtr_tally _ 0x0690 1 (by decide))).trans hcount

/-! ## Write transactions -/

theorem Work.ctlBy_frame (w : Work) (n type dst part txn : Nat) (data : List Nat) :
    sendBlank (w.ctlBy n type dst part txn data) = sendBlank w := w.answerBy_frame n _
theorem Work.ctlBy_tally (w : Work) (n type dst part txn : Nat) (data : List Nat) :
    (w.ctlBy n type dst part txn data).tally = w.tally := w.answerBy_tally n _

/-- A write of no token row stores its bytes and no others. -/
theorem Work.byte_takeWrite (w : Work) (n : Nat) (x : WriteTxn) (hacc : w.acceptable x.part x.addr x.data.length = true)
    (hrow : x.row = none) (a : Nat) : (w.takeWrite n x).byte a
      = if x.addr ≤ a ∧ a < x.addr + x.data.length then nth x.data (a - x.addr) % 256 else w.byte a := by
  rw [w.takeWrite_plain n x hacc hrow, byte_of_sendBlank (Work.ctlBy_frame _ _ _ _ _ _ _)]
  exact w.byte_store _ _ _ _ (w.hbmShut_of_acceptable _ _ _ hacc)
/-- An acceptable write leaves everything but memory, counts and what answering may change. -/
theorem Work.takeWrite_fields (w : Work) (n : Nat) (x : WriteTxn) (hacc : w.acceptable x.part x.addr x.data.length = true) :
    (w.takeWrite n x).tags = w.tags ∧ (w.takeWrite n x).ctxs = w.ctxs ∧ (w.takeWrite n x).bell = w.bell
      ∧ (w.takeWrite n x).mem = w.mem ∧ (w.takeWrite n x).ms.scrambled = w.ms.scrambled := by
  have hframe : rowBlank (sendBlank (w.takeWrite n x)) = rowBlank (sendBlank w) := by
    have hstore : rowBlank (sendBlank (w.store x.part x.addr x.data)) = rowBlank (sendBlank w) :=
      (congrArg sendBlank (rowBlank_of_writeBlank (w.store_frame x.part x.addr x.data)) :)
    cases hrow : x.row with
    | none =>
      rw [w.takeWrite_plain n x hacc hrow, Work.ctlBy_frame, hstore]
    | some row =>
      rw [w.takeWrite_row n x row.1 row.2 hacc hrow, Work.ctlBy_frame, ← hstore]
      exact (congrArg sendBlank (Work.rowReceived_frame _ x.part row.1 row.2) :)
  exact ⟨(congrArg (·.tags) hframe :), (congrArg (·.ctxs) hframe :), (congrArg (·.bell) hframe :), (congrArg (·.mem) hframe :),
    (congrArg (·.ms.scrambled) hframe :)⟩
theorem Work.takeWrite_flights (w : Work) (n : Nat) (x : WriteTxn) (hacc : w.acceptable x.part x.addr x.data.length = true)
    (hrow : x.row = none) (h : w.queuesEmpty) : (w.takeWrite n x).flights = w.flights := by
  rw [w.takeWrite_plain n x hacc hrow, Work.ctlBy_flights _ _ _ _ _ _ _ (queuesEmpty_of_ports (by simp) h)]
  simp
/-- A token row is counted, and only once. -/
theorem Work.takeWrite_counted (w : Work) (n layer shift : Nat) (x : WriteTxn)
    (hacc : w.acceptable x.part x.addr x.data.length = true) (hrow : x.row = some (layer, shift)) :
    (w.takeWrite n x).dev.ctr.ctr 0x0698 = w.dev.ctr.ctr 0x0698 + 1 := by
  have hanswer := congrArg (fun t => t.2.1) (Work.ctlBy_tally ((w.store x.part x.addr x.data).rowReceived x.part layer shift) n 4
    x.src x.part x.txn [])
  have hstore : (w.store x.part x.addr x.data).dev = w.dev := by simp
  rw [w.takeWrite_row n x layer shift hacc hrow]
  exact hanswer.trans ((Work.rowReceived_counted _ _ _ _).trans (by rw [hstore]))

section
variable (n : Nat) (l : LinkIn) (x : WriteTxn) (s : State) (hn : n < Config.nPorts) (hup : (s.port n).st = .up)
  (hdue : (s.port n).inOrder l.seq = true) (htakes : roleTakes (s.port n).role (x.vc % 4) 1 = true)
include hn hup hdue htakes

theorem exec_write_stored (hacc : s.acceptable x.part x.addr x.data.length = true) (hrow : x.row = none) :
    ∃ t, exec (.writeTransactionReceive n l x) s = .next t
      ∧ (∀ i < x.data.length, (t.byte (x.addr + i)).toNat = nth x.data i % 256)
      ∧ (∀ a, (a < x.addr ∨ x.addr + x.data.length ≤ a) → t.byte a = s.byte a)
      ∧ t.ctxs = s.ctxs ∧ t.tags = s.tags ∧ (NoneHeld s → t.flights = s.flights) ∧ t.bell = s.bell := by
  obtain ⟨w, ⟨hframe, -, hquiet⟩, hexec⟩ := onUp_takes n _ 1 (flitCount x.data.length) l (fun w => w.takeWrite n x) s hn hup hdue
    htakes
  refine ⟨_, hexec, ?_⟩
  have hacc : w.acceptable x.part x.addr x.data.length = true := (acceptable_of_sendBlank hframe _ _ _ 0).1.trans hacc
  obtain ⟨htags, hctxs, hbell, hmem, hscr⟩ := w.takeWrite_fields n x hacc
  obtain ⟨htags', hctxs', hbell', -, hmem', -, hscr'⟩ := fields_of_sendBlank hframe
  have hbyte : ∀ a, ((s.settle (w.takeWrite n x)).byte a).toNat
      = if x.addr ≤ a ∧ a < x.addr + x.data.length then nth x.data (a - x.addr) % 256 else (s.byte a).toNat := by
    intro a
    rw [State.toNat_settle_byte s _ (hscr.trans hscr') (hmem.trans hmem'),
      w.byte_takeWrite n x hacc hrow, byte_of_sendBlank hframe]
    rfl
  refine ⟨fun i hi => ?_, fun a ha => ?_, ?_, ?_, fun h => ?_, ?_⟩
  · rw [hbyte, if_pos (by omega), Nat.add_sub_cancel_left]
  · refine BitVec.eq_of_toNat_eq ?_
    rw [hbyte, if_neg (by omega)]
  · exact hctxs.trans hctxs'
  · exact htags.trans htags'
  · exact (w.takeWrite_flights n x hacc hrow (hquiet h).1).trans (hquiet h).2
  · exact hbell.trans hbell'
theorem exec_write_row (layer shift : Nat) (hacc : s.acceptable x.part x.addr x.data.length = true)
    (hrow : x.row = some (layer, shift)) : ∃ t, exec (.writeTransactionReceive n l x) s = .next t
      ∧ t.dev.ctr.ctr 0x0698 = s.dev.ctr.ctr 0x0698 + 1 ∧ t.tags = s.tags := by
  obtain ⟨w, ⟨hframe, htally, -⟩, hexec⟩ := onUp_takes n _ 1 (flitCount x.data.length) l (fun w => w.takeWrite n x) s hn hup hdue
    htakes
  refine ⟨_, hexec, ?_⟩
  have hacc : w.acceptable x.part x.addr x.data.length = true := (acceptable_of_sendBlank hframe _ _ _ 0).1.trans hacc
  have hrows : w.dev.ctr.ctr 0x0698 = s.dev.ctr.ctr 0x0698 := congrArg (fun t => t.2.1) htally
  refine ⟨(w.takeWrite_counted n layer shift x hacc hrow).trans (by rw [hrows]), ?_⟩
  exact (w.takeWrite_fields n x hacc).1.trans (fields_of_sendBlank hframe).1
theorem exec_write_refused (hacc : s.acceptable x.part x.addr x.data.length = false) :
    ∃ t, exec (.writeTransactionReceive n l x) s = .next t ∧ t.mem = s.mem ∧ t.tags = s.tags ∧ t.ctxs = s.ctxs
      ∧ t.dev.resetNaks = s.dev.resetNaks + (if s.underReset x.part x.addr x.data.length then 1 else 0) := by
  obtain ⟨w, ⟨hframe, htally, -⟩, hexec⟩ := onUp_takes n _ 1 (flitCount x.data.length) l (fun w => w.takeWrite n x) s hn hup hdue
    htakes
  refine ⟨_, hexec, ?_⟩
  obtain ⟨hsame, hreset, -⟩ := acceptable_of_sendBlank hframe x.part x.addr x.data.length 0
  have hnaks : w.dev.resetNaks = s.dev.resetNaks := congrArg (fun t => t.2.2) htally
  rw [w.takeWrite_refused n x (hsame.trans hacc), hreset]
  obtain ⟨htags, hctxs, -, -, -, hwr, hscr⟩ := fields_of_sendBlank
    ((w.refuse_frame n x.src x.part x.txn (s.underReset x.part x.addr x.data.length)).trans hframe)
  refine ⟨State.settle_mem_same _ _ hwr hscr, htags, hctxs, ?_⟩
  exact (w.refuse_resetNaks _ _ _ _ _).trans (congrArg (· + _) hnaks)

end

/-! ## Read requests -/

/-- A payload of at most 224 bytes is one flit (R363). -/
theorem flitsOf_one (k o : Nat) (data : List Nat) (h : data.length ≤ 224) : flitsOf (k + 1) o data = [(o, data)] := by
  rw [flitsOf, if_pos h]
theorem Work.bytes_length (w : Work) (a n : Nat) : (w.bytes a n).length = n := by rw [Work.bytes, List.length_map, List.length_range]

/-- The flit that answers a read request: to its source, or by an inter-shaft port to the far end (R20, R363). -/
def readAnswer (far : Bool) (vc src part txn addr : Nat) (data : List Nat) : Flit :=
  { type := 3, vc := vc, dst := if far then 0 else src, part := part, txn := txn, addr := addr, data := data, far := far }
/-- The port by which an answer leaves. -/
def Blk.answerPort (b : Blk) (n src : Nat) : Option Nat := if (b.port n).role == 3 then some n else b.egress src

theorem egress_of_side {v w : Work} (hfab : v.fab = w.fab) (hside : v.side = w.side) (t : Nat) : v.egress t = w.egress t := by
  have hup : ∀ k, (v.port k).upData = (w.port k).upData := by
    intro k
    obtain ⟨hst, hrole⟩ := Prod.mk.inj (congrFun hside k)
    rw [Port.upData, hst, hrole, Port.upData]
  simp only [Blk.egress, hfab, hup]
theorem answerPort_of_side {v w : Work} (hfab : v.fab = w.fab) (hside : v.side = w.side) (n src : Nat) :
    v.answerPort n src = w.answerPort n src := by
  obtain ⟨-, hrole⟩ := Prod.mk.inj (congrFun hside n)
  rw [Blk.answerPort, hrole, egress_of_side hfab hside, Blk.answerPort]

/-- An acceptable read request of one flit that meets no error is answered with the bytes it asks for. -/
theorem Work.takeRead_answered (w : Work) (n src part txn vc addr len k : Nat) (hacc : w.acceptable part addr len = true)
    (hecc : w.eccAt addr len = none) (hlen : len ≤ 224) (hk : w.answerPort n src = some k) :
    w.takeRead n src part txn vc addr len = (w.reading part [(addr, len)]).sendFlit k
      (readAnswer ((w.port n).role == 3) (vc % 4) src part txn addr (w.bytes addr len)) := by
  have hports : (w.reading part [(addr, len)]).ports = w.ports := by simp
  have hport : (w.reading part [(addr, len)]).port n = w.port n := congrArg (fun l => Tab.get ({} : Port) l n) hports
  rw [Work.takeRead, if_neg (by simp [hacc]), hecc]
  dsimp only
  rw [flitsOf_one _ _ _ (by rw [Work.bytes_length]; exact hlen), Work.each_cons, Work.each_nil, Nat.add_zero, Work.answerBy, hport]
  unfold Blk.answerPort at hk
  by_cases hrole : (w.port n).role = 3
  · simp only [hrole, beq_self_eq_true, if_true, Option.some.injEq] at hk ⊢
    subst hk
    rfl
  · have hegress : (w.reading part [(addr, len)]).egress src = w.egress src :=
      egress_of_side (by simp) (congrArg (fun t => t.1) (w.reading_tally part [(addr, len)])) src
    have hfar : ((w.port n).role == 3) = false := by simpa using hrole
    rw [hfar] at hk ⊢
    rw [if_neg hrole, hegress, show w.egress src = some k from hk]
    rfl

theorem exec_read_answered (n src part txn vc addr len k : Nat) (l : LinkIn) (s : State) (hn : n < Config.nPorts)
    (hup : (s.port n).st = .up) (hdue : (s.port n).inOrder l.seq = true) (htakes : roleTakes (s.port n).role (vc % 4) 2 = true)
    (hacc : s.acceptable part addr len = true) (hecc : s.eccAt addr len = none) (hk : s.answerPort n src = some k) (hlen : len ≤ 224)
    (hmay : ((arrived s n (vc % 4) 1 1 l).port k).maySend (vc % 4) = true) (hheld : ((arrived s n (vc % 4) 1 1 l).port k).held = [])
    (htransit : ((arrived s n (vc % 4) 1 1 l).port k).transit = []) :
    ∃ t, exec (.readRequestReceive n l src part txn vc addr len) s = .next t ∧ t.mem = s.mem
      ∧ t.out = (arrived s n (vc % 4) 1 1 l).out ++ [Out.flit k ((arrived s n (vc % 4) 1 1 l).wire
          ((arrived s n (vc % 4) 1 1 l).port k)
          (readAnswer ((s.port n).role == 3) (vc % 4) src part txn addr (s.begin_.bytes addr len))
          ((arrived s n (vc % 4) 1 1 l).port k).txSeq)]
      ∧ t.tags = s.tags := by
  rw [exec_readRequestReceive]
  refine ⟨_, onUp_taken _ _ _ _ _ _ s hn hup hdue htakes, ?_⟩
  rw [arrived, State.settle_toBlk] at hmay hheld htransit
  rw [arrived, State.settle_toBlk]
  have htaken := s.linkIn_taken n (vc % 4) 1 1 l
  generalize s.begin_.linkIn n (vc % 4) 1 1 l = w at htaken hmay hheld htransit ⊢
  obtain ⟨hframe, htally, -⟩ := htaken
  have hside : w.side = s.begin_.side := congrArg (fun t => t.1) htally
  have hacc : w.acceptable part addr len = true := (acceptable_of_sendBlank hframe _ _ _ 0).1.trans hacc
  have hecc : w.eccAt addr len = none := (congrArg (fun u : Work => u.eccAt addr len) hframe :).trans hecc
  obtain ⟨htags, -, -, hfab, -, hwr, hscr⟩ := fields_of_sendBlank hframe
  have hk : w.answerPort n src = some k := (answerPort_of_side hfab hside n src).trans hk
  have hbytes : w.bytes addr len = s.begin_.bytes addr len := (congrArg (fun u : Work => u.bytes addr len) hframe :)
  have hrole : (w.port n).role = (s.port n).role := congrArg Prod.snd (congrFun hside n)
  rw [w.takeRead_answered n src part txn vc addr len k hacc hecc hlen hk, hbytes, hrole]
  obtain ⟨hports, hstruct, hout, htags', hwr', hscr'⟩ : (w.reading part [(addr, len)]).ports = w.ports
      ∧ (w.reading part [(addr, len)]).struct = w.struct ∧ (w.reading part [(addr, len)]).out = w.out
      ∧ (w.reading part [(addr, len)]).tags = w.tags ∧ (w.reading part [(addr, len)]).wr = w.wr
      ∧ (w.reading part [(addr, len)]).ms.scrambled = w.ms.scrambled := by simp
  generalize w.reading part [(addr, len)] = v at hports hstruct hout htags' hwr' hscr' ⊢
  have hport : v.port k = w.port k := congrArg (fun l => Tab.get ({} : Port) l k) hports
  generalize hf : readAnswer ((s.port n).role == 3) (vc % 4) src part txn addr (s.begin_.bytes addr len) = f
  obtain ⟨hsentTags, -, -, -, -, hsentWr, hsentScr⟩ := fields_of_sendBlank (v.sendFlit_frame k f)
  refine ⟨State.settle_mem_same _ _ (hsentWr.trans (hwr'.trans hwr)) (hsentScr.trans (hscr'.trans hscr)), ?_,
    hsentTags.trans (htags'.trans htags)⟩
  · show (v.sendFlit k f).out = w.out ++ [Out.flit k (w.wire (w.port k) f (w.port k).txSeq)]
    rw [← hport, ← v.wire_congr w.toBlk (v.port k) (v.port k) f _ hstruct rfl rfl, ← hout]
    refine v.sendFlit_out k f ?_ ?_ ?_ ?_ ?_ ?_ ?_ ?_ <;> subst hf
    · rw [hport]; exact hheld
    · rw [hport]; exact htransit
    · rw [hport]; exact hmay
    · exact Nat.mod_lt vc (by decide)
    · rfl
    · rfl
    · exact (by decide : (3 : Nat) ≠ 1)
    · exact (by decide : (3 : Nat) ≠ 7)

/-! ## Tag signals (R114, R116) -/

theorem Work.takeTag_applied (w : Work) (n src part txn tag value : Nat) (h : w.tagAcceptable part tag = true) :
    w.takeTag n src part txn tag value = (w.tagAdd tag value).ctlBy n 4 src part txn [] := by
  rw [Work.takeTag, if_pos h]
theorem Work.takeTag_refused (w : Work) (n src part txn tag value : Nat) (h : w.tagAcceptable part tag = false) :
    w.takeTag n src part txn tag value = w.refuse n src part txn (w.part part).resetting := by
  rw [Work.takeTag, if_neg (by simp [h])]

section
variable (n src part txn tag value : Nat) (l : LinkIn) (s : State) (hn : n < Config.nPorts) (hup : (s.port n).st = .up)
  (hdue : (s.port n).inOrder l.seq = true) (htakes : roleTakes (s.port n).role 0 6 = true)
include hn hup hdue htakes

theorem exec_tagSignal_applied (hacc : s.tagAcceptable part tag = true) :
    ∃ t, exec (.tagSignalReceive n l src part txn tag value) s = .next t ∧ t.tag tag = s.tag tag + BitVec.ofNat 32 value
      ∧ (∀ j, j ≠ tag → t.tag j = s.tag j) ∧ t.mem = s.mem ∧ t.ctxs = s.ctxs := by
  obtain ⟨w, ⟨hframe, -, -⟩, hexec⟩ := onUp_takes n 0 6 1 l (fun w => w.takeTag n src part txn tag value) s hn hup hdue htakes
  refine ⟨_, hexec, ?_⟩
  have hacc : w.tagAcceptable part tag = true := (acceptable_of_sendBlank hframe part 0 0 tag).2.2.trans hacc
  have htag : ∀ j, w.tag j = s.tag j := fun j => congrArg (fun l => Tab.get 0 l j) (fields_of_sendBlank hframe).1
  obtain ⟨-, hctxs, -, -, -, hwr, hscr⟩ := fields_of_sendBlank hframe
  rw [w.takeTag_applied n src part txn tag value hacc]
  obtain ⟨htags, hctxs', -, -, -, hwr', hscr'⟩ := fields_of_sendBlank ((w.tagAdd tag value).ctlBy_frame n 4 src part txn [])
  have hafter : ∀ j, (s.settle ((w.tagAdd tag value).ctlBy n 4 src part txn [])).tag j
      = if j = tag then s.tag tag + BitVec.ofNat 32 value else s.tag j := fun j =>
    (congrArg (fun l => Tab.get 0 l j) htags).trans ((w.tag_tagAdd tag j value).trans (by rw [htag, htag]))
  refine ⟨by rw [hafter, if_pos rfl], fun j hj => by rw [hafter, if_neg hj], ?_, hctxs'.trans hctxs⟩
  exact State.settle_mem_same _ _ (hwr'.trans hwr) (hscr'.trans hscr)
theorem exec_tagSignal_refused (hacc : s.tagAcceptable part tag = false) :
    ∃ t, exec (.tagSignalReceive n l src part txn tag value) s = .next t ∧ t.tags = s.tags ∧ t.mem = s.mem
      ∧ (NoneHeld s → t.flights = s.flights) := by
  obtain ⟨w, ⟨hframe, -, hquiet⟩, hexec⟩ := onUp_takes n 0 6 1 l (fun w => w.takeTag n src part txn tag value) s hn hup hdue htakes
  refine ⟨_, hexec, ?_⟩
  rw [w.takeTag_refused n src part txn tag value ((acceptable_of_sendBlank hframe part 0 0 tag).2.2.trans hacc)]
  obtain ⟨htags, -, -, -, -, hwr, hscr⟩ := fields_of_sendBlank
    ((w.refuse_frame n src part txn (w.part part).resetting).trans hframe)
  refine ⟨htags, State.settle_mem_same _ _ hwr hscr, fun h => ?_⟩
  exact (w.refuse_flights n src part txn _ (hquiet h).1).trans (hquiet h).2

end

/-- Settles O45: `onUp` decides whether a flit is taken, and what is done then is in `Work.takeWrite`, `Work.takeRead` and
`Work.takeTag`. -/
theorem remoteTransactions : Obligations.RemoteTransactions := by
  refine ⟨fun n l x s hn hup => ?_, fun n src part txn vc addr len k tag value l s hn hup => ?_⟩
  · have hexec := exec_writeTransactionReceive n l x s
    refine ⟨fun h => hexec.trans ?_, fun hdue hnot => hexec.trans ?_, fun hdue htakes => ⟨?_, ?_, ?_⟩⟩
    · exact onUp_outOfOrder _ _ _ _ _ _ s hn h
    · exact onUp_notTaken _ _ _ _ _ _ s hn hup hdue hnot
    · exact exec_write_stored n l x s hn hup hdue htakes
    · exact exec_write_row n l x s hn hup hdue htakes
    · exact exec_write_refused n l x s hn hup hdue htakes
  · have hread := exec_readRequestReceive n l src part txn vc addr len s
    have htag := exec_tagSignalReceive n l src part txn tag value s
    refine ⟨fun hdue htakes hacc hecc hk hlen hmay hheld htransit => ?_, fun hdue hnot => hread.trans ?_, ?_, ?_,
      fun hdue hnot => htag.trans ?_, fun h => ⟨hread.trans ?_, htag.trans ?_⟩⟩
    · obtain ⟨t, ht, hmem, hout, htags⟩ := exec_read_answered n src part txn vc addr len k l s hn hup hdue htakes hacc hecc hk
        hlen hmay hheld htransit
      exact ⟨t, [], ht, hmem, fun _ => rfl, by rw [List.append_nil]; exact hout, htags⟩
    · exact onUp_notTaken _ _ _ _ _ _ s hn hup hdue hnot
    · exact exec_tagSignal_applied n src part txn tag value l s hn hup
    · exact exec_tagSignal_refused n src part txn tag value l s hn hup
    · exact onUp_notTaken _ _ _ _ _ _ s hn hup hdue hnot
    · exact onUp_outOfOrder _ _ _ _ _ _ s hn h
    · exact onUp_outOfOrder _ _ _ _ _ _ s hn h

end Sys2Proof.Machine
end

section
/-! The descriptor commands (R144 to R147): when DESC_CREATE passes its checks and what it then leaves, and when DESC_DROP waits. -/

namespace Sys2Proof.Machine

/-! ## What has been run -/

theorem Blk.mem_flights_of_runningOf {b : Blk} {q op : Nat} {x : Flight} (h : b.runningOf q op = some x) : x ∈ b.flights :=
  List.mem_of_find?_eq_some h
/-- A command that is marked run is found so, wherever it stood among the issued ones. -/
theorem Work.hasRun_doneFlight (s : State) (w : Work) (x : Flight) (wm : Nat) (h : x ∈ w.flights) :
    HasRun (s.settle (w.doneFlight x wm)) x.id wm := by
  have hlook : (s.settle (w.doneFlight x wm)).flight? x.id
      = (w.flight? x.id).map fun y => if y.id = x.id then ranAs y wm else y :=
    w.flight?_modFlight x.id x.id (ranAs · wm) fun _ => rfl
  obtain ⟨y, hy⟩ : ∃ y, w.flight? x.id = some y :=
    Option.isSome_iff_exists.1 (List.find?_isSome.2 ⟨x, h, decide_eq_true rfl⟩)
  have hid : y.id = x.id := of_decide_eq_true (List.find?_some hy :)
  rw [HasRun, hlook, hy, Option.map_some, if_pos hid]
  rfl
theorem State.settle_begin_doneFlight (s : State) (x : Flight) (wm : Nat) : s.settle (s.begin_.doneFlight x wm) = withRun s x wm :=
  (congrArg (withRun · x wm) s.settle_begin :)
/-- A command that neither acts on memory nor gives a repair command leaves every byte. -/
theorem State.sameMemory_settle (s : State) (w : Work) (hmem : w.wr = []) (hscr : w.ms.scrambled = s.ms.scrambled) :
    SameMemory s (s.settle w) := fun a => by
  rw [State.byte, State.settle_mem_same s w hmem hscr, Blk.dflt, State.settle_ms, hscr]
  rfl

/-! ## The checks of DESC_CREATE (R145) -/

theorem codeUnless_of {ok : Bool} (h : ok = true) (code : Nat) : codeUnless ok code = 0 := if_pos h
/-- A read passes when the access is allowed and no sector or word of it holds an uncorrectable error. -/
theorem Blk.readCode_eq_zero (b : Blk) (p a len : Nat) :
    b.readCode p a len = 0 ↔ b.accessCode p a len = 0 ∧ ((b.eccAt a len).map (·.2)).getD 0 = 0 := by
  unfold Blk.readCode
  split
  · next hacc => exact (and_iff_right hacc).symm
  · next hacc => exact ⟨fun h => absurd h hacc, fun h => h.1⟩
/-- DESC_CREATE whose checks all pass: it reads the image, stores it in the entry that it holds, and has run. -/
theorem doDescCreate_of_pass (x : Flight) (w : Work) (hheld : x.cap = [1])
    (hidx : descIdx x.cmd < (w.struct.plan.bud x.part).descs) (halign : cb x.cmd 8 6 % 64 = 0)
    (hread : w.readCode x.part (cb x.cmd 8 6) 64 = 0)
    (himg : descImageCode w.toBlk x.part (w.bytes (cb x.cmd 8 6) 64) = 0) :
    doDescCreate x w = ((w.reading x.part [(cb x.cmd 8 6, 64)]).setDesc x.part (descIdx x.cmd)
      ⟨.held, readImg (w.bytes (cb x.cmd 8 6) 64)⟩).doneFlight x 1 := by
  obtain ⟨hacc, hecc⟩ := (w.readCode_eq_zero _ _ _).1 hread
  have hpre : firstCode [codeUnless (decide (descIdx x.cmd < (w.struct.plan.bud x.part).descs)) 0x0102,
      codeUnless (cb x.cmd 8 6 % 64 == 0 && w.accessCode x.part (cb x.cmd 8 6) 64 == 0) 0x0113,
      codeUnless (x.cap == [1]) 0x0104] = 0 := by
    rw [codeUnless_of (decide_eq_true hidx), codeUnless_of (by simp [halign, hacc]), codeUnless_of (by simp [hheld])]
    rfl
  unfold doDescCreate
  dsimp only
  rw [hpre, hecc, himg]
  rfl

/-! ## The table (R146) -/

theorem Work.desc_setDesc (w : Work) (p i k j : Nat) (d : Desc) :
    (w.setDesc p i d).desc k j = if 4096 * k + j = 4096 * p + i then d else w.desc k j := by
  rw [Blk.desc, Work.setDesc_descs]
  split
  · next h => rw [h, Tab.get_set_same]
  · next h => exact Tab.get_set_other _ _ _ _ _ h

theorem Work.desc_reading (w : Work) (p : Nat) (l : List (Nat × Nat)) (k j : Nat) : (w.reading p l).desc k j = w.desc k j := by
  simp [Blk.desc]
theorem Work.desc_doneFlight (w : Work) (x : Flight) (wm k j : Nat) : (w.doneFlight x wm).desc k j = w.desc k j := rfl

/-! ## The rows -/

theorem exec_descCreate (q : Nat) (s : State) (x : Flight) (hq : q < Config.nCtxs) (hx : s.runningOf q 0x90 = some x) :
    exec (.descCreate q) s = .next (s.settle (doDescCreate x s.begin_)) := by
  refine (runIf_of _ _ s (decide_eq_true hq)).trans ?_
  rw [State.begin_toBlk, hx]
/-- An earlier command of its partition holds the descriptor that `x` names (R147). -/
def Blk.descHeldBefore (b : Blk) (x : Flight) : Prop :=
  ∃ y ∈ b.flights, y.id < x.id ∧ y.part = x.part ∧ descIdx x.cmd ∈ b.descsOf y.part y.cmd
section
variable (q : Nat) (s : State) (x : Flight) (hq : q < Config.nCtxs) (hx : s.runningOf q 0x91 = some x)
include hq hx

theorem exec_descDrop : exec (.descDrop q) s = .next (s.settle
    (if s.flights.any (fun y => decide (y.id < x.id) && y.part == x.part && decide (descIdx x.cmd ∈ s.descsOf y.part y.cmd))
      then s.begin_ else s.begin_.doneFlight x 1)) := by
  refine (runIf_of _ _ s (decide_eq_true hq)).trans ?_
  rw [State.begin_toBlk, hx]
theorem exec_descDrop_waits (h : s.descHeldBefore x) : exec (.descDrop q) s = .next s := by
  rw [exec_descDrop q s x hq hx, if_pos (by simpa [Blk.descHeldBefore, and_assoc] using h), State.settle_begin]
theorem exec_descDrop_runs (h : ¬s.descHeldBefore x) : exec (.descDrop q) s = .next (withRun s x 1) := by
  rw [exec_descDrop q s x hq hx, if_neg (by simpa [Blk.descHeldBefore, and_assoc] using h), State.settle_begin_doneFlight]

end

/-- Settles O18: reading the image leaves memory and the table alone, so of the table DESC_CREATE changes its own entry only;
DESC_DROP turns on whether an earlier command holds the descriptor. -/
theorem descriptorCommands : Obligations.DescriptorCommands := by
  refine fun q s x hq => ⟨fun hx hheld hidx halign hread himg => ?_, fun hx hfree => ?_, exec_descDrop_waits q s x hq⟩
  · rw [exec_descCreate q s x hq hx, doDescCreate_of_pass x s.begin_ hheld hidx halign hread himg]
    refine ⟨_, rfl, ?_, ?_, ?_, fun p i hother => ?_⟩
    · exact Work.hasRun_doneFlight s _ x 1 (by simpa using Blk.mem_flights_of_runningOf hx)
    · exact s.sameMemory_settle _ (by simp [Work.doneFlight]) (by simp [Work.doneFlight])
    · rw [State.settle_toBlk, Work.desc_doneFlight, Work.desc_setDesc, if_pos rfl]
    · rw [State.settle_toBlk, Work.desc_doneFlight, Work.desc_setDesc, if_neg hother, Work.desc_reading, State.begin_toBlk]
  · exact exec_descDrop_runs q s x hq hx fun ⟨y, hy, hid, hpart, hmem⟩ => hfree y hy hid hpart hmem

end Sys2Proof.Machine
end

section
/-! Units that all pass (R124): the command commits each of them and has been run, its number still among the issued ones; and
what a commit leaves where every write is in this device's memory. -/

namespace Sys2Proof.Machine

/-! ## The numbers of the issued commands -/

/-- The numbers of the issued commands, in their order. -/
def Work.flightIds (w : Work) : List Nat := w.flights.map (·.id)

theorem flightIds_of_flights {v w : Work} (h : v.flights = w.flights) : v.flightIds = w.flightIds :=
  congrArg (List.map Flight.id) h
/-- Changing issued commands, each under its own number, keeps the numbers. -/
theorem map_id_of_keeps (l : List Flight) (g : Flight → Flight) (h : ∀ x, (g x).id = x.id) :
    (l.map g).map (·.id) = l.map (·.id) :=
  List.map_map.trans (List.map_congr_left fun x _ => h x)
theorem Work.modFlight_flightIds (w : Work) (id : Nat) (f : Flight → Flight) (h : ∀ x, (f x).id = x.id) :
    (w.modFlight id f).flightIds = w.flightIds :=
  map_id_of_keeps _ _ fun x => by split <;> simp [h]
theorem Work.tagTo_flightIds (w : Work) (t : Nat) (v : W32) : (w.tagTo t v).flightIds = w.flightIds :=
  map_id_of_keeps _ _ fun x => by split <;> rfl

theorem Work.owe_flightIds (w : Work) (n vc k : Nat) : (w.owe n vc k).flightIds = w.flightIds := by
  unfold Work.owe; split <;> rfl
theorem Work.collLeft_flightIds (w : Work) (f : Flit) : (w.collLeft f).flightIds = w.flightIds := by
  unfold Work.collLeft
  split
  · exact Work.modFlight_flightIds _ _ _ fun _ => rfl
  · rfl
theorem Work.stampFlit_flightIds (w : Work) (n : Nat) (f : Flit) : (w.stampFlit n f).2.flightIds = w.flightIds := by
  unfold Work.stampFlit; split <;> rfl
theorem Work.putFlit_flightIds (w : Work) (n : Nat) (f : Flit) : (w.putFlit n f).flightIds = w.flightIds := by
  have sent : ∀ (v : Work) (g : Port → Port) (o : Out) (f : Flit),
      (((v.modPort n g).emit o).collLeft f).flightIds = v.flightIds := fun v g o f => Work.collLeft_flightIds _ f
  unfold Work.putFlit
  dsimp only
  split
  · exact (sent _ _ _ _).trans (w.stampFlit_flightIds n f)
  · exact (sent _ _ _ _).trans (w.stampFlit_flightIds n f)
theorem Work.putTransit_flightIds (w : Work) (n : Nat) (t : Waiting) : (w.putTransit n t).flightIds = w.flightIds :=
  Work.owe_flightIds _ _ _ _
theorem Work.flushGo_flightIds (k : Nat) (w : Work) (n : Nat) : (w.flushGo n k).flightIds = w.flightIds := by
  induction k generalizing w with
  | zero => rfl
  | succ k ih =>
    unfold Work.flushGo
    split
    · rfl
    · refine (ih _).trans ?_
      split
      · exact Work.putFlit_flightIds _ _ _
      · exact Work.putTransit_flightIds _ _ _
      · rfl
/-- Sending flits can change what collective commands have sent (R422), and no command's number. -/
theorem Work.sendFlit_flightIds (w : Work) (n : Nat) (f : Flit) : (w.sendFlit n f).flightIds = w.flightIds :=
  Work.flushGo_flightIds _ _ n

theorem Work.reading_flightIds (w : Work) (p : Nat) (l : List (Nat × Nat)) : (w.reading p l).flightIds = w.flightIds :=
  flightIds_of_flights (congrArg (fun u : Work => u.flights) (w.reading_frame p l) :)
theorem Work.eccMet_flightIds (w : Work) (a len source : Nat) : (w.eccMet a len source).flightIds = w.flightIds :=
  flightIds_of_flights (congrArg (fun u : Work => u.flights) (w.eccMet_metBlank a len source) :)
theorem Work.store_flightIds (w : Work) (p a : Nat) (l : List Nat) : (w.store p a l).flightIds = w.flightIds :=
  flightIds_of_flights (congrArg (fun u : Work => u.flights) (w.store_frame p a l) :)
theorem Work.openTxn_flightIds (w : Work) (t : Txn) (prefetch : Bool) : (w.openTxn t prefetch).flightIds = w.flightIds := by
  unfold Work.openTxn
  dsimp only
  split
  · split
    · split
      · exact w.tagTo_flightIds _ _
      · rfl
    · split
      · split
        · exact (Work.eccMet_flightIds _ _ _ _).trans (w.reading_flightIds _ _)
        · exact w.reading_flightIds _ _
      · rfl
    · split
      · exact w.store_flightIds _ _ _
      · rfl
  · split
    · rfl
    · split
      · rfl
      · split
        · exact Work.sendFlit_flightIds _ _ _
        · exact Work.sendFlit_flightIds _ _ _
        · exact Work.each_keeps Work.flightIds _ (fun w x => w.sendFlit_flightIds _ _) _ _

theorem Work.commitUnit_flightIds (w : Work) (x : Flight) (prefetch : Bool) (n : Nat) (u : URes) :
    (w.commitUnit x prefetch n u).flightIds = w.flightIds := by
  unfold Work.commitUnit
  refine (Work.modFlight_flightIds _ _ (fun y => { y with sat := y.sat + u.sat }) fun _ => rfl).trans ?_
  refine (Work.each_keeps Work.flightIds (fun w (c : Nat × Nat) => w.faceCtr x.face c.1 c.2) (fun _ _ => rfl) _ _).trans ?_
  refine (Work.each_keeps Work.flightIds _ (fun w r => w.openTxn_flightIds _ _) _ _).trans ?_
  exact flightIds_of_flights (by simp)
theorem Work.commitUnits_flightIds (us : List URes) (w : Work) (x : Flight) (prefetch : Bool) (n : Nat) :
    (w.commitUnits x prefetch n us).flightIds = w.flightIds := by
  induction us generalizing w n with
  | nil => rfl
  | cons u us ih => exact (ih _ _).trans (w.commitUnit_flightIds x prefetch n u)

/-! ## Running units that pass -/

theorem bad_of_allPass {us : List URes} (h : AllPass us) : ∀ u ∈ us, u.bad = 0 := fun u hu =>
  let ⟨hbad, _, _⟩ := h u hu
  hbad
theorem goodUnits_of_noneBad (us : List URes) (h : ∀ u ∈ us, u.bad = 0) : goodUnits us = us := by
  induction us with
  | nil => rfl
  | cons u us ih =>
    rw [goodUnits, if_pos (h u List.mem_cons_self), ih fun v hv => h v (List.mem_cons_of_mem u hv)]
theorem uptoBad_of_noneBad (us : List URes) (h : ∀ u ∈ us, u.bad = 0) : uptoBad us = us := by
  induction us with
  | nil => rfl
  | cons u us ih =>
    rw [uptoBad, if_pos (h u List.mem_cons_self), ih fun v hv => h v (List.mem_cons_of_mem u hv)]
theorem stopAt_of_allPass {us : List URes} (h : AllPass us) : stopAt us none = none := by
  simp [stopAt, goodUnits_of_noneBad us (bad_of_allPass h)]

/-- A command whose units pass commits each of them and has been run. -/
theorem Work.runUnits_of_allPass (w : Work) (x : Flight) (us : List URes) (total : Nat) (prefetch torn : Bool) (h : AllPass us) :
    w.runUnits x us total none prefetch torn = (w.commitUnits x prefetch 0 us).doneFlight x total := by
  have hneeds : us.flatMap (fun u => remoteReads u.needs) = [] := List.flatMap_eq_nil_iff.2 fun u hu => by
    obtain ⟨-, hnone, -⟩ := h u hu
    rw [hnone]
    rfl
  have hwaits : us.any (·.waits) = false := List.any_eq_false.2 fun u hu => by
    obtain ⟨-, -, hready⟩ := h u hu
    rw [hready]
    exact Bool.false_ne_true
  unfold Work.runUnits
  rw [stopAt_of_allPass h]
  dsimp only
  rw [List.take_length, hneeds, hwaits]
  rfl

/-- A command marked run is found so as long as its number is among the issued ones. -/
theorem Work.hasRun_of_flightIds (s : State) (w v : Work) (x : Flight) (wm : Nat) (hid : x.id ∈ w.flightIds)
    (hv : v.flights = (w.doneFlight x wm).flights) : HasRun (s.settle v) x.id wm := by
  obtain ⟨y, hy, hyx⟩ := List.mem_map.1 hid
  have hrun := Work.hasRun_doneFlight s w y wm hy
  rw [Work.doneFlight, hyx] at hrun
  unfold HasRun Blk.flight? at hrun ⊢
  rw [State.settle_flights, hv]
  exact hrun

/-! ## Local writes, byte by byte -/

theorem Wop.bytes_congr {v w : Work} (h : v.byte = w.byte) (o : Wop) : o.bytes v = o.bytes w := by
  unfold Wop.bytes Work.num Work.bytes
  rw [h]
theorem Work.putBytes_congr (l : List (Nat × Nat)) {v w : Work} (h : v.byte = w.byte) :
    (l.foldl (fun w b => w.putByte b.1 b.2) v).byte = (l.foldl (fun w b => w.putByte b.1 b.2) w).byte := by
  induction l generalizing v w with
  | nil => exact h
  | cons b l ih => exact ih (funext fun a => by rw [Work.byte_putByte, Work.byte_putByte, h])
/-- What local writes leave in memory rests on the bytes that they find there, and on nothing else. -/
theorem Work.doWops_congr (l : List Wop) {v w : Work} (h : v.byte = w.byte) : (v.doWops l).byte = (w.doWops l).byte := by
  induction l generalizing v w with
  | nil => exact h
  | cons o l ih =>
    refine ih ?_
    rw [o.bytes_congr h]
    exact Work.putBytes_congr _ h
theorem Work.doWops_append (k l : List Wop) (w : Work) : w.doWops (k ++ l) = (w.doWops k).doWops l := by
  induction k generalizing w with
  | nil => rfl
  | cons o k ih => exact ih _

theorem Work.putBytes_other (l : List (Nat × Nat)) (w : Work) (a : Nat) (h : ∀ b ∈ l, b.1 ≠ a) :
    (l.foldl (fun w b => w.putByte b.1 b.2) w).byte a = w.byte a := by
  induction l generalizing w with
  | nil => rfl
  | cons b l ih =>
    refine (ih _ fun c hc => h c (List.mem_cons_of_mem b hc)).trans ?_
    rw [Work.byte_putByte, if_neg (h b List.mem_cons_self)]
/-- A local write gives new values to the bytes that hold its bits. -/
theorem Wop.mem_bytes (o : Wop) (w : Work) (b : Nat × Nat) (h : b ∈ o.bytes w) :
    (bitSpan o.at_ o.n).1 ≤ b.1 ∧ b.1 < (bitSpan o.at_ o.n).1 + (bitSpan o.at_ o.n).2 := by
  obtain ⟨i, hi, rfl⟩ := List.mem_map.1 h
  have := List.mem_range.1 hi
  exact ⟨Nat.le_add_right _ _, Nat.add_lt_add_left this _⟩
/-- Local writes leave every byte that holds none of their bits. -/
theorem Work.doWops_other (l : List Wop) (w : Work) (a : Nat)
    (h : ∀ o ∈ l, ¬((bitSpan o.at_ o.n).1 ≤ a ∧ a < (bitSpan o.at_ o.n).1 + (bitSpan o.at_ o.n).2)) :
    (w.doWops l).byte a = w.byte a := by
  induction l generalizing w with
  | nil => rfl
  | cons o l ih =>
    refine (ih _ fun p hp => h p (List.mem_cons_of_mem o hp)).trans ?_
    exact Work.putBytes_other _ w a fun b hb hba => h o List.mem_cons_self (hba ▸ o.mem_bytes w b hb)

/-! ## Committing units whose writes are local -/

theorem remoteRuns_of_local (k : Nat) (wr : List Wop) (h : ∀ o ∈ wr, o.pos = none) : remoteRuns k wr = [] := by
  have hpos : wr.filterMap (·.pos) = [] := List.filterMap_eq_nil_iff.2 h
  unfold remoteRuns
  rw [hpos]
  rfl
/-- A unit whose writes are local opens no transaction. -/
theorem Work.commitUnit_local (w : Work) (x : Flight) (prefetch : Bool) (n : Nat) (u : URes) (h : ∀ o ∈ u.wr, o.pos = none) :
    ∃ addrs lines, w.commitUnit x prefetch n u
      = (((((w.softMet u.reads).doWops u.wr).cleared addrs).charge x.part lines).countUnit x.face u).modFlight x.id
          fun y => { y with sat := y.sat + u.sat } := by
  have hloc : u.wr.filter (fun o => o.pos.isNone) = u.wr := List.filter_eq_self.2 fun o ho => by rw [h o ho]; rfl
  unfold Work.commitUnit
  dsimp only
  rw [remoteRuns_of_local _ _ h, hloc]
  exact ⟨_, _, rfl⟩

theorem byte_of_readBlank {v w : Work} (h : readBlank v = readBlank w) : v.byte = w.byte :=
  (congrArg (fun u : Work => u.byte) h :)
theorem Work.commitUnits_byte (us : List URes) (w : Work) (x : Flight) (prefetch : Bool) (n : Nat) (h : AllLocal us) :
    (w.commitUnits x prefetch n us).byte = (w.doWops (us.flatMap (·.wr))).byte := by
  induction us generalizing w n with
  | nil => rfl
  | cons u us ih =>
    have hhead : (w.commitUnit x prefetch n u).byte = (w.doWops u.wr).byte := by
      obtain ⟨addrs, lines, hcommit⟩ := w.commitUnit_local x prefetch n u (h u List.mem_cons_self)
      rw [hcommit]
      refine (byte_of_readBlank ((Work.countUnit_readBlank _ _ _).trans ((Work.charge_readBlank _ _ _).trans
        (Work.cleared_readBlank _ _))) :).trans ?_
      exact Work.doWops_congr _ (byte_of_readBlank (w.softMet_frame _))
    refine (ih _ _ fun v hv => h v (List.mem_cons_of_mem u hv)).trans ?_
    rw [List.flatMap_cons, Work.doWops_append]
    exact Work.doWops_congr _ hhead

/-- What an engine may change whose writes are local: memory and its system, the counters and marks that errors touch, the
faces and galleries, and the issued commands. -/
def engineBlank (w : Work) : Work := { writeBlank w with flights := [] }
theorem engineBlank_of_writeBlank {v w : Work} (h : writeBlank v = writeBlank w) : engineBlank v = engineBlank w :=
  congrArg (fun u : Work => { u with flights := [] }) h
theorem engineBlank_of_readBlank {v w : Work} (h : readBlank v = readBlank w) : engineBlank v = engineBlank w :=
  engineBlank_of_writeBlank (writeBlank_of_readBlank h)
theorem Work.commitUnits_engineBlank (us : List URes) (w : Work) (x : Flight) (prefetch : Bool) (n : Nat) (h : AllLocal us) :
    engineBlank (w.commitUnits x prefetch n us) = engineBlank w := by
  induction us generalizing w n with
  | nil => rfl
  | cons u us ih =>
    refine (ih _ _ fun v hv => h v (List.mem_cons_of_mem u hv)).trans ?_
    obtain ⟨addrs, lines, hcommit⟩ := w.commitUnit_local x prefetch n u (h u List.mem_cons_self)
    rw [hcommit]
    exact (engineBlank_of_readBlank ((Work.countUnit_readBlank _ _ _).trans ((Work.charge_readBlank _ _ _).trans
      (Work.cleared_readBlank _ _))) :).trans
        ((engineBlank_of_writeBlank (Work.doWops_writeBlank _ _)).trans (engineBlank_of_readBlank (w.softMet_frame _)))

/-! ## Where no corrected HBM sector stands, none is counted (R441, R454) -/

/-- What counting a corrected HBM sector changes, the partitions' records and the device registers, with the sectors that still
stand. -/
def Work.sectorCounts (w : Work) : Tab Part × Dev × List Nat := (w.parts, w.dev, w.ms.softSectors)

section
variable (w : Work)

theorem Work.charge_sectorCounts (p : Nat) (l : List Nat) : (w.charge p l).sectorCounts = w.sectorCounts := by
  obtain h | ⟨_, _, h⟩ := w.charge_cases p l
  · rw [h]
  · rw [h]; rfl
theorem Work.countUnit_sectorCounts (f : Nat) (u : URes) : (w.countUnit f u).sectorCounts = w.sectorCounts :=
  Work.each_keeps Work.sectorCounts (fun w (c : Nat × Nat) => w.faceCtr f c.1 c.2) (fun _ _ => rfl) _ _
theorem Work.doWops_sectorCounts (l : List Wop) : (w.doWops l).sectorCounts = w.sectorCounts := by simp [Work.sectorCounts]
theorem Work.softStore_sectorCounts (l : List (Nat × Nat)) : (w.softStore l).sectorCounts = w.sectorCounts :=
  Work.each_keeps Work.sectorCounts Work.softWord (fun w s => by unfold Work.softWord; split <;> rfl) _ _

variable (h : w.ms.softSectors = [])
include h

theorem Work.cleared_sectorCounts (l : List Nat) : (w.cleared l).sectorCounts = w.sectorCounts := by
  simp [Work.sectorCounts, Work.cleared, h]
theorem Work.softMet_sectorCounts (l : List (Nat × Nat)) : (w.softMet l).sectorCounts = w.sectorCounts := by
  have hhbm : w.softHbm l = w := by rw [Work.softHbm, h]; rfl
  rw [Work.softMet, hhbm, Work.softStore_sectorCounts]
theorem Work.commitUnit_sectorCounts (x : Flight) (prefetch : Bool) (n : Nat) (u : URes) (hloc : ∀ o ∈ u.wr, o.pos = none) :
    (w.commitUnit x prefetch n u).sectorCounts = w.sectorCounts := by
  obtain ⟨addrs, lines, hcommit⟩ := w.commitUnit_local x prefetch n u hloc
  have hwritten := (Work.doWops_sectorCounts _ u.wr).trans (w.softMet_sectorCounts h u.reads)
  have hnone : ((w.softMet u.reads).doWops u.wr).ms.softSectors = [] := (congrArg (·.2.2) hwritten :).trans h
  rw [hcommit]
  exact (Work.countUnit_sectorCounts _ _ _ :).trans
    ((Work.charge_sectorCounts _ _ _).trans ((Work.cleared_sectorCounts _ hnone addrs).trans hwritten))

end

theorem Work.commitUnits_sectorCounts (us : List URes) (w : Work) (x : Flight) (prefetch : Bool) (n : Nat)
    (h : w.ms.softSectors = []) (hloc : AllLocal us) : (w.commitUnits x prefetch n us).sectorCounts = w.sectorCounts := by
  induction us generalizing w n with
  | nil => rfl
  | cons u us ih =>
    have hhead := w.commitUnit_sectorCounts h x prefetch n u (hloc u List.mem_cons_self)
    exact (ih _ _ ((congrArg (·.2.2) hhead :).trans h) fun v hv => hloc v (List.mem_cons_of_mem u hv)).trans hhead

/-! ## An engine's row completes -/

/-- All but the faces, whose counters and records an engine keeps before and after it runs its units. -/
def faceBlank (w : Work) : Work := { w with faces := [] }
theorem Work.faceCtr_faceBlank (w : Work) (f off n : Nat) : faceBlank (w.faceCtr f off n) = faceBlank w := rfl
theorem Work.engineEnds_faceBlank (w : Work) (x : Flight) (us : List URes) (limit : Option (Nat × Nat)) (busy : Nat)
    (cycles : Nat → Nat) (metas : Nat) : faceBlank (w.engineEnds x us limit busy cycles metas) = faceBlank w := by
  unfold Work.engineEnds
  split
  · rfl
  · dsimp only
    split
    · split <;> rfl
    · rfl

section
variable {s : State} {x : Flight} {us : List URes} {wm : Nat} {w v : Work} {prefetch torn : Bool}
  (hpass : AllPass us) (hw : faceBlank w = faceBlank s.begin_)
  (hv : faceBlank v = faceBlank (w.runUnits x us wm none prefetch torn))
include hpass hw hv

theorem hasRun_of_units (hx : x ∈ s.flights) : HasRun (s.settle v) x.id wm := by
  have hflights : w.flights = s.flights := (congrArg (fun u : Work => u.flights) hw :)
  rw [w.runUnits_of_allPass x us wm prefetch torn hpass] at hv
  refine Work.hasRun_of_flightIds s (w.commitUnits x prefetch 0 us) v x wm ?_ (congrArg (fun u : Work => u.flights) hv :)
  rw [Work.commitUnits_flightIds, Work.flightIds, hflights]
  exact List.mem_map_of_mem hx

section
variable (hloc : AllLocal us)
include hloc

theorem engineBlank_of_units : engineBlank v = engineBlank s.begin_ := by
  rw [w.runUnits_of_allPass x us wm prefetch torn hpass] at hv
  have hrun : engineBlank v = engineBlank (w.commitUnits x prefetch 0 us) := (congrArg engineBlank hv :)
  exact hrun.trans ((Work.commitUnits_engineBlank us w x prefetch 0 hloc).trans (congrArg engineBlank hw :))

theorem written_of_units : Written s (s.settle v) us := fun a => by
  have hblank := engineBlank_of_units hpass hw hv hloc
  rw [w.runUnits_of_allPass x us wm prefetch torn hpass] at hv
  have hrun : v.byte = (w.commitUnits x prefetch 0 us).byte := (congrArg (fun u : Work => u.byte) hv :)
  have hfound : w.byte = s.begin_.byte := (congrArg (fun u : Work => u.byte) hw :)
  rw [s.toNat_settle_byte v (congrArg (fun u : Work => u.ms.scrambled) hblank :) (congrArg (fun u : Work => u.mem) hblank :),
    hrun, Work.commitUnits_byte us w x prefetch 0 hloc, Work.doWops_congr _ hfound]

theorem onlyTouches_of_units : OnlyTouches s (s.settle v) us := fun a ha => by
  refine BitVec.eq_of_toNat_eq ((written_of_units hpass hw hv hloc a).trans ?_)
  refine Work.doWops_other _ s.begin_ a fun o ho hspan => ha ?_
  obtain ⟨u, hu, hou⟩ := List.mem_flatMap.1 ho
  exact ⟨u, hu, o, hou, hspan⟩

theorem engineFrame_of_units : EngineFrame s (s.settle v) := by
  have hblank := engineBlank_of_units hpass hw hv hloc
  refine ⟨fun hsoft => ?_, ?_⟩
  · rw [w.runUnits_of_allPass x us wm prefetch torn hpass] at hv
    have hnone : w.ms.softSectors = [] := (congrArg (fun u : Work => u.ms.softSectors) hw :).trans hsoft
    have hcounts : v.sectorCounts = s.begin_.sectorCounts := (congrArg Work.sectorCounts hv :).trans
      ((Work.commitUnits_sectorCounts us w x prefetch 0 hnone hloc).trans (congrArg Work.sectorCounts hw :))
    exact ⟨(congrArg (·.1) hcounts :), (congrArg (·.2.1) hcounts :)⟩
  · exact (congrArg (fun u : Work => ({ u with
      clk := { u.clk with free := s.clk.free }, ms := s.ms, faces := s.faces, gals := s.gals, parts := s.parts, dev := s.dev
      flights := s.flights, mem := s.mem, pending := s.pending } : State)) hblank :)

end

/-- An engine's row whose units pass, and that but for its units changes faces alone, completes. -/
theorem completes_of_units (hx : x ∈ s.flights) : Completes (.next (s.settle v)) s x us wm :=
  ⟨_, rfl, hasRun_of_units hpass hw hv hx, fun hloc => ⟨written_of_units hpass hw hv hloc,
    onlyTouches_of_units hpass hw hv hloc, engineFrame_of_units hpass hw hv hloc⟩⟩

end

end Sys2Proof.Machine
end

section
/-! The riffle engine and the tram (R237 to R282): each row runs its units and keeps the counters of its face, so it completes where
they pass; a release of a mask waits for the TILE_SPs that use the slot. -/

namespace Sys2Proof.Machine

theorem Blk.mem_flights_of_runningOn {b : Blk} {f u op : Nat} {x : Flight} (h : b.runningOn f u op = some x) : x ∈ b.flights :=
  List.mem_of_find?_eq_some h

/-! ## The rows -/

section
variable (f : Nat) (s : State) (x : Flight) (hf : f < Config.nFaces)
include hf

theorem exec_tileSp (hx : s.runningOn f 0 0x40 = some x) :
    exec (.tileSp f 0 none) s = .next (s.settle (doTileSp x none s.begin_)) := by
  refine (runIf_of _ _ s (by simp [hf])).trans ?_
  rw [tileSpRow, State.begin_toBlk, hx]
  rfl
theorem exec_maskReg (hx : s.runningOn f 0 0x41 = some x) :
    exec (.maskReg f 0 none) s = .next (s.settle (doMaskReg x none s.begin_)) := by
  refine (runIf_of _ _ s (by simp [hf])).trans ?_
  show Host.Outcome.next (s.settle (maskRegRow f 0 s.begin_)) = _
  rw [maskRegRow, State.begin_toBlk, hx]
theorem exec_gather (hx : s.runningOn f 0 0x50 = some x) :
    exec (.gather f 0 none) s = .next (s.settle (doGather x none s.begin_)) := by
  refine (runIf_of _ _ s (by simp [hf])).trans ?_
  rw [gatherRow, State.begin_toBlk, hx]
  rfl
theorem exec_merge (hx : s.runningOn f 0 0x51 = some x) :
    exec (.merge f 0 none) s = .next (s.settle (doMerge x none s.begin_)) := by
  refine (runIf_of _ _ s (by simp [hf])).trans ?_
  rw [mergeRow, State.begin_toBlk, hx]
  rfl
theorem exec_segsort (hx : s.runningOn f 0 0x52 = some x) :
    exec (.segsort f 0 none) s = .next (s.settle (doSegsort x none s.begin_)) := by
  refine (runIf_of _ _ s (by simp [hf])).trans ?_
  rw [segsortRow, State.begin_toBlk, hx]
  rfl

end

/-! ## What each changes besides its units' writes -/

theorem Work.riffleEnds_faceBlank (w : Work) (x : Flight) (b : Busy) : faceBlank (w.riffleEnds x b) = faceBlank w := rfl
theorem Work.setSlot_faceBlank (w : Work) (f k : Nat) (m : MaskSlot) : faceBlank (w.setSlot f k m) = faceBlank w := rfl
theorem Work.slot_setSlot (w : Work) (f k : Nat) (m : MaskSlot) : (w.setSlot f k m).slot f k = m := by
  rw [Blk.slot, Work.setSlot, Work.face_modFace, if_pos rfl, Tab.get_set_same]

/-! ## What each runs where its units pass -/

section
variable (x : Flight) (w : Work)

theorem doTileSp_of_pass (h : AllPass (tileSpUnits w x)) :
    doTileSp x none w = (w.runUnits x (tileSpUnits w x) (wmOf (tileSpUnits w x)) none false true).riffleEnds x
      (spBusy w x (tileSpUnits w x) none) := by
  unfold doTileSp
  dsimp only
  rw [stopAt_of_allPass h]
theorem doGather_of_pass (h : AllPass (gatherUnits w x)) :
    doGather x none w = (w.runUnits x (gatherUnits w x) (gatherUnits w x).length none false true).engineEnds x
      (gatherUnits w x) none 0x0600 (gatherCycles w x) 0x0628 := by
  unfold doGather
  dsimp only
  rw [uptoBad_of_noneBad _ (bad_of_allPass h)]
/-- A MERGE counts its indices out of bounds before it runs its units (R272), on its face alone. -/
theorem doMerge_faceBlank (limit : Option (Nat × Nat)) : ∃ v, faceBlank v = faceBlank w ∧ faceBlank (doMerge x limit w)
    = faceBlank (v.runUnits x (mergePlan w x).us (mergePlan w x).us.length limit false true) := by
  unfold doMerge
  dsimp only
  refine ⟨_, ?_, Work.engineEnds_faceBlank _ _ _ _ _ _ _⟩
  simp only [Work.faceCtr_faceBlank]
theorem doSegsort_faceBlank (limit : Option (Nat × Nat)) : faceBlank (doSegsort x limit w)
    = faceBlank (w.runUnits x (segsortUnits w x) (segsortUnits w x).length limit false true) := by
  unfold doSegsort
  exact Work.engineEnds_faceBlank _ _ _ _ _ _ _
/-- A registration whose bands pass leaves its mask in its slot (R239). -/
theorem doRegister_of_pass (h : AllPass (registerUnits w x)) :
    doRegister x none w = ((w.runUnits x (registerUnits w x) (registerUnits w x).length none false true).maskEnds x
      (registerCycles x.cmd (mrNw x.cmd / 4))).setSlot x.face (mrSlot x.cmd)
        ⟨.registering, mrKw x.cmd, mrNw x.cmd, mrOp x.cmd, w.img x.part (mrRows x.cmd), w.img x.part (mrCols x.cmd)⟩ := by
  unfold doRegister
  dsimp only
  rw [stopAt_of_allPass h]
theorem doMaskReg_register (limit : Option (Nat × Nat)) (h : mrOp x.cmd ≠ 2) : doMaskReg x limit w = doRegister x limit w :=
  if_neg h
theorem doMaskReg_release (limit : Option (Nat × Nat)) (h : mrOp x.cmd = 2) : doMaskReg x limit w = doRelease x limit w :=
  if_pos h

end

/-- Two changes of a face, after which a command has been run. -/
theorem State.settle_begin_faces_doneFlight (s : State) (n : Nat) (f g : Face → Face) (x : Flight) (wm : Nat) :
    s.settle (((s.begin_.modFace n f).modFace n g).doneFlight x wm) = withRun (withFace (withFace s n f) n g) x wm :=
  (congrArg (fun t => withRun (withFace (withFace t n f) n g) x wm) s.settle_begin :)

section
variable (f : Nat) (s : State) (x : Flight) (hf : f < Config.nFaces)
include hf

theorem tileSp_completes (hx : s.runningOn f 0 0x40 = some x) (hpass : AllPass (tileSpUnits s.begin_ x)) :
    Completes (exec (.tileSp f 0 none) s) s x (tileSpUnits s.begin_ x) (wmOf (tileSpUnits s.begin_ x)) := by
  rw [exec_tileSp f s x hf hx, doTileSp_of_pass x s.begin_ hpass]
  exact completes_of_units hpass rfl (Work.riffleEnds_faceBlank _ _ _) (Blk.mem_flights_of_runningOn hx)

theorem gather_completes (hx : s.runningOn f 0 0x50 = some x) (hpass : AllPass (gatherUnits s.begin_ x)) :
    Completes (exec (.gather f 0 none) s) s x (gatherUnits s.begin_ x) (gatherUnits s.begin_ x).length := by
  rw [exec_gather f s x hf hx, doGather_of_pass x s.begin_ hpass]
  exact completes_of_units hpass rfl (Work.engineEnds_faceBlank _ _ _ _ _ _ _) (Blk.mem_flights_of_runningOn hx)

theorem merge_completes (hx : s.runningOn f 0 0x51 = some x) (hpass : AllPass (mergePlan s.begin_ x).us) :
    Completes (exec (.merge f 0 none) s) s x (mergePlan s.begin_ x).us (mergePlan s.begin_ x).us.length := by
  obtain ⟨v, hbefore, hafter⟩ := doMerge_faceBlank x s.begin_ none
  rw [exec_merge f s x hf hx]
  exact completes_of_units hpass hbefore hafter (Blk.mem_flights_of_runningOn hx)

theorem segsort_completes (hx : s.runningOn f 0 0x52 = some x) (hpass : AllPass (segsortUnits s.begin_ x)) :
    Completes (exec (.segsort f 0 none) s) s x (segsortUnits s.begin_ x) (segsortUnits s.begin_ x).length := by
  rw [exec_segsort f s x hf hx]
  exact completes_of_units hpass rfl (doSegsort_faceBlank x s.begin_ none) (Blk.mem_flights_of_runningOn hx)

/-! ## MASK_REG (R239, R241) -/

section
variable (hx : s.runningOn f 0 0x41 = some x)
include hx

theorem register_completes (hop : mrOp x.cmd ≠ 2) (hpass : AllPass (registerUnits s.begin_ x)) :
    Completes (exec (.maskReg f 0 none) s) s x (registerUnits s.begin_ x) (registerUnits s.begin_ x).length := by
  rw [exec_maskReg f s x hf hx, doMaskReg_register x _ _ hop, doRegister_of_pass x s.begin_ hpass]
  exact completes_of_units hpass rfl ((Work.setSlot_faceBlank _ _ _ _).trans (Work.riffleEnds_faceBlank _ _ _))
    (Blk.mem_flights_of_runningOn hx)

theorem register_slot (hop : mrOp x.cmd ≠ 2) (hpass : AllPass (registerUnits s.begin_ x)) :
    ∃ t, exec (.maskReg f 0 none) s = .next t ∧ t.slot x.face (mrSlot x.cmd) =
      ⟨.registering, mrKw x.cmd, mrNw x.cmd, mrOp x.cmd, s.img x.part (mrRows x.cmd), s.img x.part (mrCols x.cmd)⟩ := by
  rw [exec_maskReg f s x hf hx, doMaskReg_register x _ _ hop, doRegister_of_pass x s.begin_ hpass]
  exact ⟨_, rfl, Work.slot_setSlot _ _ _ _⟩

/-- A release whose slot no earlier TILE_SP uses has run, and its riffle engine counts its 40 cycles (R243, log entry 14). -/
theorem release_runs (hop : mrOp x.cmd = 2) (hfree : s.slotUsed x = false) :
    exec (.maskReg f 0 none) s = .next (s.settle ((s.begin_.maskEnds x 40).doneFlight x 1)) := by
  rw [exec_maskReg f s x hf hx, doMaskReg_release x _ _ hop, doRelease, State.begin_toBlk, if_neg (by simp [hfree])]

theorem release_waits (hop : mrOp x.cmd = 2) (hused : s.slotUsed x = true) : exec (.maskReg f 0 none) s = .next s := by
  rw [exec_maskReg f s x hf hx, doMaskReg_release x _ _ hop, doRelease, State.begin_toBlk, if_pos hused, State.settle_begin]

end

end

/-- Settles O16: each row's units run between changes of its face only; a release turns on whether an earlier TILE_SP holds its
slot. -/
theorem sparseAndTram : Obligations.SparseAndTram := by
  refine fun f s x hf => ⟨tileSp_completes f s x hf, fun hx hop hpass => ⟨?_, ?_⟩, fun hx hop hfree => ?_, release_waits f s x hf,
    gather_completes f s x hf, merge_completes f s x hf, segsort_completes f s x hf⟩
  · exact register_completes f s x hf hx hop hpass
  · exact register_slot f s x hf hx hop hpass
  · exact (release_runs f s x hf hx hop hfree).trans (congrArg Host.Outcome.next
      (s.settle_begin_faces_doneFlight x.face _ _ x 1))

end Sys2Proof.Machine
end
